-- ==== Sys2Proof/Word.lean ====
section
/-! DEFINITION. Word.lean: the sizes of data of the manual (spec 00_scope, Numbers, bits and bytes): a byte is 8 bits,
a word 32, a doubleword 64; everything is little-endian (R4). -/

namespace Sys2Proof

/-- A byte. -/
abbrev Byte := BitVec 8

/-- A word of 32 bits. -/
abbrev Word := BitVec 32

/-- A doubleword of 64 bits. -/
abbrev DWord := BitVec 64

end Sys2Proof
end

