-- ==== Sys2Proof/Syntax.lean ====
section
/-! DEFINITION. Syntax.lean: the commands of the block, one constructor of `Instr` for each row of spec/opcode_table.json,
and the types of their operands. A command that stands for a physical event carries what the event measures (a sensor
reading, the outcome of an attempt); a command that a host, a driver or a controller sends carries what it sends. -/

namespace Sys2Proof

/-- An instruction of the choir in slot `slot` of core `core` (R3, R27) as its stall issues it: the choirs of the core, a bit for
each slot, whose operands or scoreboard keep them from issuing in this core clock (R35), and whether further commands of the same
core clock of its cloister follow (R73, R89, R144). -/
structure ChoirRef where
  core : Nat
  slot : Nat
  held : Nat
  more : Bool
  deriving DecidableEq, Repr

/-- The path of a dictionary access (R839): the PF port or a DICT_WRITE, the port of T_t, a Cantor message of a tray
controller, any other Cantor message with its source chip, or Sahcy. -/
inductive Path where
  | hk
  | ht (t : Nat)
  | tc
  | fp (src : Nat)
  | fw
  deriving DecidableEq, Repr

/-- A Cantor message (Table 18.8) with its payload and tag; `rsv` gathers the reserved header bits. -/
structure CantorMsg where
  dest : Nat
  src : Nat
  echo : Nat
  destEp : Nat
  srcEp : Nat
  origin : Nat
  lastPart : Nat
  part : Nat
  op : Nat
  resp : Bool
  count : Nat
  boot : Nat
  status : Nat
  byte : Nat
  length : Nat
  sub : Nat
  index : Nat
  offset : Nat
  rsv : Nat
  payload : List Byte
  tag : Nat
  deriving DecidableEq, Repr

/-- An event of Table 18.10 that a chip notifies. -/
structure NotifyArg where
  event : Nat
  cause : Nat
  detail : Nat
  sev : Nat
  index : Nat
  sub : Nat
  deriving DecidableEq, Repr

/-- A node of a graph by owner, queue, GRAPH and NODE. -/
structure NodeRef where
  owner : Nat
  queue : Nat
  graph : Nat
  node : Nat
  deriving DecidableEq, Repr

/-- What the check bytes of a stored sector show on a read (R710): no error, an error the stack
corrected (R714), one erroneous byte and bit that the code corrects, or an uncorrectable error. -/
inductive MemErr where
  | clean
  | onDie
  | correctable (byte bit : Nat)
  | uncorrectable
  deriving DecidableEq, Repr

/-- A burst whose bits a traffic generator receives in error (R733): the pass and pseudo-channel it is in, its number in the range, and
the bits that differ, data below and check bits from 256 up. -/
structure TgErr where
  pass : Nat
  pc : Nat
  burst : Nat
  diff : Nat
  deriving DecidableEq, Repr

/-- The end of a traffic generator's work on a channel (R733): the channel, and the bursts received in error. -/
structure TgEnd where
  ch : Nat
  errs : List TgErr
  deriving DecidableEq, Repr

/-- How a sector is written (R709): its poison, and what the read that merges part of it with what is stored finds (R710). -/
structure SectorMark where
  poison : Bool
  err : MemErr
  deriving DecidableEq, Repr

/-- What the hardware's own checks find while it carries out a command: nothing; a corrected SRAM error at a place (array 0 LM,
1 registers, 2 cache data, 3 cache tags, 4 the LMs of the cloister, eight sub-arrays each); an uncorrectable error in a clean line,
in a dirty line's sectors, in a tag, in LM word `i` (or accumulator word `i`), in word `i` of the cloister's LMs, or in a voice
register; failed residue checks of the products of the voices of a mask; an instruction-cache parity error (R103, R105, R159,
R261, R356 to R360); an uncorrectable error of the memory sector that a read of the Lark fetches (R410, R712); and an error of the
error-handling hardware (R674): 0 uncorrectable in a log, the pending queue or the sequencer's state, 1 in ERR_LOG_256, else a step past its
time bound. At a command of another unit, `word` and `parity` are those of its own arrays: the horarium tables (R645), a die's window
table and the TLBs (R502, R503), the snapshot store and a staged record (R987). -/
inductive HwErr where
  | none
  | corrected (arr sub row col bit : Nat)
  | clean
  | dirty (sectors : Nat)
  | tag
  | word (i : Nat)
  | clWord (i : Nat)
  | reg (r v : Nat)
  | arith (voices : Nat)
  | parity
  | memory
  | handling (k : Nat)
  deriving DecidableEq, Repr

/-- A stall whose store buffer drains, and what the checks of the line it goes to find (R359). -/
structure StallDrain where
  stall : Nat
  err : HwErr
  deriving DecidableEq, Repr

/-- One request to an L2 slice (R318): requester number, owner, DPA of the line, whether it writes, the byte mask and data
of the write, the window's policy class and partition, and the key slot (512 for none). -/
structure L2Req where
  requester : Nat
  owner : Nat
  dpa : Nat
  write : Bool
  mask : Nat
  data : Nat
  poison : Nat
  policy : Nat
  l2p : Nat
  key : Nat
  deriving DecidableEq, Repr

/-- An ATS Translation Completion (R477): untranslated address, kind (0 grants, 1 U bit, 2 denied or not present,
3 Unsupported Request or Completer Abort), size, translated address, permissions and the translation field as received. -/
structure AtsReply where
  u : Nat
  kind : Nat
  size : Nat
  pa : Nat
  r : Bool
  w : Bool
  field : Nat
  write : Bool
  deriving DecidableEq, Repr

/-- One reading of the junction sensors (R915), degrees Celsius times 4: four per octant in octant order, then four per
uncore die. -/
structure Temps where
  oct : List Int
  uncore : List Int
  deriving DecidableEq, Repr

/-- What the training of a memory domain finds as it wakes (R724, R743): channels that fail three times, channels that needed lane
repair, stacks whose identity disagrees with the variant, and the time it took in microseconds. -/
structure Training where
  failed : List Nat
  repaired : List Nat
  badStacks : List Nat
  us : Nat
  deriving DecidableEq, Repr

/-- What the outside gives the device at reset release: the always-on references, the outcome of the Sacristy self-test and
of the CANTOR_BOOT write, whether each slot's flash reads answer, the domains whose three wake attempts fail, the VR_PG inputs
sampled low, what memory training finds, and the time the boot takes in microseconds. -/
structure BootInputs where
  ref0 : Bool
  ref1 : Bool
  selfTest : Bool
  cryptOk : Bool
  flashA : Bool
  flashB : Bool
  failed : Nat
  pgLow : Nat
  training : Training
  us : Nat
  deriving DecidableEq, Repr

/-- An SPDM request on the I3C management port (R942), or on the JT-16's side-band link (R991): the session that carries it (0 for
none) and its bytes. -/
structure SpdmReq where
  tray : Bool
  session : Nat
  body : List Byte
  deriving DecidableEq, Repr

/-- A step of a PLDM Type 5 update of the JT-16 (R991, R996): 0 a firmware component, 1 an allowlist entry, with the bytes
or digests it carries. -/
structure FwUpdate where
  kind : Nat
  slot : Nat
  d1 : Nat
  d2 : Nat
  d4 : Nat
  valid : Bool
  deriving DecidableEq, Repr

/-- One sample of the tray's sensors and inputs: flow in L/min times 100, outlet and inlet in degrees times 16, pressure loop
currents in units of 0.01 mA, pump speed in rpm, slot input power in W times 10, and the PRSNT_N-low and PGOOD masks;
sensors that do not answer are named by the masks that end in Bad. `ms` is the time since the previous sample. -/
structure TraySample where
  ms : Nat
  flow : List Nat
  outlet : List Int
  inlet : List Int
  current : List Nat
  speed : List Nat
  power : List Nat
  present : Nat
  pgood : Nat
  flowBad : Nat
  outletBad : Nat
  inletBad : Nat
  speedBad : Nat
  powerBad : Nat
  deriving DecidableEq, Repr

/-- One reading of a leak rope (R1001): loop resistances and R_AB in ohms, the voltage drop along A in microvolts, the location
current in microamperes, and the capacitance of an open conductor to its partner in picofarads. -/
structure RopeReading where
  contA : Nat
  contB : Nat
  rab : Nat
  dropUv : Nat
  curUa : Nat
  pf : Nat
  deriving DecidableEq, Repr

/-- A packet of the Transept network (Table 16.7): the fields of its route header, `rsv` gathering the reserved bits, and the
bytes of its class content. -/
structure FPacket where
  owner : Nat
  hops : Nat
  flow : Nat
  cls : Nat
  flits : Nat
  neighbour : Bool
  src : Nat
  dest : Nat
  rsv : Nat
  content : List Byte
  deriving DecidableEq, Repr

/-- A flit (Table 16.5): its link header, its 240-byte body and its CRC as received, with what the FEC decoder says of the
codeword that carried it: symbols corrected, or lost. -/
structure Flit where
  seq : Nat
  ack : Nat
  nak : Bool
  crVc : Nat
  crCount : Nat
  crShared : Nat
  type : Nat
  vc : Nat
  body : List Byte
  crc : Nat
  corrected : Nat
  lost : Bool
  deriving DecidableEq, Repr

/-- The content of a TIME flit (Table 16.15); times in 1/16 ns. -/
structure TimeFlit where
  tx : Nat
  echoTx : Nat
  echoRx : Nat
  state : Nat
  echoValid : Bool
  depth : Nat
  root : Nat
  rootValid : Bool
  exchange : Nat
  deriving DecidableEq, Repr

/-- The content of a HANDSHAKE (Table 16.16). -/
structure Handshake where
  valid : Bool
  seen : Bool
  chip : Nat
  link : Nat
  revision : Nat
  ded : Nat
  shared : Nat
  depth : Nat
  serial : Nat
  deriving DecidableEq, Repr

/-- What the equalization loop of a link measures and decides in one run (R795): each lane's eye margin in 0.1 mV, the worst
lane's pre-FEC error ratio averaged over 100 ms as an FP32 pattern, and the step it takes: a lane, a setting (0 none, 1 CTLE
peaking, 2 to 15 DFE tap, 16 transmitter preset of the partner) and the direction. -/
structure EqRun where
  margins : List Nat
  ber : Nat
  lane : Nat
  setting : Nat
  up : Bool
  deriving DecidableEq, Repr

/-- The commands. -/
inductive Instr where
  | iadd (c : ChoirRef) (e : HwErr)   -- IADD, R121
  | isub (c : ChoirRef) (e : HwErr)   -- ISUB, R121
  | imul (c : ChoirRef) (e : HwErr)   -- IMUL, R121
  | imulhi (c : ChoirRef) (e : HwErr)   -- IMULHI, R121
  | imad (c : ChoirRef) (e : HwErr)   -- IMAD, R121
  | andCmd (c : ChoirRef) (e : HwErr)   -- AND, R121
  | orCmd (c : ChoirRef) (e : HwErr)   -- OR, R121
  | xor (c : ChoirRef) (e : HwErr)   -- XOR, R121
  | shl (c : ChoirRef) (e : HwErr)   -- SHL, R121
  | shr (c : ChoirRef) (e : HwErr)   -- SHR, R121
  | sar (c : ChoirRef) (e : HwErr)   -- SAR, R121
  | imin (c : ChoirRef) (e : HwErr)   -- IMIN, R121
  | imax (c : ChoirRef) (e : HwErr)   -- IMAX, R121
  | popc (c : ChoirRef) (e : HwErr)   -- POPC, R121
  | sel (c : ChoirRef) (e : HwErr)   -- SEL, R121
  | fadd (c : ChoirRef) (e : HwErr)   -- FADD, R229
  | fmul (c : ChoirRef) (e : HwErr)   -- FMUL, R229
  | ffma (c : ChoirRef) (e : HwErr)   -- FFMA, R229
  | fmin (c : ChoirRef) (e : HwErr)   -- FMIN, R242
  | fmax (c : ChoirRef) (e : HwErr)   -- FMAX, R242
  | fdiv (c : ChoirRef) (e : HwErr)   -- FDIV, R229
  | fsqrt (c : ChoirRef) (e : HwErr)   -- FSQRT, R229
  | dadd (c : ChoirRef) (e : HwErr)   -- DADD, R229
  | dmul (c : ChoirRef) (e : HwErr)   -- DMUL, R229
  | dfma (c : ChoirRef) (e : HwErr)   -- DFMA, R229
  | dmin (c : ChoirRef) (e : HwErr)   -- DMIN, R242
  | dmax (c : ChoirRef) (e : HwErr)   -- DMAX, R242
  | ddiv (c : ChoirRef) (e : HwErr)   -- DDIV, R229
  | dsqrt (c : ChoirRef) (e : HwErr)   -- DSQRT, R229
  | cvt (c : ChoirRef) (e : HwErr)   -- CVT, R244
  | isetp (c : ChoirRef) (e : HwErr)   -- ISETP, R124
  | fsetp (c : ChoirRef) (e : HwErr)   -- FSETP, R243
  | dsetp (c : ChoirRef) (e : HwErr)   -- DSETP, R243
  | plop (c : ChoirRef) (e : HwErr)   -- PLOP, R124
  | vote (c : ChoirRef) (e : HwErr)   -- VOTE, R124
  | bra (c : ChoirRef) (e : HwErr)   -- BRA, R41
  | brx (c : ChoirRef) (e : HwErr)   -- BRX, R43
  | call (c : ChoirRef) (e : HwErr)   -- CALL, R44
  | ret (c : ChoirRef) (e : HwErr)   -- RET, R44
  | exitCmd (c : ChoirRef) (e : HwErr)   -- EXIT, R45
  | nop (c : ChoirRef) (e : HwErr)   -- NOP, R122
  | ldL (c : ChoirRef) (e : HwErr)   -- LD_L, R49
  | stL (c : ChoirRef) (e : HwErr)   -- ST_L, R49
  | ldC (c : ChoirRef) (e : HwErr)   -- LD_C, R65
  | stC (c : ChoirRef) (e : HwErr)   -- ST_C, R67
  | ldG (c : ChoirRef) (e : HwErr)   -- LD_G, R48
  | stG (c : ChoirRef) (e : HwErr)   -- ST_G, R56
  | cwait (c : ChoirRef) (e : HwErr)   -- CWAIT, R80
  | atomL (c : ChoirRef) (e : HwErr)   -- ATOM_L, R286
  | atomC (c : ChoirRef) (e : HwErr)   -- ATOM_C, R286
  | atomG (c : ChoirRef) (e : HwErr)   -- ATOM_G, R286
  | fence (c : ChoirRef) (e : HwErr)   -- FENCE, R283
  | acopy (c : ChoirRef) (e : HwErr)   -- ACOPY, R132
  | actInit (c : ChoirRef) (e : HwErr)   -- ACT_INIT, R68
  | arrive (c : ChoirRef) (e : HwErr)   -- ARRIVE, R69
  | arriveExpect (c : ChoirRef) (e : HwErr)   -- ARRIVE_EXPECT, R69
  | actWait (c : ChoirRef) (e : HwErr)   -- ACT_WAIT, R72
  | arriveC (c : ChoirRef) (e : HwErr)   -- ARRIVE_C, R135
  | actRead (c : ChoirRef) (e : HwErr)   -- ACT_READ, R122
  | barSync (c : ChoirRef) (e : HwErr)   -- BAR_SYNC, R77
  | barArrive (c : ChoirRef) (e : HwErr)   -- BAR_ARRIVE, R77
  | gbar (c : ChoirRef) (e : HwErr)   -- GBAR, R79
  | mma (c : ChoirRef) (e : HwErr)   -- MMA, R173
  | mwait (c : ChoirRef) (e : HwErr)   -- MWAIT, R177
  | mflags (c : ChoirRef) (e : HwErr)   -- MFLAGS, R178
  | srRead (c : ChoirRef) (e : HwErr)   -- SR_READ, R136
  | srWrite (c : ChoirRef) (e : HwErr)   -- SR_WRITE, R138
  | mov (c : ChoirRef) (e : HwErr)   -- MOV, R122
  | trap (c : ChoirRef) (e : HwErr)   -- TRAP, R122
  | assert (c : ChoirRef) (e : HwErr)   -- ASSERT, R122
  | mark (c : ChoirRef) (e : HwErr)   -- MARK, R148
  | vperm (c : ChoirRef) (e : HwErr)   -- VPERM, R149
  | taskStart (core : Nat)   -- TASK_START, R32
  | storeBufferDrain (core : Nat) (x : StallDrain)   -- STORE_BUFFER_DRAIN, R59
  | loadReissue (c : ChoirRef)   -- LOAD_REISSUE, R61
  | deadlockDetectorFire (core : Nat)   -- DEADLOCK_DETECTOR_FIRE, R95
  | taskAbort (core cause detail : Nat)   -- TASK_ABORT, R101
  | taskComplete (core : Nat)   -- TASK_COMPLETE, R290
  | mmaDecode (core : Nat)   -- MMA_DECODE, R164
  | mmaGangStart (core : Nat)   -- MMA_GANG_START, R201
  | mmaComplete (core : Nat) (e : HwErr)   -- MMA_COMPLETE, R176
  | larkRequestIssue (core : Nat) (e : HwErr)   -- LARK_REQUEST_ISSUE, R384
  | blockLanded (core ctx : Nat)   -- BLOCK_LANDED, R380
  | acopyCompletion (core idx : Nat)   -- ACOPY_COMPLETION, R70
  | lda (core ctx : Nat)   -- LDA, R386
  | mova (core ctx : Nat)   -- MOVA, R386
  | adda (core ctx : Nat)   -- ADDA, R386
  | addap (core ctx : Nat)   -- ADDAP, R386
  | loopCmd (core ctx : Nat)   -- LOOP, R386
  | endl (core ctx : Nat)   -- ENDL, R386
  | emit (core ctx : Nat)   -- EMIT, R389
  | endProg (core ctx : Nat)   -- END, R390
  | starlingDelivery (die slot : Nat)   -- STARLING_DELIVERY, R400
  | l2Lookup (r : L2Req) (e : HwErr)   -- L2_LOOKUP, R318
  | l2Fill (line : Nat)   -- L2_FILL, R319
  | crossingRetry (dir : Nat)   -- CROSSING_RETRY, R345
  | crossingFailure (dir : Nat)   -- CROSSING_FAILURE, R363
  | maintGo (path : Path)   -- MAINT_GO, R346
  | maintDone   -- MAINT_DONE, R347
  | l2SpareSteering (slice array column : Nat)   -- L2_SPARE_STEERING, R361
  | pageWalk (eng owner va access : Nat) (e : HwErr)   -- PAGE_WALK, R458
  | faultBatchClose   -- FAULT_BATCH_CLOSE, R486
  | atsCompletion (fn : Nat) (a : AtsReply)   -- ATS_COMPLETION, R477
  | atsInvalidateRequest (fn addr size tag : Nat)   -- ATS_INVALIDATE_REQUEST, R478
  | prgResponse (fn prg code : Nat)   -- PRG_RESPONSE, R490
  | priTimeoutExpiry (fn prg : Nat)   -- PRI_TIMEOUT_EXPIRY, R490
  | faultGetWrite (path : Path) (value : Nat)   -- FAULT_GET_WRITE, R482
  | faultRingBaseWrite (path : Path) (value : Nat)   -- FAULT_RING_BASE_WRITE, R504
  | doorbell (owner q value : Nat) (poison : Bool)   -- DOORBELL, R523
  | barRead (fn bar off size : Nat)   -- BAR_READ, R1062
  | pfBar2Access (write : Bool) (off : Nat) (data : List Byte) (len : Nat) (poison : Bool)   -- PF_BAR2_ACCESS, R519
  | vfBar2Write (t off : Nat) (data : List Byte) (poison : Bool)   -- VF_BAR2_WRITE, R521
  | msixTableAccess (fn : Nat) (write : Bool) (off size value : Nat)   -- MSIX_TABLE_ACCESS, R522
  | msixUnmask (fn vec : Nat)   -- MSIX_UNMASK, R530
  | flr (t : Nat)   -- FLR, R535
  | pfFlr   -- PF_FLR, R537
  | vfEnableClear   -- VF_ENABLE_CLEAR, R539
  | busMasterEnableChange (fn : Nat) (on : Bool)   -- BUS_MASTER_ENABLE_CHANGE, R533
  | d3hotEntry   -- D3HOT_ENTRY, R534
  | d0Return   -- D0_RETURN, R534
  | hostportStateChange (rate width : Nat)   -- HOSTPORT_STATE_CHANGE, R512
  | hostLinkDown   -- HOST_LINK_DOWN, R550
  | hostCompletion (tag status : Nat) (data : List Byte) (ep : Bool) (e : HwErr)   -- HOST_COMPLETION, R548
  | configWrite (fn reg value : Nat)   -- CONFIG_WRITE, R517
  | precentorTick (e : HwErr)   -- PRECENTOR_TICK, R562
  | task (owner q : Nat) (p : BitVec 512)   -- TASK, R567
  | edge (owner q : Nat) (p : BitVec 512)   -- EDGE, R574
  | seal (owner q : Nat) (p : BitVec 512)   -- SEAL, R573
  | signal (owner q : Nat) (p : BitVec 512)   -- SIGNAL, R582
  | wait (owner q : Nat) (p : BitVec 512)   -- WAIT, R582
  | copy (owner q : Nat) (p : BitVec 512)   -- COPY, R824
  | reshard (owner q : Nat) (p : BitVec 512)   -- RESHARD, R807
  | collective (owner q : Nat) (p : BitVec 512)   -- COLLECTIVE, R817
  | timestamp (owner q : Nat) (p : BitVec 512)   -- TIMESTAMP, R582
  | watch (owner q : Nat) (p : BitVec 512)   -- WATCH, R973
  | nopPacket (owner q : Nat) (p : BitVec 512)   -- NOP_PACKET, R582
  | fencePacket (owner q : Nat) (p : BitVec 512)   -- FENCE_PACKET, R569
  | descCreate (owner q : Nat) (p : BitVec 512)   -- DESC_CREATE, R429
  | descDestroy (owner q : Nat) (p : BitVec 512)   -- DESC_DESTROY, R420
  | chapelSet (owner q : Nat) (p : BitVec 512)   -- CHAPEL_SET, R608
  | horariumLoad (owner q : Nat) (p : BitVec 512)   -- HORARIUM_LOAD, R614
  | contextKill (owner q : Nat) (p : BitVec 512)   -- CONTEXT_KILL, R677
  | windowMap (owner q : Nat) (p : BitVec 512)   -- WINDOW_MAP, R453
  | windowUnmap (owner q : Nat) (p : BitVec 512)   -- WINDOW_UNMAP, R455
  | tlbInvalidate (owner q : Nat) (p : BitVec 512)   -- TLB_INVALIDATE, R470
  | tenantSetup (owner q : Nat) (p : BitVec 512)   -- TENANT_SETUP, R649
  | tenantRelease (owner q : Nat) (p : BitVec 512)   -- TENANT_RELEASE, R650
  | dictWrite (owner q : Nat) (p : BitVec 512)   -- DICT_WRITE, R855
  | faultResume (owner q : Nat) (p : BitVec 512)   -- FAULT_RESUME, R489
  | queueEnable (path : Path)   -- QUEUE_ENABLE, R556
  | queueReset (path : Path)   -- QUEUE_RESET, R556
  | queueDisable (path : Path)   -- QUEUE_DISABLE, R556
  | taskTimeout (n : NodeRef)   -- TASK_TIMEOUT, R587
  | budgetExpiry (n : NodeRef)   -- BUDGET_EXPIRY, R586
  | waitTimeout (n : NodeRef)   -- WAIT_TIMEOUT, R587
  | queueTimeout (owner q : Nat)   -- QUEUE_TIMEOUT, R588
  | horariumSwitch   -- HORARIUM_SWITCH, R614
  | slotBoundary   -- SLOT_BOUNDARY, R627
  | urgentFloorRequest (entry : Nat)   -- URGENT_FLOOR_REQUEST, R631
  | contextTeardown (tenant steps : Nat)   -- CONTEXT_TEARDOWN, R678
  | logPop (path : Path) (n : Nat)   -- LOG_POP, R667
  | tandemCompare (core : Nat)   -- TANDEM_COMPARE, R685
  | comparatorSelfTest (clo : Nat) (missed : Bool)   -- COMPARATOR_SELF_TEST, R689
  | comparatorFault (clo : Nat)   -- COMPARATOR_FAULT, R690
  | keySlotFailure (slot : Nat)   -- KEY_SLOT_FAILURE, R700
  | hbmRead (dpa owner : Nat) (err : MemErr)   -- HBM_READ, R711
  | hbmWrite (dpa mask : Nat) (data : BitVec 256) (m : SectorMark)   -- HBM_WRITE, R709
  | retireAdd (path : Path) (value : Nat)   -- RETIRE_ADD, R721
  | retireAck (path : Path) (value : Nat)   -- RETIRE_ACK, R721
  | stackTempRead (stack : Nat) (temp : Int)   -- STACK_TEMP_READ, R725
  | refresh (ch bank kind : Nat)   -- REFRESH, R726
  | strobeRealign (ch : Nat)   -- STROBE_REALIGN, R724
  | patrolScrub (ch : Nat) (err : MemErr)   -- PATROL_SCRUB, R728
  | caParityRetry (ch : Nat) (trained : Bool)   -- CA_PARITY_RETRY, R738
  | enterTest (path : Path) (group : Nat)   -- ENTER_TEST, R729
  | leaveTest (path : Path) (group : Nat)   -- LEAVE_TEST, R729
  | tgStart (path : Path) (ch : Nat)   -- TG_START, R730
  | tgStop (path : Path) (ch : Nat)   -- TG_STOP, R730
  | tgDone (x : TgEnd)   -- TG_DONE, R733
  | linkSignalDetect (link : Nat) (present : Bool)   -- LINK_SIGNAL_DETECT, R747
  | linkTraining (link : Nat) (ok : Bool) (delay : Nat) (asym : Int)   -- LINK_TRAINING, R748
  | linkDown (link : Nat)   -- LINK_DOWN, R751
  | linkEnableWrite (path : Path) (link value : Nat)   -- LINK_ENABLE_WRITE, R750
  | flitReceive (link : Nat) (f : Flit) (e : HwErr)   -- FLIT_RECEIVE, R755
  | flitReplay (link : Nat)   -- FLIT_REPLAY, R755
  | replayTimeout (link : Nat)   -- REPLAY_TIMEOUT, R755
  | handshake (link : Nat) (h : Handshake)   -- HANDSHAKE, R758
  | presetRequest (link lane preset token : Nat)   -- PRESET_REQUEST, R758
  | presetAck (link lane preset token : Nat) (refused : Bool)   -- PRESET_ACK, R758
  | timeFlitSend (link sub : Nat)   -- TIME_FLIT_SEND, R777
  | timeFlitReceive (link sub : Nat) (f : TimeFlit)   -- TIME_FLIT_RECEIVE, R778
  | timeSet (path : Path) (value : Nat)   -- TIME_SET, R787
  | packetRoute (link : Nat) (p : FPacket) (e : HwErr)   -- PACKET_ROUTE, R766
  | errorPacketReceive (p : FPacket)   -- ERROR_PACKET_RECEIVE, R834
  | equalizationLoop (link : Nat) (r : EqRun)   -- EQUALIZATION_LOOP, R795
  | enter (p : FPacket)   -- ENTER, R804
  | release (p : FPacket)   -- RELEASE, R804
  | abortCmd (p : FPacket)   -- ABORT, R815
  | pull (p : FPacket)   -- PULL, R810
  | data (p : FPacket)   -- DATA, R811
  | up (p : FPacket)   -- UP, R819
  | down (p : FPacket)   -- DOWN, R819
  | write (p : FPacket)   -- WRITE, R824
  | ack (p : FPacket)   -- ACK, R824
  | barrierPass (op : Nat)   -- BARRIER_PASS, R804
  | enterResend (op : Nat)   -- ENTER_RESEND, R805
  | opTimeoutExpiry (op : Nat)   -- OP_TIMEOUT_EXPIRY, R833
  | dpReadBurst (port value : Nat) (e : HwErr)   -- DP_READ_BURST, R850
  | dpWriteBurst (port value : Nat)   -- DP_WRITE_BURST, R851
  | dpAbort (port value : Nat)   -- DP_ABORT, R853
  | dpDataRead (port : Nat)   -- DP_DATA_READ, R850
  | dpDataWrite (port value : Nat)   -- DP_DATA_WRITE, R851
  | dpBurstDone (port : Nat)   -- DP_BURST_DONE, R851
  | dictObjectWrite (path : Path) (index sub off byte : Nat) (data : List Byte)   -- DICT_OBJECT_WRITE, R843
  | cantorRead (i3c : Bool) (m : CantorMsg)   -- CANTOR_READ, R860
  | cantorWrite (i3c : Bool) (m : CantorMsg)   -- CANTOR_WRITE, R867
  | cantorReadBurst (i3c : Bool) (m : CantorMsg)   -- CANTOR_READ_BURST, R861
  | notify (n : NotifyArg)   -- NOTIFY, R868
  | cantorResponse (i3c : Bool) (m : CantorMsg)   -- CANTOR_RESPONSE, R863
  | i3cRelay (i3c : Bool) (m : CantorMsg)   -- I3C_RELAY, R862
  | cantorTx (path : Path) (m : CantorMsg)   -- CANTOR_TX, R863
  | cantorRxPop (path : Path)   -- CANTOR_RX_POP, R863
  | cantorTimeoutExpiry (count : Nat)   -- CANTOR_TIMEOUT_EXPIRY, R866
  | timebaseSwitch   -- TIMEBASE_SWITCH, R872
  | timebaseFailure   -- TIMEBASE_FAILURE, R873
  | pdOn (path : Path) (d : Nat)   -- PD_ON, R886
  | pdOff (path : Path) (d : Nat)   -- PD_OFF, R889
  | pdLow (path : Path) (d : Nat)   -- PD_LOW, R727
  | domainWake (d : Nat) (ok : Bool) (t : Training)   -- DOMAIN_WAKE, R888
  | wakeRetry (d : Nat)   -- WAKE_RETRY, R888
  | voltageLoop (oct : Nat) (margin : Int)   -- VOLTAGE_LOOP, R898
  | clockLoop (oct : Nat)   -- CLOCK_LOOP, R894
  | droopStretch (oct drop clocks : Nat)   -- DROOP_STRETCH, R902
  | droopThreshold (oct : Nat)   -- DROOP_THRESHOLD, R902
  | thresholdLoop (ch lane : Nat) (dir : Int)   -- THRESHOLD_LOOP, R898
  | placementLoop (oct : Nat)   -- PLACEMENT_LOOP, R903
  | currentLimit (oct amps : Nat)   -- CURRENT_LIMIT, R899
  | powerEstimate (d activity : Nat)   -- POWER_ESTIMATE, R910
  | recalibration (d measured : Nat)   -- RECALIBRATION, R911
  | quiesce (d : Nat)   -- QUIESCE, R912
  | estimatorStale (d : Nat)   -- ESTIMATOR_STALE, R914
  | thermalSensorRead (t : Temps)   -- THERMAL_SENSOR_READ, R915
  | powerFault (d : Nat)   -- POWER_FAULT, R925
  | powerOn   -- POWER_ON, R930
  | resetNAssert   -- RESET_N_ASSERT, R1044
  | perstEdge   -- PERST_EDGE, R933
  | resetRequestWarm (path : Path)   -- RESET_REQUEST_WARM, R930
  | resetRequestCold (path : Path)   -- RESET_REQUEST_COLD, R930
  | resetRelease (b : BootInputs)   -- RESET_RELEASE, R934
  | bootWatchdogExpiry   -- BOOT_WATCHDOG_EXPIRY, R954
  | flashRead (path : Path)   -- FLASH_READ, R947
  | flashProgram (path : Path)   -- FLASH_PROGRAM, R947
  | flashErase (path : Path)   -- FLASH_ERASE, R947
  | flashDone (ok : Bool)   -- FLASH_DONE, R947
  | bootPreference (path : Path) (slot : Nat)   -- BOOT_PREFERENCE, R948
  | bootConfirm (path : Path) (value : Nat)   -- BOOT_CONFIRM, R948
  | keyRevoke (path : Path) (value : Nat)   -- KEY_REVOKE, R949
  | getVersion (r : SpdmReq)   -- GET_VERSION, R942
  | getCapabilities (r : SpdmReq)   -- GET_CAPABILITIES, R942
  | negotiateAlgorithms (r : SpdmReq)   -- NEGOTIATE_ALGORITHMS, R942
  | getDigests (r : SpdmReq)   -- GET_DIGESTS, R942
  | getCertificate (r : SpdmReq)   -- GET_CERTIFICATE, R942
  | challenge (r : SpdmReq)   -- CHALLENGE, R942
  | getMeasurements (r : SpdmReq)   -- GET_MEASUREMENTS, R944
  | keyExchange (r : SpdmReq)   -- KEY_EXCHANGE, R942
  | finish (r : SpdmReq)   -- FINISH, R942
  | heartbeat (r : SpdmReq)   -- HEARTBEAT, R942
  | keyUpdate (r : SpdmReq)   -- KEY_UPDATE, R942
  | endSession (r : SpdmReq)   -- END_SESSION, R942
  | setSystemKey (r : SpdmReq)   -- SET_SYSTEM_KEY, R945
  | zeroizeSystemKey (r : SpdmReq)   -- ZEROIZE_SYSTEM_KEY, R945
  | getEndpointId (tray : Bool)   -- GET_ENDPOINT_ID, R958
  | cntLatch (path : Path)   -- CNT_LATCH, R961
  | sampler   -- SAMPLER, R962
  | dropsRecord   -- DROPS_RECORD, R968
  | tokenRefill   -- TOKEN_REFILL, R969
  | watchCapture   -- WATCH_CAPTURE, R975
  | snapRequest (path : Path) (value : Nat)   -- SNAP_REQUEST, R979
  | snapshotWrite (e : HwErr)   -- SNAPSHOT_WRITE, R980
  | clrRingBaseWrite (path : Path) (value : Nat)   -- CLR_RING_BASE_WRITE, R988
  | status   -- STATUS, R994
  | relay (slot : Nat) (m : CantorMsg) (answer : Option CantorMsg)   -- RELAY, R997
  | slotPowerOn (slot : Nat) (pgood : Bool)   -- SLOT_POWER_ON, R1003
  | slotPowerOff (slot : Nat)   -- SLOT_POWER_OFF, R1003
  | valve (slot value : Nat)   -- VALVE, R993
  | paramGet (id : Nat)   -- PARAM_GET, R1018
  | paramSet (id value : Nat)   -- PARAM_SET, R1018
  | utcSet (value : Nat)   -- UTC_SET, R993
  | logRead (start : Nat)   -- LOG_READ, R993
  | leakAck (rope : Nat)   -- LEAK_ACK, R1001
  | keyGenerate   -- KEY_GENERATE, R998
  | cloneAllow (serial : Nat)   -- CLONE_ALLOW, R998
  | getPdr (handle : Nat)   -- GET_PDR, R992
  | getSensorReading (id : Nat)   -- GET_SENSOR_READING, R992
  | getStateSensorReadings (id : Nat)   -- GET_STATE_SENSOR_READINGS, R992
  | setStateEffecterStates (id value : Nat) (pgood : Bool)   -- SET_STATE_EFFECTER_STATES, R992
  | getStateEffecterStates (id : Nat)   -- GET_STATE_EFFECTER_STATES, R992
  | setEventReceiver (eid : Nat)   -- SET_EVENT_RECEIVER, R992
  | platformEventMessage   -- PLATFORM_EVENT_MESSAGE, R992
  | pldmFirmwareUpdate (u : FwUpdate)   -- PLDM_FIRMWARE_UPDATE, R991
  | setEndpointId (eid : Nat)   -- SET_ENDPOINT_ID, R991
  | getMctpVersionSupport (type : Nat)   -- GET_MCTP_VERSION_SUPPORT, R991
  | getMessageTypeSupport   -- GET_MESSAGE_TYPE_SUPPORT, R991
  | getVendorDefinedMessageSupport (selector : Nat)   -- GET_VENDOR_DEFINED_MESSAGE_SUPPORT, R991
  | sensorSample (r : TraySample)   -- SENSOR_SAMPLE, R1000
  | ropeReading (rope : Nat) (r : RopeReading)   -- ROPE_READING, R1001
  | valveCloseDelay (slot : Nat)   -- VALVE_CLOSE_DELAY, R1002
  | pumpLoop   -- PUMP_LOOP, R1004
  | powerLimitRetry (slot : Nat) (ok : Bool)   -- POWER_LIMIT_RETRY, R1000
  | controllerRestart   -- CONTROLLER_RESTART, R1014
  | deviceAttest (slot : Nat) (d1 d2 d4 : Nat)   -- DEVICE_ATTEST, R996
  | notifyTargetSetup (slot : Nat)   -- NOTIFY_TARGET_SETUP, R999
  | trayUtcWrite   -- TRAY_UTC_WRITE, R1008
  | trayHeartbeat   -- TRAY_HEARTBEAT, R1017
  | slotNoResponse (slot : Nat)   -- SLOT_NO_RESPONSE, R1006
  | deviceUtcSet (path : Path) (value : Nat)   -- DEVICE_UTC_SET, R1030
  | lifeCommit (path : Path)   -- LIFE_COMMIT, R1021
  | hourlyCommit   -- HOURLY_COMMIT, R1021
  | lifetimeSecond   -- LIFETIME_SECOND, R1023
  | cryptCommitRetry (key : Nat) (ok : Bool)   -- CRYPT_COMMIT_RETRY, R883
  | bypass   -- BYPASS, R1055
  | idcode   -- IDCODE, R1055
  | samplePreload (data : Nat)   -- SAMPLE_PRELOAD, R1055
  | extest   -- EXTEST, R1056
  | extestPulse   -- EXTEST_PULSE, R1056
  | extestTrain   -- EXTEST_TRAIN, R1056
  | clamp   -- CLAMP, R1056
  | highz   -- HIGHZ, R1056
  | perstDeassert (strap : Nat)   -- PERST_DEASSERT, R509
  | hostLinkUp (rate width : Nat)   -- HOST_LINK_UP, R510
  | dpRegisterWrite (port reg value : Nat)   -- DP_REGISTER_WRITE, R848
  | bar0DiscardedWrite (fn off size : Nat) (poison : Bool)   -- BAR0_DISCARDED_WRITE, R522
  | powerLoss   -- POWER_LOSS, R1053
  | controllerSupplyLoss   -- CONTROLLER_SUPPLY_LOSS, R1015
  | spareLossOfLock   -- SPARE_LOSS_OF_LOCK, R872
  | cryptObjectCommit (key : Nat) (ok : Bool)   -- CRYPT_OBJECT_COMMIT, R844
  | vrPgRise (d : Nat)   -- VR_PG_RISE, R1047
  | relayTimeoutExpiry (slot : Nat)   -- RELAY_TIMEOUT_EXPIRY, R997
  deriving DecidableEq, Repr

end Sys2Proof
end

