-- ==== Sys2Proof/Decode.lean ====
section
/-! DEFINITION. Decode.lean: the command that a word spells. The table of commands gives no row any bits: the commands of the
block are accesses, messages and events, each with its operands, so no word spells one. -/

namespace Sys2Proof

/-- The command a word of `nbits` bits spells by the bits of the table: none, since no row gives bits. -/
def decodeTableWord (_nbits _w : Nat) : Option Instr := none

end Sys2Proof
end

