-- ==== Sys2Proof/Config.lean ====
section
/-! DEFINITION. Config.lean: what an implementation fixes and the free values. Every opaque constant here has no body: nothing
can be proved about its value but its width, so a claim holds whatever the value is (assumption 1). -/

namespace Sys2Proof.Config

/-- The `n`-th free value: a value the spec leaves open, drawn with the counter `free` of the state (assumption 1). -/
opaque freeValue : Nat → Nat

/-- SHA-384 of a byte string (FIPS 180-4, named by R938, R944 and R959, whose text is not part of the spec). -/
opaque sha384Bits : List Byte → BitVec 384

/-- The digest as a number. -/
def sha384 (bs : List Byte) : Nat := (sha384Bits bs).toNat

/-- HMAC-SHA-384 under a 384-bit key (R856, R945). -/
opaque hmac384Bits : Nat → List Byte → BitVec 384

/-- The code as a number. -/
def hmac384 (key : Nat) (bs : List Byte) : Nat := (hmac384Bits key bs).toNat

/-- ECDSA P-384 verification: public key, digest, signature (R938). -/
opaque ecdsaVerify : Nat → Nat → Nat → Bool

/-- ECDSA P-384 signature over a digest by an identity key (R942, R943): 0 the device's, 1 the JT-16's. -/
opaque ecdsaSign : Nat → Nat → Nat

/-- What AES-XTS-256 yields when a sector written under one key draw is read under another: the draw read under, the draw
written under, the tweak (DPA shifted right by 5) and the stored value (R662, R664). -/
opaque xts : Nat → Nat → Nat → Nat → Nat

/-- What a controller's code makes of 256 stored bits whose check lanes hold these 32 bits and not its own: the data in bits 255 to 0,
and in bit 256 whether the sector is uncorrectable (R711, R732). -/
opaque eccRaw : Nat → Nat → Nat

/-- The digest of the boot ROM (Table 20.8). -/
opaque bootRomDigestBits : BitVec 384

/-- That digest as a number. -/
def bootRomDigest : Nat := bootRomDigestBits.toNat

/-- The fused SHA-384 hash of signing key KEY_i (Table 20.3). -/
opaque fusedKeyHashBits : Nat → BitVec 384

/-- That hash as a number. -/
def fusedKeyHash (k : Nat) : Nat := (fusedKeyHashBits k).toNat

/-- The device identity certificate, the last of slot 0 (Table 20.7). -/
opaque identityCert : List Byte

/-- The certificates before it in slot 0: the Molelta root and intermediate (Table 20.7). -/
opaque certIssuers : List Byte

/-- The certificate chain of slot 0 (Table 20.7). -/
def certChain : List Byte := certIssuers ++ identityCert

/-- The certificate chain of the JT-16's identity (R991). -/
opaque trayCertChain : List Byte

/-- The digests that the JT-16's GET_MEASUREMENTS returns, which no rule states (R991). -/
opaque trayMeasurement : Nat → Nat

/-- What the filter over the last 16 offsets of fabric time gives for offsets that are not all one value, newest first: R778 names no
filter (assumption 38). -/
opaque offsetFilter : List Int → Int

/-- The sub-array of its slice that an L2 set lies in, one of 32 taken modulo 32: no rule places the sets (R105; assumption 30). -/
opaque l2SubArray : Nat → Nat

/-- The distance to the bridge in millimetres that the JT-16 finds when the current it drives reads zero, by the voltage drop: R1001 divides
by the current and states no result there (assumption 82). -/
opaque bridgeWithoutCurrent : Nat → Nat

/-- The fused aging base of an octant in mV (R1025, Table 23.4). -/
opaque agingBaseBits : Nat → BitVec 16

/-- That base as a number. -/
def agingBase (k : Nat) : Nat := (agingBaseBits k).toNat

/-- The spare blocks of the crypt at manufacture (Table 23.1). -/
opaque cryptSpares : Nat

end Sys2Proof.Config
end

