-- ==== Sys2Proof/Machine/Maps.lean ====
section
/-! DEFINITION. Machine/Maps.lean: sparse data by key. A map is a list of key and value pairs in one canonical form, keys
strictly rising; a map with a default lists no entry equal to the default, so that equal maps are equal lists. Memory is
the map of `Host.Cell` with default byte 0. -/

namespace Sys2Proof.Machine

/-- The value listed at key `k`, if any. -/
def mget {α : Type} : List (Nat × α) → Nat → Option α
  | [], _ => none
  | (k', v) :: m, k => if k = k' then some v else mget m k

/-- List `v` at key `k`, in the place of any value listed there. -/
def mset {α : Type} : List (Nat × α) → Nat → α → List (Nat × α)
  | [], k, v => [(k, v)]
  | (k', v') :: m, k, v =>
    if k < k' then (k, v) :: (k', v') :: m
    else if k = k' then (k, v) :: m
    else (k', v') :: mset m k v

/-- List nothing at key `k`. -/
def mdel {α : Type} : List (Nat × α) → Nat → List (Nat × α)
  | [], _ => []
  | (k', v') :: m, k => if k = k' then mdel m k else (k', v') :: mdel m k

/-- The value at key `k` of a map whose unlisted keys hold `d`. -/
def dget {α : Type} (d : α) (m : List (Nat × α)) (k : Nat) : α := (mget m k).getD d

/-- Set key `k` of a map whose unlisted keys hold `d`. -/
def dset {α : Type} [DecidableEq α] (d : α) (m : List (Nat × α)) (k : Nat) (v : α) : List (Nat × α) :=
  if v = d then mdel m k else mset m k v

/-- The keys rise strictly. -/
def keysRise {α : Type} : List (Nat × α) → Bool
  | [] => true
  | [_] => true
  | a :: b :: m => decide (a.1 < b.1) && keysRise (b :: m)

/-- The canonical form of a map with default `d`. -/
def dwf {α : Type} [DecidableEq α] (d : α) (m : List (Nat × α)) : Bool :=
  keysRise m && m.all fun e => decide (e.2 ≠ d)

/-- Keep the entries whose key satisfies `p`. -/
def mkeep {α : Type} (p : Nat → Bool) (m : List (Nat × α)) : List (Nat × α) := m.filter fun e => p e.1

/-- Insert a number into an ascending list without repeats. -/
def insertNat (n : Nat) : List Nat → List Nat
  | [] => [n]
  | x :: xs => if n = x then x :: xs else if n < x then n :: x :: xs else x :: insertNat n xs

/-- `n`-bit field of `x` at bit `lo`. -/
def bits (x lo n : Nat) : Nat := (x / 2 ^ lo) % 2 ^ n

/-- Bit `i` of `x`. -/
def bit (x i : Nat) : Bool := (x / 2 ^ i) % 2 = 1

/-- 1 for true, 0 for false. -/
def b2n (b : Bool) : Nat := if b then 1 else 0

/-- Replace the `n`-bit field of `x` at bit `lo` by `v`. -/
def setBits (x lo n v : Nat) : Nat :=
  x % 2 ^ lo + (v % 2 ^ n) * 2 ^ lo + (x / 2 ^ (lo + n)) * 2 ^ (lo + n)

/-- The number of one bits among the low `n` bits of `x`. -/
def popCount : Nat → Nat → Nat
  | 0, _ => 0
  | n + 1, x => x % 2 + popCount n (x / 2)

/-- The low `n` bytes of `x`, byte 0 first (R4). -/
def leBytes : Nat → Nat → List Byte
  | 0, _ => []
  | n + 1, x => BitVec.ofNat 8 x :: leBytes n (x / 256)

/-- The value of a byte string, byte 0 lowest (R4). -/
def leNat : List Byte → Nat
  | [] => 0
  | b :: bs => b.toNat + 256 * leNat bs

/-- The `n` bytes of `x` with the highest first, as the standards of R4's exception order a digest, a signature or a tag. -/
def beBytes (n x : Nat) : List Byte := (leBytes n x).reverse

/-- The value of a byte string, first byte highest (the exception of R4). -/
def beNat (bs : List Byte) : Nat := bs.foldl (fun a b => 256 * a + b.toNat) 0

/-- Two's complement reading of an `n`-bit pattern. -/
def toSigned (n x : Nat) : Int := if 2 * (x % 2 ^ n) < 2 ^ n then (x % 2 ^ n : Nat) else ((x % 2 ^ n : Nat) : Int) - (2 ^ n : Nat)

/-- The `n`-bit two's complement pattern of an integer. -/
def ofSigned (n : Nat) (x : Int) : Nat := (x % ((2 ^ n : Nat) : Int)).toNat

/-- `ceil (a / b)`. -/
def cdiv (a b : Nat) : Nat := (a + b - 1) / b

/-- Memory with byte `b` at address `a`. -/
def putByte (m : List Host.Cell) (a : Nat) (b : Byte) : List Host.Cell := dset 0 m a b

/-- Memory with the bytes `bs` from address `a` upward. -/
def putBytes (m : List Host.Cell) (a : Nat) : List Byte → List Host.Cell
  | [] => m
  | b :: bs => putBytes (putByte m a b) (a + 1) bs

/-- The `n` bytes from address `a` as one little-endian value (R4). -/
def readLE (m : List Host.Cell) (a n : Nat) : Nat :=
  m.foldl (fun acc c => if a ≤ c.1 && c.1 < a + n then acc + c.2.toNat * 2 ^ (8 * (c.1 - a)) else acc) 0

/-- Memory with bytes of the `n`-byte value `v` stored from `a`, for the bytes `i` whose bit `i` of `mask` is set. -/
def putMasked (m : List Host.Cell) (a : Nat) : Nat → Nat → Nat → List Host.Cell
  | 0, _, _ => m
  | n + 1, mask, v =>
    putMasked (if mask % 2 = 1 then putByte m a (BitVec.ofNat 8 v) else m) (a + 1) n (mask / 2) (v / 256)

/-- Merge the bytes of `new` chosen by `mask` over `old`, for `n` bytes. -/
def mergeBytes : Nat → Nat → Nat → Nat → Nat
  | 0, _, _, _ => 0
  | n + 1, mask, new, old =>
    (if mask % 2 = 1 then new % 256 else old % 256) + 256 * mergeBytes n (mask / 2) (new / 256) (old / 256)

/-- The canonical form of memory. -/
def memWf (m : List Host.Cell) : Bool := dwf 0 m

/-- Replace every element that satisfies `p` by its image under `f`. -/
def mapIf {α : Type} (p : α → Bool) (f : α → α) (l : List α) : List α := l.map fun x => if p x then f x else x

/-- Replace element `i` of a list. -/
def setAt {α : Type} : List α → Nat → α → List α
  | [], _, _ => []
  | _ :: xs, 0, v => v :: xs
  | x :: xs, i + 1, v => x :: setAt xs i v

/-- Insert an element before the first one it does not follow. -/
def insertBy {α : Type} (le : α → α → Bool) (x : α) : List α → List α
  | [] => [x]
  | y :: ys => if le x y then x :: y :: ys else y :: insertBy le x ys

/-- Sort a list, keeping the order of elements that compare equal. -/
def sortBy {α : Type} (le : α → α → Bool) : List α → List α
  | [] => []
  | x :: xs => insertBy le x (sortBy le xs)

/-- The natural numbers from `a`, `n` of them. -/
def rangeFrom (a : Nat) : Nat → List Nat
  | 0 => []
  | n + 1 => a :: rangeFrom (a + 1) n

/-- One bit step of the CRC-64 of R684 and R753: the polynomial of ECMA-182, not reflected. -/
def crc64Bit (s : Nat) : Nat := if bit s 63 then (2 * s % 2 ^ 64) ^^^ 0x42F0E1EBA9EA3693 else 2 * s

/-- Fold bytes into the CRC-64, most significant bit first. -/
def crc64 (s : Nat) (bs : List Byte) : Nat :=
  bs.foldl (fun s b => (rangeFrom 0 8).foldl (fun s _ => crc64Bit s) (s ^^^ (b.toNat * 2 ^ 56))) s

end Sys2Proof.Machine
end

