-- ==== Sys2Proof/Machine/ObjTable.lean ====
section
/-! DEFINITION. Machine/ObjTable.lean: the object dictionary of the device (spec R836-R838, R842, R870):
one row per object of the object tables of chapters 2 to 23, with its type, size, rights per caller class, range, persistence and
effective-at rule, and the default of every object whose default is not zero. -/

namespace Sys2Proof.Machine

/-- One row of an object table (R836): an index range, a subindex range, the type code of Table 18.2, the size in bytes, the
bytes of one stored element, the rights of HK, HT, TC, FP and FW (bit 0 R, bit 1 W, bit 2 read-clears), the range of a scalar
value, whether it is persisted (R844) and its effective-at rule (R843: 0 immediately, 1 next frame, 2 next reset). -/
structure ObjRow where
  il : Nat
  ih : Nat
  sl : Nat
  sh : Nat
  type : Nat
  size : Nat
  ew : Nat
  hk : Nat
  ht : Nat
  tc : Nat
  fp : Nat
  fw : Nat
  lo : Nat
  hi : Nat
  persist : Bool
  eff : Nat
  deriving DecidableEq, Repr

/-- The store key of element `e` of object `i`:`s`. -/
def okey (i s e : Nat) : Nat := i * 1099511627776 + s * 4294967296 + e

/-- Rows of the index range 0x1000 (Table 18.11). -/
def objRows10 : List ObjRow :=
  [⟨0x1000, 0x1000, 0, 0, 12, 16, 1, 1, 1, 1, 1, 1, 0, 0, false, 0⟩,
   ⟨0x1001, 0x1001, 0, 0, 12, 16, 1, 1, 1, 1, 1, 1, 0, 0, false, 0⟩,
   ⟨0x1002, 0x1002, 0, 0, 2, 1, 1, 1, 1, 1, 1, 1, 0, 255, false, 0⟩,
   ⟨0x1003, 0x1003, 0, 0, 5, 8, 8, 1, 1, 1, 1, 1, 0, 18446744073709551615, false, 0⟩,
   ⟨0x1004, 0x1004, 0, 0, 3, 2, 2, 1, 1, 1, 1, 1, 0, 65535, false, 0⟩,
   ⟨0x1005, 0x1005, 0, 0, 3, 2, 2, 1, 1, 1, 1, 1, 0, 65535, false, 0⟩,
   ⟨0x1006, 0x1006, 0, 0, 3, 2, 2, 1, 1, 1, 1, 1, 0, 65535, false, 0⟩,
   ⟨0x1007, 0x1007, 0, 0, 3, 2, 2, 1, 1, 1, 1, 1, 0, 65535, false, 0⟩,
   ⟨0x1008, 0x1008, 0, 0, 5, 8, 8, 1, 1, 1, 1, 1, 0, 18446744073709551615, false, 0⟩,
   ⟨0x1009, 0x1009, 0, 0, 4, 4, 4, 1, 1, 1, 1, 3, 0, 4294967295, false, 0⟩,
   ⟨0x100A, 0x100A, 0, 0, 2, 1, 1, 1, 1, 1, 1, 3, 0, 255, false, 0⟩,
   ⟨0x100B, 0x100B, 0, 0, 4, 4, 4, 1, 1, 1, 1, 1, 0, 4294967295, false, 0⟩,
   ⟨0x100C, 0x100C, 0, 0, 13, 48, 1, 1, 1, 1, 1, 1, 0, 0, false, 0⟩,
   ⟨0x1010, 0x1010, 0, 0, 2, 1, 1, 1, 1, 1, 1, 3, 0, 255, false, 0⟩,
   ⟨0x1011, 0x1011, 0, 0, 2, 1, 1, 1, 1, 1, 1, 3, 0, 255, false, 0⟩,
   ⟨0x1012, 0x1012, 0, 0, 2, 1, 1, 2, 0, 2, 2, 2, 1, 2, false, 0⟩,
   ⟨0x1013, 0x1013, 0, 0, 2, 1, 1, 3, 0, 3, 1, 3, 0, 1, true, 0⟩,
   ⟨0x1014, 0x1014, 0, 0, 2, 1, 1, 3, 0, 3, 1, 3, 0, 1, true, 0⟩,
   ⟨0x1015, 0x1015, 0, 0, 1, 1, 1, 1, 0, 1, 1, 3, 0, 1, true, 0⟩,
   ⟨0x1016, 0x1016, 0, 0, 2, 1, 1, 1, 0, 1, 1, 3, 0, 255, true, 0⟩,
   ⟨0x1017, 0x1017, 0, 0, 2, 1, 1, 2, 0, 2, 0, 2, 1, 2, false, 0⟩,
   ⟨0x1018, 0x1018, 0, 0, 4, 4, 4, 1, 1, 1, 1, 3, 0, 4294967295, true, 0⟩,
   ⟨0x1019, 0x1019, 0, 0, 13, 32, 4, 1, 0, 1, 1, 3, 0, 0, false, 0⟩,
   ⟨0x101A, 0x101A, 0, 0, 2, 1, 1, 1, 1, 1, 1, 1, 0, 255, false, 0⟩,
   ⟨0x101B, 0x101B, 0, 0, 2, 1, 1, 2, 0, 0, 0, 2, 1, 15, false, 0⟩,
   ⟨0x101C, 0x101C, 0, 0, 4, 4, 4, 1, 1, 1, 1, 3, 0, 4294967295, false, 0⟩,
   ⟨0x101D, 0x101D, 0, 0, 4, 4, 4, 3, 0, 3, 1, 3, 500, 60000, true, 0⟩,
   ⟨0x1020, 0x1020, 0, 0, 4, 4, 4, 3, 0, 3, 0, 3, 0, 4294967295, false, 0⟩,
   ⟨0x1021, 0x1021, 0, 0, 13, 4096, 1, 3, 0, 3, 0, 3, 0, 0, false, 0⟩,
   ⟨0x1022, 0x1022, 0, 0, 2, 1, 1, 2, 0, 2, 0, 2, 1, 3, false, 0⟩] ++
  [⟨0x1023, 0x1023, 0, 0, 2, 1, 1, 1, 0, 1, 0, 3, 0, 255, false, 0⟩,
   ⟨0x1024, 0x1024, 0, 0, 4, 4, 4, 1, 0, 1, 0, 1, 0, 4294967295, false, 0⟩]

/-- Rows of the index range 0x1100 (Table 18.11). -/
def objRows11 : List ObjRow :=
  [⟨0x1100, 0x1100, 0, 0, 3, 2, 2, 1, 1, 1, 1, 1, 0, 65535, false, 0⟩,
   ⟨0x1101, 0x1101, 0, 0, 3, 2, 2, 1, 1, 1, 1, 1, 0, 65535, false, 0⟩,
   ⟨0x1102, 0x1102, 1, 1, 4, 4, 4, 3, 3, 3, 3, 3, 0, 4294967295, false, 0⟩,
   ⟨0x1102, 0x1102, 2, 2, 5, 8, 8, 1, 1, 1, 1, 1, 0, 18446744073709551615, false, 0⟩,
   ⟨0x1110, 0x1110, 1, 1, 1, 1, 1, 3, 0, 1, 1, 3, 0, 1, false, 0⟩,
   ⟨0x1110, 0x1110, 2, 2, 4, 4, 4, 3, 0, 1, 1, 3, 100, 1000000, false, 0⟩,
   ⟨0x1110, 0x1110, 3, 3, 2, 1, 1, 1, 0, 1, 1, 3, 0, 255, false, 0⟩,
   ⟨0x1110, 0x1110, 4, 4, 3, 2, 2, 1, 0, 1, 1, 3, 0, 65535, true, 0⟩,
   ⟨0x1120, 0x1120, 1, 1, 13, 288, 1, 2, 0, 0, 0, 2, 0, 0, false, 0⟩,
   ⟨0x1120, 0x1120, 2, 2, 2, 1, 1, 1, 0, 0, 0, 3, 0, 255, false, 0⟩,
   ⟨0x1120, 0x1120, 3, 3, 13, 288, 1, 1, 0, 0, 0, 1, 0, 0, false, 0⟩,
   ⟨0x1120, 0x1120, 4, 4, 2, 1, 1, 1, 0, 0, 0, 1, 0, 255, false, 0⟩,
   ⟨0x1120, 0x1120, 5, 5, 2, 1, 1, 2, 0, 0, 0, 2, 1, 1, false, 0⟩,
   ⟨0x1130, 0x1130, 1, 8, 4, 4, 4, 3, 0, 3, 3, 3, 0, 4294967295, true, 0⟩,
   ⟨0x1140, 0x1140, 0, 0, 5, 8, 8, 5, 0, 1, 1, 3, 0, 18446744073709551615, false, 0⟩,
   ⟨0x1141, 0x1141, 0, 0, 5, 8, 8, 5, 0, 1, 1, 3, 0, 18446744073709551615, false, 0⟩,
   ⟨0x1142, 0x1142, 0, 0, 5, 8, 8, 5, 0, 1, 1, 3, 0, 18446744073709551615, false, 0⟩,
   ⟨0x1143, 0x1143, 0, 0, 5, 8, 8, 5, 0, 1, 1, 3, 0, 18446744073709551615, false, 0⟩,
   ⟨0x1144, 0x1144, 0, 0, 5, 8, 8, 5, 0, 1, 1, 3, 0, 18446744073709551615, false, 0⟩,
   ⟨0x1145, 0x1145, 0, 0, 5, 8, 8, 5, 0, 1, 1, 3, 0, 18446744073709551615, false, 0⟩,
   ⟨0x1146, 0x1146, 0, 0, 5, 8, 8, 5, 0, 1, 1, 3, 0, 18446744073709551615, false, 0⟩,
   ⟨0x1147, 0x1147, 0, 0, 5, 8, 8, 5, 0, 1, 1, 3, 0, 18446744073709551615, false, 0⟩]

/-- Rows of the index range 0x1200 (Table 18.11). -/
def objRows12 : List ObjRow :=
  [⟨0x1200, 0x1200, 0, 0, 5, 8, 8, 1, 1, 1, 1, 1, 0, 18446744073709551615, false, 0⟩,
   ⟨0x1201, 0x1201, 0, 0, 2, 1, 1, 1, 1, 1, 1, 3, 0, 255, false, 0⟩,
   ⟨0x1202, 0x1202, 0, 0, 2, 1, 1, 1, 0, 1, 1, 3, 0, 255, false, 0⟩,
   ⟨0x1203, 0x1203, 0, 0, 1, 1, 1, 3, 0, 1, 1, 3, 0, 1, true, 0⟩,
   ⟨0x1204, 0x1204, 0, 0, 8, 4, 4, 1, 0, 1, 1, 3, 0, 4294967295, false, 0⟩,
   ⟨0x1205, 0x1205, 0, 0, 4, 4, 4, 1, 0, 1, 1, 3, 0, 4294967295, false, 0⟩]

/-- Rows of the index range 0x2000 (Table 18.11). -/
def objRows20 : List ObjRow :=
  [⟨0x2000, 0x2000, 0, 15, 2, 1, 1, 1, 1, 1, 1, 3, 0, 255, false, 0⟩,
   ⟨0x2001, 0x2001, 0, 15, 2, 1, 1, 2, 0, 0, 0, 2, 0, 255, false, 0⟩,
   ⟨0x2002, 0x2002, 0, 15, 4, 4, 4, 1, 0, 1, 1, 3, 0, 4294967295, false, 0⟩,
   ⟨0x2003, 0x2003, 0, 15, 4, 4, 4, 1, 0, 1, 1, 3, 0, 4294967295, false, 0⟩,
   ⟨0x2010, 0x2010, 0, 7, 3, 2, 2, 1, 1, 1, 1, 3, 0, 65535, false, 0⟩,
   ⟨0x2011, 0x2011, 0, 7, 3, 2, 2, 1, 0, 1, 1, 3, 0, 65535, false, 0⟩,
   ⟨0x2012, 0x2012, 0, 7, 3, 2, 2, 3, 1, 1, 1, 3, 400, 1250, false, 0⟩,
   ⟨0x2013, 0x2013, 0, 7, 3, 2, 2, 3, 1, 1, 1, 3, 400, 1250, false, 0⟩,
   ⟨0x2014, 0x2014, 0, 7, 3, 2, 2, 3, 1, 1, 1, 3, 400, 1250, false, 0⟩,
   ⟨0x2015, 0x2015, 0, 7, 3, 2, 2, 3, 1, 1, 1, 3, 0, 1250, false, 0⟩,
   ⟨0x2016, 0x2016, 0, 0, 1, 1, 1, 3, 1, 1, 1, 3, 0, 1, false, 0⟩,
   ⟨0x2017, 0x2017, 0, 0, 3, 2, 2, 3, 0, 1, 1, 3, 0, 1000, false, 0⟩,
   ⟨0x2018, 0x2018, 0, 0, 3, 2, 2, 3, 1, 3, 1, 3, 300, 1500, false, 0⟩,
   ⟨0x2019, 0x2019, 0, 0, 3, 2, 2, 1, 1, 1, 1, 3, 0, 65535, false, 0⟩,
   ⟨0x201A, 0x201A, 0, 15, 3, 2, 2, 1, 0, 1, 1, 3, 0, 65535, false, 0⟩,
   ⟨0x201B, 0x201B, 0, 0, 5, 8, 8, 5, 0, 1, 0, 3, 0, 18446744073709551615, false, 0⟩]

/-- Rows of the index range 0x2100 (Table 18.11). -/
def objRows21 : List ObjRow :=
  [⟨0x2100, 0x2100, 0, 0, 3, 2, 2, 3, 0, 0, 1, 3, 10, 60, false, 0⟩,
   ⟨0x2101, 0x2101, 0, 0, 3, 2, 2, 3, 0, 0, 1, 3, 550, 850, false, 0⟩,
   ⟨0x2102, 0x2102, 0, 7, 1, 1, 1, 3, 0, 0, 1, 3, 0, 1, false, 0⟩,
   ⟨0x2103, 0x2103, 0, 0, 3, 2, 2, 3, 0, 0, 1, 3, 20, 60, false, 0⟩,
   ⟨0x2104, 0x2104, 0, 0, 1, 1, 1, 3, 0, 0, 1, 3, 0, 1, false, 0⟩,
   ⟨0x2105, 0x2105, 0, 0, 5, 8, 8, 5, 0, 1, 0, 3, 0, 18446744073709551615, false, 0⟩,
   ⟨0x2106, 0x2106, 0, 1, 2, 1, 1, 3, 0, 0, 1, 3, 0, 127, false, 0⟩,
   ⟨0x2107, 0x2107, 0, 1, 2, 1, 1, 3, 0, 0, 1, 3, 0, 127, false, 0⟩,
   ⟨0x2108, 0x2108, 0, 1, 1, 1, 1, 3, 0, 0, 1, 3, 0, 1, false, 0⟩,
   ⟨0x2109, 0x2109, 1, 1, 1, 1, 1, 3, 0, 1, 1, 3, 0, 1, false, 0⟩,
   ⟨0x2109, 0x2109, 2, 2, 2, 1, 1, 3, 0, 0, 1, 3, 0, 255, false, 0⟩,
   ⟨0x2109, 0x2109, 3, 3, 4, 4, 4, 3, 0, 0, 1, 3, 100, 10000000, false, 0⟩,
   ⟨0x2109, 0x2109, 4, 4, 1, 1, 1, 3, 0, 0, 1, 3, 0, 1, false, 0⟩,
   ⟨0x2110, 0x2110, 0, 0, 4, 4, 4, 1, 0, 1, 1, 3, 0, 4294967295, false, 0⟩,
   ⟨0x2111, 0x2111, 0, 0, 13, 256, 16, 1, 0, 1, 1, 3, 0, 0, false, 0⟩,
   ⟨0x2112, 0x2112, 0, 0, 5, 8, 8, 5, 0, 1, 1, 3, 0, 18446744073709551615, false, 0⟩,
   ⟨0x2120, 0x2120, 0, 0, 1, 1, 1, 3, 0, 0, 1, 3, 0, 1, false, 0⟩,
   ⟨0x2121, 0x2121, 0, 15, 2, 1, 1, 1, 0, 1, 1, 3, 0, 255, false, 0⟩,
   ⟨0x2122, 0x2122, 0, 0, 5, 8, 8, 5, 0, 0, 1, 3, 0, 18446744073709551615, false, 0⟩]

/-- Rows of the index range 0x2200 (Table 18.11). -/
def objRows22 : List ObjRow :=
  [⟨0x2200, 0x2200, 0, 7, 7, 2, 2, 1, 1, 1, 1, 3, 0, 65535, false, 0⟩,
   ⟨0x2201, 0x2201, 0, 1, 7, 2, 2, 1, 0, 1, 1, 3, 0, 65535, false, 0⟩,
   ⟨0x2202, 0x2202, 0, 0, 2, 1, 1, 3, 1, 3, 1, 3, 60, 100, false, 0⟩,
   ⟨0x2203, 0x2203, 0, 0, 2, 1, 1, 1, 1, 1, 1, 1, 0, 255, false, 0⟩,
   ⟨0x2204, 0x2204, 0, 0, 2, 1, 1, 1, 1, 1, 1, 1, 0, 255, false, 0⟩,
   ⟨0x2205, 0x2205, 0, 0, 5, 8, 8, 5, 0, 1, 1, 3, 0, 18446744073709551615, false, 0⟩,
   ⟨0x2206, 0x2206, 0, 0, 4, 4, 4, 1, 0, 1, 1, 3, 0, 4294967295, false, 0⟩]

/-- Rows of the index range 0x3000 (Table 18.11). -/
def objRows30 : List ObjRow :=
  [⟨0x3000, 0x3000, 0, 0, 3, 2, 2, 1, 1, 1, 1, 1, 0, 65535, false, 0⟩,
   ⟨0x3001, 0x3001, 0, 0, 2, 1, 1, 1, 1, 0, 1, 1, 0, 255, false, 0⟩,
   ⟨0x3002, 0x3002, 0, 0, 4, 4, 4, 1, 1, 0, 1, 1, 0, 4294967295, false, 0⟩,
   ⟨0x3003, 0x3003, 0, 0, 2, 1, 1, 1, 0, 0, 1, 1, 0, 255, false, 0⟩,
   ⟨0x3010, 0x3010, 0, 0, 13, 2048, 8, 1, 0, 1, 1, 3, 0, 0, false, 0⟩,
   ⟨0x3020, 0x3020, 0, 0, 5, 8, 8, 5, 0, 0, 0, 3, 0, 18446744073709551615, false, 0⟩,
   ⟨0x3021, 0x3021, 0, 0, 5, 8, 8, 5, 0, 0, 0, 3, 0, 18446744073709551615, false, 0⟩,
   ⟨0x3022, 0x3022, 0, 0, 5, 8, 8, 5, 0, 0, 0, 3, 0, 18446744073709551615, false, 0⟩,
   ⟨0x3030, 0x3030, 0, 0, 5, 8, 8, 5, 0, 1, 0, 3, 0, 18446744073709551615, false, 0⟩,
   ⟨0x3031, 0x3031, 0, 0, 13, 256, 1, 1, 0, 1, 0, 3, 0, 0, false, 0⟩,
   ⟨0x3032, 0x3032, 0, 0, 13, 24, 8, 1, 0, 1, 0, 3, 0, 0, false, 0⟩,
   ⟨0x3040, 0x3040, 0, 0, 4, 4, 4, 1, 1, 1, 1, 1, 0, 4294967295, false, 0⟩,
   ⟨0x3041, 0x3041, 0, 0, 13, 32, 8, 1, 1, 0, 1, 1, 0, 0, false, 0⟩,
   ⟨0x3042, 0x3042, 0, 0, 5, 8, 8, 5, 0, 0, 0, 3, 0, 18446744073709551615, false, 0⟩,
   ⟨0x3043, 0x3043, 0, 0, 5, 8, 8, 5, 0, 0, 0, 3, 0, 18446744073709551615, false, 0⟩,
   ⟨0x3044, 0x3044, 0, 0, 5, 8, 8, 5, 0, 1, 0, 3, 0, 18446744073709551615, false, 0⟩,
   ⟨0x3050, 0x3050, 0, 0, 4, 4, 4, 1, 1, 1, 1, 1, 0, 4294967295, false, 0⟩,
   ⟨0x3051, 0x3051, 0, 0, 5, 8, 8, 5, 0, 0, 0, 3, 0, 18446744073709551615, false, 0⟩,
   ⟨0x3052, 0x3052, 0, 0, 5, 8, 8, 5, 0, 0, 0, 3, 0, 18446744073709551615, false, 0⟩,
   ⟨0x3053, 0x3053, 0, 0, 5, 8, 8, 5, 0, 0, 0, 3, 0, 18446744073709551615, false, 0⟩]

/-- Rows of the index range 0x3100 (Table 18.11). -/
def objRows31 : List ObjRow :=
  [⟨0x3100, 0x3100, 0, 0, 3, 2, 2, 1, 1, 1, 1, 1, 0, 65535, false, 0⟩,
   ⟨0x3101, 0x3101, 0, 0, 2, 1, 1, 1, 1, 0, 1, 1, 0, 255, false, 0⟩,
   ⟨0x3102, 0x3102, 0, 0, 2, 1, 1, 1, 1, 0, 1, 1, 0, 255, false, 0⟩,
   ⟨0x3103, 0x3103, 0, 0, 1, 1, 1, 3, 1, 0, 1, 3, 0, 1, false, 0⟩,
   ⟨0x3110, 0x3110, 0, 0, 5, 8, 8, 5, 0, 0, 0, 3, 0, 18446744073709551615, false, 0⟩,
   ⟨0x3111, 0x3111, 0, 0, 5, 8, 8, 5, 0, 1, 0, 3, 0, 18446744073709551615, false, 0⟩,
   ⟨0x3112, 0x3112, 0, 0, 5, 8, 8, 5, 0, 1, 0, 3, 0, 18446744073709551615, false, 0⟩,
   ⟨0x3113, 0x3113, 0, 0, 5, 8, 8, 5, 0, 0, 0, 3, 0, 18446744073709551615, false, 0⟩,
   ⟨0x3114, 0x3114, 0, 0, 5, 8, 8, 5, 0, 1, 0, 3, 0, 18446744073709551615, false, 0⟩,
   ⟨0x3115, 0x3115, 0, 0, 5, 8, 8, 5, 0, 0, 0, 3, 0, 18446744073709551615, false, 0⟩]

/-- Rows of the index range 0x3200 (Table 18.11). -/
def objRows32 : List ObjRow :=
  [⟨0x3200, 0x3200, 0, 0, 2, 1, 1, 1, 1, 1, 1, 1, 0, 255, false, 0⟩,
   ⟨0x3201, 0x3201, 0, 0, 3, 2, 2, 1, 1, 1, 1, 1, 0, 65535, false, 0⟩,
   ⟨0x3210, 0x3210, 0, 15, 4, 4, 4, 3, 0, 0, 1, 3, 0, 4294967295, false, 0⟩,
   ⟨0x3211, 0x3211, 0, 0, 13, 384, 4, 3, 0, 0, 0, 3, 0, 0, false, 0⟩,
   ⟨0x3212, 0x3212, 0, 0, 2, 1, 1, 3, 1, 0, 1, 3, 4, 64, false, 0⟩,
   ⟨0x3213, 0x3213, 0, 0, 1, 1, 1, 3, 1, 0, 1, 3, 0, 1, false, 0⟩,
   ⟨0x3220, 0x3220, 1, 1, 2, 1, 1, 3, 0, 0, 0, 3, 0, 255, false, 0⟩,
   ⟨0x3220, 0x3220, 2, 2, 2, 1, 1, 3, 0, 0, 0, 3, 0, 2, false, 0⟩,
   ⟨0x3220, 0x3220, 3, 3, 3, 2, 2, 3, 0, 0, 0, 3, 0, 256, false, 0⟩,
   ⟨0x3220, 0x3220, 4, 4, 5, 8, 8, 3, 0, 0, 0, 3, 0, 18446744073709551615, false, 0⟩,
   ⟨0x3220, 0x3220, 5, 5, 5, 8, 8, 3, 0, 0, 0, 3, 0, 18446744073709551615, false, 0⟩,
   ⟨0x3220, 0x3220, 6, 6, 2, 1, 1, 2, 0, 0, 0, 2, 1, 1, false, 0⟩,
   ⟨0x3220, 0x3220, 7, 7, 2, 1, 1, 1, 0, 0, 0, 1, 0, 255, false, 0⟩,
   ⟨0x3230, 0x3230, 0, 0, 5, 8, 8, 5, 0, 0, 0, 3, 0, 18446744073709551615, false, 0⟩,
   ⟨0x3231, 0x3231, 0, 0, 5, 8, 8, 5, 0, 0, 0, 3, 0, 18446744073709551615, false, 0⟩,
   ⟨0x3232, 0x3232, 0, 0, 5, 8, 8, 5, 0, 0, 0, 3, 0, 18446744073709551615, false, 0⟩,
   ⟨0x3233, 0x3233, 0, 0, 5, 8, 8, 5, 0, 0, 0, 3, 0, 18446744073709551615, false, 0⟩,
   ⟨0x3234, 0x3234, 0, 0, 5, 8, 8, 5, 0, 1, 0, 3, 0, 18446744073709551615, false, 0⟩,
   ⟨0x3235, 0x3235, 0, 0, 5, 8, 8, 5, 0, 1, 0, 3, 0, 18446744073709551615, false, 0⟩,
   ⟨0x3236, 0x3236, 0, 0, 5, 8, 8, 5, 0, 1, 0, 3, 0, 18446744073709551615, false, 0⟩,
   ⟨0x3237, 0x3237, 0, 0, 3, 2, 2, 1, 0, 1, 1, 3, 0, 65535, false, 0⟩,
   ⟨0x3238, 0x3238, 0, 0, 13, 96, 1, 1, 0, 1, 0, 3, 0, 0, false, 0⟩]

/-- Rows of the index range 0x3300 (Table 18.11). -/
def objRows33 : List ObjRow :=
  [⟨0x3300, 0x3300, 0, 0, 2, 1, 1, 1, 1, 0, 1, 1, 0, 255, false, 0⟩,
   ⟨0x3301, 0x3301, 0, 0, 3, 2, 2, 1, 1, 0, 1, 1, 0, 65535, false, 0⟩,
   ⟨0x3302, 0x3302, 0, 0, 2, 1, 1, 1, 1, 0, 1, 1, 0, 255, false, 0⟩,
   ⟨0x3303, 0x3303, 0, 0, 2, 1, 1, 1, 1, 0, 1, 1, 0, 255, false, 0⟩,
   ⟨0x3304, 0x3304, 0, 0, 3, 2, 2, 1, 1, 0, 1, 1, 0, 65535, false, 0⟩,
   ⟨0x3305, 0x3305, 0, 0, 13, 16, 1, 3, 0, 0, 1, 3, 0, 0, false, 1⟩,
   ⟨0x3306, 0x3306, 0, 0, 13, 4, 2, 1, 0, 0, 1, 3, 0, 0, false, 0⟩,
   ⟨0x3310, 0x3310, 0, 0, 5, 8, 8, 5, 0, 0, 0, 3, 0, 18446744073709551615, false, 0⟩,
   ⟨0x3311, 0x3311, 0, 0, 5, 8, 8, 5, 0, 0, 0, 3, 0, 18446744073709551615, false, 0⟩,
   ⟨0x3312, 0x3312, 0, 0, 5, 8, 8, 5, 0, 0, 0, 3, 0, 18446744073709551615, false, 0⟩,
   ⟨0x3313, 0x3313, 0, 0, 5, 8, 8, 5, 0, 0, 0, 3, 0, 18446744073709551615, false, 0⟩,
   ⟨0x3314, 0x3314, 0, 0, 5, 8, 8, 5, 0, 0, 0, 3, 0, 18446744073709551615, false, 0⟩,
   ⟨0x3315, 0x3315, 0, 0, 5, 8, 8, 5, 0, 0, 0, 3, 0, 18446744073709551615, false, 0⟩,
   ⟨0x3316, 0x3316, 0, 0, 5, 8, 8, 5, 0, 0, 0, 3, 0, 18446744073709551615, false, 0⟩,
   ⟨0x3317, 0x3317, 0, 0, 5, 8, 8, 5, 0, 0, 0, 3, 0, 18446744073709551615, false, 0⟩]

/-- Rows of the index range 0x3400 (Table 18.11). -/
def objRows34 : List ObjRow :=
  [⟨0x3400, 0x3400, 0, 0, 2, 1, 1, 1, 1, 1, 1, 1, 0, 255, false, 0⟩,
   ⟨0x3401, 0x3401, 0, 0, 2, 1, 1, 1, 1, 1, 1, 1, 0, 255, false, 0⟩,
   ⟨0x3402, 0x3402, 0, 0, 3, 2, 2, 1, 1, 0, 1, 1, 0, 65535, false, 0⟩,
   ⟨0x3403, 0x3403, 0, 0, 3, 2, 2, 1, 1, 0, 1, 1, 0, 65535, false, 0⟩,
   ⟨0x3404, 0x3404, 0, 0, 3, 2, 2, 1, 1, 0, 1, 1, 0, 65535, false, 0⟩,
   ⟨0x3410, 0x3410, 0, 0, 13, 2056, 8, 1, 0, 0, 0, 3, 0, 0, false, 0⟩,
   ⟨0x3420, 0x3420, 1, 1, 5, 8, 8, 3, 0, 0, 0, 3, 0, 18446744073709551615, false, 0⟩,
   ⟨0x3420, 0x3420, 2, 2, 2, 1, 1, 3, 0, 0, 0, 3, 0, 1, false, 0⟩,
   ⟨0x3420, 0x3420, 3, 3, 4, 4, 4, 1, 0, 0, 0, 1, 0, 4294967295, false, 0⟩,
   ⟨0x3420, 0x3420, 4, 4, 4, 4, 4, 3, 0, 0, 0, 3, 0, 4294967295, false, 0⟩,
   ⟨0x3420, 0x3420, 5, 5, 4, 4, 4, 1, 0, 0, 0, 1, 0, 4294967295, false, 0⟩,
   ⟨0x3420, 0x3420, 6, 6, 2, 1, 1, 3, 0, 0, 0, 3, 1, 255, false, 0⟩,
   ⟨0x3420, 0x3420, 7, 7, 3, 2, 2, 3, 0, 0, 0, 3, 1, 60000, false, 0⟩,
   ⟨0x3430, 0x3430, 1, 1, 3, 2, 2, 3, 1, 0, 0, 3, 0, 256, false, 0⟩,
   ⟨0x3430, 0x3430, 2, 2, 2, 1, 1, 3, 3, 0, 0, 3, 0, 63, false, 0⟩,
   ⟨0x3430, 0x3430, 3, 3, 13, 32, 1, 1, 1, 0, 0, 1, 0, 0, false, 0⟩,
   ⟨0x3440, 0x3440, 0, 0, 5, 8, 8, 5, 0, 0, 0, 3, 0, 18446744073709551615, false, 0⟩,
   ⟨0x3441, 0x3441, 0, 0, 5, 8, 8, 5, 0, 0, 0, 3, 0, 18446744073709551615, false, 0⟩,
   ⟨0x3442, 0x3442, 0, 0, 5, 8, 8, 5, 0, 0, 0, 3, 0, 18446744073709551615, false, 0⟩,
   ⟨0x3443, 0x3443, 0, 0, 5, 8, 8, 5, 0, 0, 0, 3, 0, 18446744073709551615, false, 0⟩,
   ⟨0x3444, 0x3444, 0, 0, 5, 8, 8, 5, 0, 0, 0, 3, 0, 18446744073709551615, false, 0⟩,
   ⟨0x3445, 0x3445, 0, 0, 5, 8, 8, 5, 0, 0, 0, 3, 0, 18446744073709551615, false, 0⟩,
   ⟨0x3446, 0x3446, 0, 0, 5, 8, 8, 5, 0, 0, 0, 3, 0, 18446744073709551615, false, 0⟩,
   ⟨0x3447, 0x3447, 0, 0, 5, 8, 8, 5, 0, 0, 0, 3, 0, 18446744073709551615, false, 0⟩,
   ⟨0x3448, 0x3448, 0, 0, 5, 8, 8, 5, 0, 0, 0, 3, 0, 18446744073709551615, false, 0⟩,
   ⟨0x3449, 0x3449, 0, 0, 5, 8, 8, 5, 0, 0, 0, 3, 0, 18446744073709551615, false, 0⟩,
   ⟨0x344A, 0x344A, 0, 0, 5, 8, 8, 5, 0, 0, 0, 3, 0, 18446744073709551615, false, 0⟩,
   ⟨0x344B, 0x344B, 0, 0, 5, 8, 8, 5, 0, 1, 0, 3, 0, 18446744073709551615, false, 0⟩,
   ⟨0x3480, 0x3480, 0, 0, 3, 2, 2, 1, 1, 1, 1, 1, 0, 65535, false, 0⟩,
   ⟨0x3481, 0x3481, 0, 0, 4, 4, 4, 1, 1, 1, 1, 1, 0, 4294967295, false, 0⟩] ++
  [⟨0x3482, 0x3482, 0, 0, 13, 514, 2, 1, 0, 0, 0, 3, 0, 0, false, 0⟩,
   ⟨0x3483, 0x3483, 0, 0, 5, 8, 8, 5, 0, 0, 0, 3, 0, 18446744073709551615, false, 0⟩,
   ⟨0x3484, 0x3484, 0, 0, 5, 8, 8, 5, 0, 0, 0, 3, 0, 18446744073709551615, false, 0⟩,
   ⟨0x3485, 0x3485, 0, 0, 5, 8, 8, 5, 0, 0, 0, 3, 0, 18446744073709551615, false, 0⟩,
   ⟨0x3486, 0x3486, 0, 0, 5, 8, 8, 5, 0, 0, 0, 3, 0, 18446744073709551615, false, 0⟩,
   ⟨0x3490, 0x3490, 1, 1, 3, 2, 2, 3, 1, 0, 0, 3, 0, 256, false, 0⟩,
   ⟨0x3490, 0x3490, 2, 2, 3, 2, 2, 3, 3, 0, 0, 3, 0, 4095, false, 0⟩,
   ⟨0x3490, 0x3490, 3, 3, 13, 128, 1, 1, 1, 0, 0, 1, 0, 0, false, 0⟩,
   ⟨0x3490, 0x3490, 4, 4, 2, 1, 1, 1, 1, 0, 0, 1, 0, 255, false, 0⟩,
   ⟨0x3490, 0x3490, 5, 5, 4, 4, 4, 1, 1, 0, 0, 1, 0, 4294967295, false, 0⟩]

/-- Rows of the index range 0x3500 (Table 18.11). -/
def objRows35 : List ObjRow :=
  [⟨0x3500, 0x3500, 0, 0, 4, 4, 4, 1, 1, 1, 1, 1, 0, 4294967295, false, 0⟩,
   ⟨0x3501, 0x3501, 0, 0, 3, 2, 2, 1, 1, 0, 1, 1, 0, 65535, false, 0⟩,
   ⟨0x3502, 0x3502, 0, 0, 2, 1, 1, 1, 1, 0, 1, 1, 0, 255, false, 0⟩,
   ⟨0x3503, 0x3503, 0, 0, 2, 1, 1, 1, 1, 0, 1, 1, 0, 255, false, 0⟩,
   ⟨0x3510, 0x3510, 0, 0, 5, 8, 8, 5, 0, 1, 0, 3, 0, 18446744073709551615, false, 0⟩,
   ⟨0x3511, 0x3511, 0, 0, 5, 8, 8, 5, 0, 0, 0, 3, 0, 18446744073709551615, false, 0⟩]

/-- Rows of the index range 0x4000 (Table 18.11). -/
def objRows40 : List ObjRow :=
  [⟨0x4000, 0x4000, 0, 0, 4, 4, 4, 1, 1, 0, 1, 1, 0, 4294967295, false, 0⟩,
   ⟨0x4001, 0x4001, 0, 0, 13, 1028, 4, 1, 0, 0, 0, 3, 0, 0, false, 0⟩,
   ⟨0x4010, 0x4010, 1, 1, 3, 2, 2, 3, 3, 0, 0, 3, 0, 4111, false, 0⟩,
   ⟨0x4010, 0x4010, 2, 2, 5, 8, 8, 3, 3, 0, 0, 3, 0, 18446744073709551615, false, 0⟩,
   ⟨0x4010, 0x4010, 3, 3, 4, 4, 4, 3, 3, 0, 0, 3, 16, 65536, false, 0⟩,
   ⟨0x4010, 0x4010, 4, 4, 5, 8, 8, 3, 3, 0, 0, 3, 0, 18446744073709551615, false, 0⟩,
   ⟨0x4010, 0x4010, 5, 5, 4, 4, 4, 3, 3, 0, 0, 3, 16, 65536, false, 0⟩,
   ⟨0x4010, 0x4010, 6, 6, 4, 4, 4, 3, 3, 0, 0, 3, 0, 4294967295, false, 0⟩,
   ⟨0x4010, 0x4010, 7, 7, 2, 1, 1, 2, 2, 0, 0, 2, 0, 2, false, 0⟩,
   ⟨0x4010, 0x4010, 8, 8, 2, 1, 1, 1, 1, 1, 0, 1, 0, 255, false, 0⟩,
   ⟨0x4010, 0x4010, 9, 9, 5, 8, 8, 1, 1, 0, 0, 1, 0, 18446744073709551615, false, 0⟩,
   ⟨0x4010, 0x4010, 10, 10, 3, 2, 2, 1, 1, 0, 0, 1, 0, 65535, false, 0⟩,
   ⟨0x4010, 0x4010, 11, 11, 4, 4, 4, 1, 1, 0, 0, 3, 0, 4294967295, false, 0⟩,
   ⟨0x4020, 0x4020, 0, 0, 5, 8, 8, 5, 0, 0, 0, 3, 0, 18446744073709551615, false, 0⟩,
   ⟨0x4021, 0x4021, 0, 0, 5, 8, 8, 5, 0, 1, 0, 3, 0, 18446744073709551615, false, 0⟩,
   ⟨0x4022, 0x4022, 0, 0, 5, 8, 8, 5, 0, 1, 0, 3, 0, 18446744073709551615, false, 0⟩,
   ⟨0x4023, 0x4023, 0, 0, 5, 8, 8, 5, 0, 0, 0, 3, 0, 18446744073709551615, false, 0⟩,
   ⟨0x4024, 0x4024, 0, 0, 5, 8, 8, 5, 0, 0, 0, 3, 0, 18446744073709551615, false, 0⟩,
   ⟨0x4025, 0x4025, 0, 0, 5, 8, 8, 5, 0, 0, 0, 3, 0, 18446744073709551615, false, 0⟩,
   ⟨0x40C0, 0x40C0, 0, 0, 2, 1, 1, 1, 1, 1, 1, 1, 0, 255, false, 0⟩,
   ⟨0x40C1, 0x40C1, 0, 0, 2, 1, 1, 1, 1, 1, 1, 1, 0, 255, false, 0⟩,
   ⟨0x40C2, 0x40C2, 0, 0, 2, 1, 1, 1, 1, 1, 1, 1, 0, 255, false, 0⟩,
   ⟨0x40C3, 0x40C3, 0, 0, 2, 1, 1, 1, 0, 1, 1, 1, 0, 255, false, 0⟩,
   ⟨0x40C4, 0x40C4, 0, 0, 3, 2, 2, 3, 0, 0, 0, 3, 64, 1024, false, 0⟩,
   ⟨0x40C5, 0x40C5, 0, 0, 13, 257, 1, 1, 0, 1, 1, 3, 0, 0, false, 0⟩,
   ⟨0x40D0, 0x40D0, 0, 0, 5, 8, 8, 5, 0, 0, 0, 3, 0, 18446744073709551615, false, 0⟩,
   ⟨0x40D1, 0x40D1, 0, 0, 5, 8, 8, 5, 0, 0, 0, 3, 0, 18446744073709551615, false, 0⟩,
   ⟨0x40D2, 0x40D2, 0, 0, 5, 8, 8, 5, 0, 0, 0, 3, 0, 18446744073709551615, false, 0⟩,
   ⟨0x40D3, 0x40D3, 0, 0, 5, 8, 8, 5, 0, 1, 0, 3, 0, 18446744073709551615, false, 0⟩,
   ⟨0x40D4, 0x40D4, 0, 0, 5, 8, 8, 5, 0, 1, 1, 3, 0, 18446744073709551615, false, 0⟩] ++
  [⟨0x40D5, 0x40D5, 0, 0, 5, 8, 8, 5, 0, 0, 0, 3, 0, 18446744073709551615, false, 0⟩,
   ⟨0x40D6, 0x40D6, 0, 0, 5, 8, 8, 5, 0, 1, 0, 3, 0, 18446744073709551615, false, 0⟩]

/-- Rows of the index range 0x4100 (Table 18.11). -/
def objRows41 : List ObjRow :=
  [⟨0x4100, 0x4100, 1, 1, 2, 1, 1, 1, 1, 1, 1, 3, 0, 255, false, 0⟩,
   ⟨0x4100, 0x4100, 2, 2, 4, 4, 4, 1, 1, 1, 1, 3, 0, 4294967295, false, 0⟩,
   ⟨0x4100, 0x4100, 3, 3, 5, 8, 8, 1, 1, 1, 1, 3, 0, 18446744073709551615, false, 0⟩,
   ⟨0x4100, 0x4100, 4, 4, 3, 2, 2, 1, 1, 0, 1, 3, 0, 65535, false, 0⟩,
   ⟨0x4100, 0x4100, 5, 5, 2, 1, 1, 1, 0, 0, 1, 3, 0, 255, false, 0⟩,
   ⟨0x4100, 0x4100, 6, 6, 5, 8, 8, 1, 0, 0, 1, 3, 0, 18446744073709551615, false, 0⟩,
   ⟨0x4101, 0x4101, 0, 0, 13, 16384, 16, 1, 0, 0, 1, 3, 0, 0, false, 0⟩,
   ⟨0x4102, 0x4102, 0, 0, 4, 4, 4, 3, 1, 0, 1, 3, 0, 10000, false, 0⟩,
   ⟨0x4103, 0x4103, 0, 0, 3, 2, 2, 3, 0, 0, 1, 3, 400, 1250, false, 0⟩,
   ⟨0x4104, 0x4104, 0, 0, 4, 4, 4, 3, 0, 0, 1, 3, 0, 10000, false, 0⟩,
   ⟨0x4105, 0x4105, 0, 0, 4, 4, 4, 3, 1, 0, 1, 3, 1000, 1000000000, false, 0⟩,
   ⟨0x4110, 0x4110, 0, 0, 5, 8, 8, 5, 0, 0, 0, 3, 0, 18446744073709551615, false, 0⟩,
   ⟨0x4111, 0x4111, 0, 0, 5, 8, 8, 5, 0, 0, 0, 3, 0, 18446744073709551615, false, 0⟩,
   ⟨0x4112, 0x4112, 0, 0, 5, 8, 8, 5, 0, 0, 0, 3, 0, 18446744073709551615, false, 0⟩,
   ⟨0x4113, 0x4113, 0, 0, 5, 8, 8, 5, 0, 0, 1, 3, 0, 18446744073709551615, false, 0⟩,
   ⟨0x4114, 0x4114, 0, 0, 5, 8, 8, 1, 1, 1, 1, 3, 0, 18446744073709551615, false, 0⟩]

/-- Rows of the index range 0x4200 (Table 18.11). -/
def objRows42 : List ObjRow :=
  [⟨0x4200, 0x4200, 0, 15, 5, 8, 8, 1, 1, 1, 1, 3, 0, 18446744073709551615, false, 0⟩,
   ⟨0x4201, 0x4201, 0, 0, 13, 8224, 2, 3, 0, 0, 1, 3, 0, 0, false, 0⟩,
   ⟨0x4202, 0x4202, 0, 0, 13, 32896, 8, 1, 0, 0, 0, 3, 0, 0, false, 0⟩,
   ⟨0x4203, 0x4203, 1, 1, 3, 2, 2, 3, 1, 0, 0, 3, 0, 256, false, 0⟩,
   ⟨0x4203, 0x4203, 2, 2, 13, 128, 8, 1, 1, 0, 0, 1, 0, 0, false, 0⟩,
   ⟨0x4204, 0x4204, 0, 0, 5, 8, 8, 5, 0, 0, 0, 3, 0, 18446744073709551615, false, 0⟩]

/-- Rows of the index range 0x5000 (Table 18.11). -/
def objRows50 : List ObjRow :=
  [⟨0x5000, 0x5000, 0, 0, 3, 2, 2, 1, 1, 1, 1, 3, 0, 65535, false, 0⟩,
   ⟨0x5001, 0x5001, 0, 0, 5, 8, 8, 5, 0, 1, 0, 3, 0, 18446744073709551615, false, 0⟩,
   ⟨0x5002, 0x5002, 0, 0, 5, 8, 8, 5, 0, 0, 0, 3, 0, 18446744073709551615, false, 0⟩]

/-- Rows of the index range 0x5100 (Table 18.11). -/
def objRows51 : List ObjRow :=
  [⟨0x5100, 0x51FF, 1, 1, 2, 1, 1, 1, 1, 1, 1, 3, 0, 255, false, 0⟩,
   ⟨0x5100, 0x51FF, 2, 2, 4, 4, 4, 1, 1, 0, 0, 3, 0, 4294967295, false, 0⟩,
   ⟨0x5100, 0x51FF, 3, 3, 3, 2, 2, 1, 1, 0, 1, 3, 0, 65535, false, 0⟩,
   ⟨0x5100, 0x51FF, 4, 4, 3, 2, 2, 1, 1, 0, 0, 3, 0, 65535, false, 0⟩]

/-- Rows of the index range 0x6000 (Table 18.11). -/
def objRows60 : List ObjRow :=
  [⟨0x6000, 0x6000, 0, 0, 2, 1, 1, 1, 1, 1, 1, 1, 0, 255, false, 0⟩,
   ⟨0x6001, 0x6001, 0, 0, 5, 8, 8, 1, 1, 1, 1, 1, 0, 18446744073709551615, false, 0⟩,
   ⟨0x6002, 0x6002, 0, 0, 2, 1, 1, 3, 1, 1, 1, 3, 0, 2, true, 2⟩,
   ⟨0x6003, 0x6003, 0, 0, 13, 32, 8, 1, 1, 1, 1, 1, 0, 0, false, 0⟩,
   ⟨0x6010, 0x6010, 0, 0, 13, 32, 1, 1, 1, 1, 1, 3, 0, 0, false, 0⟩,
   ⟨0x6011, 0x6011, 0, 0, 3, 2, 2, 2, 0, 0, 0, 2, 0, 65535, false, 0⟩,
   ⟨0x6012, 0x6012, 0, 0, 13, 256, 1, 1, 0, 1, 1, 3, 0, 0, false, 0⟩,
   ⟨0x6013, 0x6013, 0, 0, 4, 4, 4, 1, 0, 1, 0, 3, 0, 4294967295, false, 0⟩,
   ⟨0x6020, 0x6020, 0, 0, 13, 16, 2, 1, 0, 1, 1, 3, 0, 0, false, 0⟩,
   ⟨0x6021, 0x6021, 0, 0, 4, 4, 4, 3, 0, 0, 0, 3, 3600, 604800, false, 0⟩,
   ⟨0x6030, 0x6030, 0, 0, 5, 8, 8, 5, 0, 1, 0, 3, 0, 18446744073709551615, false, 0⟩,
   ⟨0x6031, 0x6031, 0, 0, 5, 8, 8, 5, 0, 1, 0, 3, 0, 18446744073709551615, false, 0⟩,
   ⟨0x6032, 0x6032, 0, 0, 5, 8, 8, 5, 0, 1, 0, 3, 0, 18446744073709551615, false, 0⟩,
   ⟨0x6033, 0x6033, 0, 0, 13, 32, 8, 1, 0, 1, 0, 3, 0, 0, false, 0⟩,
   ⟨0x6034, 0x6034, 0, 0, 13, 256, 1, 1, 0, 1, 0, 3, 0, 0, false, 0⟩,
   ⟨0x6035, 0x6035, 0, 0, 5, 8, 8, 5, 0, 0, 0, 3, 0, 18446744073709551615, false, 0⟩,
   ⟨0x6040, 0x6040, 0, 0, 13, 4096, 16, 1, 0, 1, 0, 3, 0, 0, false, 0⟩,
   ⟨0x6041, 0x6041, 0, 0, 3, 2, 2, 1, 0, 1, 0, 3, 0, 65535, false, 0⟩,
   ⟨0x6042, 0x6042, 0, 0, 5, 8, 8, 2, 0, 0, 0, 2, 0, 18446744073709551615, false, 0⟩,
   ⟨0x6043, 0x6043, 0, 0, 5, 8, 8, 2, 0, 0, 0, 2, 0, 18446744073709551615, false, 0⟩,
   ⟨0x6044, 0x6044, 0, 0, 13, 65536, 8, 1, 0, 1, 0, 3, 0, 0, true, 0⟩,
   ⟨0x6045, 0x6045, 0, 0, 3, 2, 2, 1, 0, 1, 1, 3, 0, 65535, false, 0⟩,
   ⟨0x6046, 0x6046, 0, 0, 5, 8, 8, 5, 0, 1, 0, 3, 0, 18446744073709551615, false, 0⟩]

/-- Rows of the index range 0x6100 (Table 18.11). -/
def objRows61 : List ObjRow :=
  [⟨0x6100, 0x61FF, 1, 1, 2, 1, 1, 2, 0, 0, 0, 2, 1, 2, false, 0⟩,
   ⟨0x6100, 0x61FF, 2, 2, 2, 1, 1, 3, 0, 0, 0, 3, 0, 4, false, 0⟩,
   ⟨0x6100, 0x61FF, 3, 3, 2, 1, 1, 3, 0, 0, 0, 3, 0, 255, false, 0⟩,
   ⟨0x6100, 0x61FF, 4, 4, 4, 4, 4, 3, 0, 0, 0, 3, 1, 4294967295, false, 0⟩,
   ⟨0x6100, 0x61FF, 5, 5, 2, 1, 1, 3, 0, 0, 0, 3, 0, 1, false, 0⟩,
   ⟨0x6100, 0x61FF, 6, 6, 2, 1, 1, 3, 0, 0, 0, 3, 0, 2, false, 0⟩,
   ⟨0x6100, 0x61FF, 7, 7, 4, 4, 4, 3, 0, 0, 0, 3, 0, 4294967295, false, 0⟩,
   ⟨0x6100, 0x61FF, 8, 8, 4, 4, 4, 3, 0, 0, 0, 3, 0, 4294967295, false, 0⟩,
   ⟨0x6100, 0x61FF, 9, 9, 4, 4, 4, 3, 0, 0, 0, 3, 0, 4294967295, false, 0⟩,
   ⟨0x6100, 0x61FF, 10, 10, 2, 1, 1, 3, 0, 0, 0, 3, 0, 100, false, 0⟩,
   ⟨0x6100, 0x61FF, 11, 11, 1, 1, 1, 3, 0, 0, 0, 3, 0, 1, false, 0⟩,
   ⟨0x6100, 0x61FF, 12, 12, 2, 1, 1, 1, 0, 1, 0, 3, 0, 255, false, 0⟩,
   ⟨0x6100, 0x61FF, 13, 13, 5, 8, 8, 1, 0, 1, 0, 3, 0, 18446744073709551615, false, 0⟩,
   ⟨0x6100, 0x61FF, 14, 14, 5, 8, 8, 1, 0, 1, 0, 3, 0, 18446744073709551615, false, 0⟩,
   ⟨0x6100, 0x61FF, 15, 15, 13, 288, 4, 1, 0, 1, 0, 3, 0, 0, false, 0⟩,
   ⟨0x6100, 0x61FF, 16, 16, 5, 8, 8, 1, 0, 0, 0, 3, 0, 18446744073709551615, false, 0⟩]

/-- Rows of the index range 0x7000 (Table 18.11). -/
def objRows70 : List ObjRow :=
  [⟨0x7000, 0x7000, 0, 0, 2, 1, 1, 1, 1, 1, 1, 1, 0, 255, false, 0⟩,
   ⟨0x7001, 0x7001, 0, 0, 3, 2, 2, 3, 1, 1, 3, 3, 0, 4095, true, 0⟩,
   ⟨0x7002, 0x7002, 0, 0, 1, 1, 1, 3, 1, 1, 3, 3, 0, 1, true, 0⟩,
   ⟨0x7003, 0x7003, 0, 0, 13, 16384, 4, 3, 0, 1, 3, 3, 0, 0, false, 0⟩,
   ⟨0x7004, 0x7004, 0, 0, 2, 1, 1, 1, 1, 0, 1, 1, 0, 255, false, 0⟩,
   ⟨0x7010, 0x7010, 1, 1, 1, 1, 1, 3, 1, 1, 3, 3, 0, 1, false, 0⟩,
   ⟨0x7010, 0x7010, 2, 2, 2, 1, 1, 3, 0, 1, 3, 3, 0, 255, false, 0⟩,
   ⟨0x7010, 0x7010, 3, 3, 2, 1, 1, 3, 0, 1, 3, 3, 0, 255, false, 0⟩,
   ⟨0x7010, 0x7010, 4, 4, 2, 1, 1, 1, 1, 1, 1, 3, 0, 255, false, 0⟩,
   ⟨0x7010, 0x7010, 5, 5, 2, 1, 1, 1, 1, 1, 1, 3, 0, 255, false, 0⟩,
   ⟨0x7010, 0x7010, 6, 6, 8, 4, 4, 1, 0, 1, 1, 3, 0, 4294967295, false, 0⟩,
   ⟨0x7010, 0x7010, 7, 7, 5, 8, 8, 2, 0, 0, 2, 2, 0, 18446744073709551615, false, 0⟩,
   ⟨0x7010, 0x7010, 8, 8, 4, 4, 4, 3, 0, 0, 3, 3, 100, 1000000, false, 0⟩,
   ⟨0x7010, 0x7010, 9, 9, 3, 2, 2, 1, 1, 1, 1, 3, 0, 65535, false, 0⟩,
   ⟨0x7020, 0x7020, 0, 0, 5, 8, 8, 5, 0, 1, 1, 3, 0, 18446744073709551615, false, 0⟩,
   ⟨0x7021, 0x7021, 0, 0, 5, 8, 8, 5, 0, 0, 1, 3, 0, 18446744073709551615, false, 0⟩,
   ⟨0x7022, 0x7022, 0, 0, 5, 8, 8, 5, 0, 1, 1, 3, 0, 18446744073709551615, false, 0⟩,
   ⟨0x7023, 0x7023, 0, 0, 5, 8, 8, 5, 0, 1, 1, 3, 0, 18446744073709551615, false, 0⟩]

/-- Rows of the index range 0x7100 (Table 18.11). -/
def objRows71 : List ObjRow :=
  [⟨0x7100, 0x7113, 1, 1, 1, 1, 1, 3, 0, 1, 3, 3, 0, 1, false, 0⟩,
   ⟨0x7100, 0x7113, 2, 2, 2, 1, 1, 1, 1, 1, 1, 3, 0, 255, false, 0⟩,
   ⟨0x7100, 0x7113, 3, 3, 4, 4, 4, 1, 0, 1, 1, 3, 0, 4294967295, false, 0⟩,
   ⟨0x7100, 0x7113, 4, 4, 1, 1, 1, 3, 0, 0, 3, 3, 0, 1, false, 0⟩,
   ⟨0x7100, 0x7113, 5, 5, 2, 1, 1, 3, 0, 0, 3, 3, 0, 15, false, 0⟩,
   ⟨0x7100, 0x7113, 6, 6, 2, 1, 1, 3, 0, 0, 3, 3, 0, 15, false, 0⟩,
   ⟨0x7100, 0x7113, 7, 7, 10, 4, 4, 1, 0, 1, 1, 3, 0, 4294967295, false, 0⟩,
   ⟨0x7100, 0x7113, 8, 8, 13, 16, 2, 1, 0, 1, 1, 3, 0, 0, false, 0⟩,
   ⟨0x7100, 0x7113, 9, 9, 5, 8, 8, 5, 0, 1, 1, 3, 0, 18446744073709551615, false, 0⟩,
   ⟨0x7100, 0x7113, 10, 10, 5, 8, 8, 5, 0, 1, 1, 3, 0, 18446744073709551615, false, 0⟩,
   ⟨0x7100, 0x7113, 11, 11, 5, 8, 8, 5, 0, 1, 1, 3, 0, 18446744073709551615, false, 0⟩,
   ⟨0x7100, 0x7113, 12, 12, 4, 4, 4, 1, 0, 1, 1, 3, 0, 4294967295, false, 0⟩,
   ⟨0x7100, 0x7113, 13, 13, 4, 4, 4, 1, 0, 1, 1, 3, 0, 4294967295, false, 0⟩,
   ⟨0x7100, 0x7113, 14, 14, 5, 8, 8, 5, 0, 0, 1, 3, 0, 18446744073709551615, false, 0⟩,
   ⟨0x7100, 0x7113, 15, 15, 5, 8, 8, 5, 0, 0, 1, 3, 0, 18446744073709551615, false, 0⟩,
   ⟨0x7100, 0x7113, 16, 16, 4, 4, 4, 1, 0, 0, 1, 3, 0, 4294967295, false, 0⟩,
   ⟨0x7100, 0x7113, 17, 17, 5, 8, 8, 5, 0, 0, 1, 3, 0, 18446744073709551615, false, 0⟩]

/-- Rows of the index range 0x7400 (Table 18.11). -/
def objRows74 : List ObjRow :=
  [⟨0x7400, 0x7400, 0, 0, 2, 1, 1, 1, 1, 0, 1, 1, 0, 255, false, 0⟩,
   ⟨0x7401, 0x7401, 0, 0, 4, 4, 4, 3, 1, 0, 3, 3, 1, 1000, false, 0⟩,
   ⟨0x7402, 0x7402, 0, 0, 4, 4, 4, 3, 1, 0, 3, 3, 1, 4294967, false, 0⟩,
   ⟨0x7403, 0x7403, 0, 0, 3, 2, 2, 3, 1, 0, 3, 3, 16, 1024, false, 0⟩,
   ⟨0x7404, 0x7404, 0, 0, 2, 1, 1, 1, 0, 1, 1, 3, 0, 255, false, 0⟩,
   ⟨0x7410, 0x7410, 0, 0, 5, 8, 8, 5, 0, 0, 1, 3, 0, 18446744073709551615, false, 0⟩,
   ⟨0x7411, 0x7411, 0, 0, 5, 8, 8, 5, 0, 1, 1, 3, 0, 18446744073709551615, false, 0⟩,
   ⟨0x7412, 0x7412, 0, 0, 5, 8, 8, 5, 0, 0, 1, 3, 0, 18446744073709551615, false, 0⟩,
   ⟨0x7413, 0x7413, 0, 0, 5, 8, 8, 5, 0, 1, 1, 3, 0, 18446744073709551615, false, 0⟩,
   ⟨0x7414, 0x7414, 0, 0, 5, 8, 8, 5, 0, 0, 1, 3, 0, 18446744073709551615, false, 0⟩,
   ⟨0x7415, 0x7415, 0, 0, 5, 8, 8, 5, 0, 0, 1, 3, 0, 18446744073709551615, false, 0⟩,
   ⟨0x7416, 0x7416, 0, 0, 5, 8, 8, 5, 0, 0, 1, 3, 0, 18446744073709551615, false, 0⟩,
   ⟨0x7417, 0x7417, 0, 0, 5, 8, 8, 5, 0, 0, 1, 3, 0, 18446744073709551615, false, 0⟩]

/-- Rows of the index range 0x8000 (Table 18.11). -/
def objRows80 : List ObjRow :=
  [⟨0x8000, 0x8000, 0, 0, 2, 1, 1, 1, 1, 1, 1, 3, 0, 255, false, 0⟩,
   ⟨0x8001, 0x8001, 0, 0, 3, 2, 2, 1, 0, 1, 1, 3, 0, 65535, false, 0⟩,
   ⟨0x8010, 0x8010, 1, 1, 3, 2, 2, 3, 3, 0, 0, 3, 0, 256, false, 0⟩,
   ⟨0x8010, 0x8010, 2, 2, 2, 1, 1, 1, 1, 0, 0, 1, 0, 255, false, 0⟩,
   ⟨0x8010, 0x8010, 3, 3, 4, 4, 4, 1, 1, 0, 0, 1, 0, 4294967295, false, 0⟩,
   ⟨0x8010, 0x8010, 4, 4, 13, 1024, 1, 1, 1, 0, 0, 1, 0, 0, false, 0⟩,
   ⟨0x8010, 0x8010, 5, 5, 2, 1, 1, 2, 2, 0, 0, 2, 1, 16, false, 0⟩,
   ⟨0x8020, 0x8020, 0, 0, 5, 8, 8, 5, 0, 0, 0, 3, 0, 18446744073709551615, false, 0⟩,
   ⟨0x8021, 0x8021, 0, 0, 5, 8, 8, 5, 0, 1, 0, 3, 0, 18446744073709551615, false, 0⟩,
   ⟨0x8022, 0x8022, 0, 0, 5, 8, 8, 5, 0, 0, 0, 3, 0, 18446744073709551615, false, 0⟩,
   ⟨0x8023, 0x8023, 0, 0, 13, 33, 1, 1, 0, 0, 0, 3, 0, 0, false, 0⟩]

/-- Rows of the index range 0x8100 (Table 18.11). -/
def objRows81 : List ObjRow :=
  [⟨0x8100, 0x8100, 0, 0, 2, 1, 1, 3, 1, 0, 1, 3, 2, 15, false, 0⟩,
   ⟨0x8101, 0x8101, 0, 0, 5, 8, 8, 1, 1, 1, 1, 3, 0, 18446744073709551615, false, 0⟩,
   ⟨0x8102, 0x8102, 0, 0, 2, 1, 1, 3, 0, 0, 1, 3, 1, 255, false, 0⟩,
   ⟨0x8103, 0x8103, 0, 0, 5, 8, 8, 5, 0, 1, 0, 3, 0, 18446744073709551615, false, 0⟩,
   ⟨0x8104, 0x8104, 0, 0, 5, 8, 8, 5, 0, 1, 0, 3, 0, 18446744073709551615, false, 0⟩,
   ⟨0x8105, 0x8105, 0, 0, 5, 8, 8, 1, 0, 0, 0, 3, 0, 18446744073709551615, false, 0⟩]

/-- Rows of the index range 0x9000 (Table 18.11). -/
def objRows90 : List ObjRow :=
  [⟨0x9000, 0x9000, 0, 0, 2, 1, 1, 3, 0, 1, 1, 3, 5, 50, false, 0⟩,
   ⟨0x9001, 0x9001, 0, 0, 4, 4, 4, 1, 0, 0, 1, 3, 0, 4294967295, false, 0⟩,
   ⟨0x9010, 0x9010, 1, 1, 5, 8, 8, 3, 0, 0, 0, 3, 0, 18446744073709551615, false, 0⟩,
   ⟨0x9010, 0x9010, 2, 2, 2, 1, 1, 3, 0, 0, 0, 3, 0, 1, false, 0⟩,
   ⟨0x9010, 0x9010, 3, 3, 4, 4, 4, 3, 0, 0, 0, 3, 0, 4294967295, false, 0⟩,
   ⟨0x9010, 0x9010, 4, 4, 4, 4, 4, 3, 0, 0, 0, 3, 4096, 1073741824, false, 0⟩,
   ⟨0x9020, 0x9020, 1, 1, 4, 4, 4, 3, 0, 0, 1, 3, 0, 1000000, false, 0⟩,
   ⟨0x9020, 0x9020, 2, 2, 2, 1, 1, 3, 0, 0, 1, 3, 0, 15, false, 0⟩,
   ⟨0x9020, 0x9020, 3, 3, 2, 1, 1, 3, 0, 0, 1, 3, 0, 3, false, 0⟩,
   ⟨0x9030, 0x9030, 0, 0, 2, 1, 1, 2, 0, 0, 2, 2, 1, 1, false, 0⟩,
   ⟨0x9031, 0x9031, 0, 0, 13, 16384, 8, 1, 0, 0, 1, 1, 0, 0, false, 0⟩,
   ⟨0x9032, 0x9032, 0, 0, 13, 6144, 8, 1, 0, 0, 1, 1, 0, 0, false, 0⟩,
   ⟨0x9033, 0x9033, 0, 0, 13, 16384, 8, 1, 0, 1, 1, 1, 0, 0, false, 0⟩,
   ⟨0x9034, 0x9034, 0, 0, 13, 1280, 8, 1, 0, 1, 1, 1, 0, 0, false, 0⟩,
   ⟨0x9035, 0x9035, 0, 0, 5, 8, 8, 1, 0, 1, 1, 1, 0, 18446744073709551615, false, 0⟩,
   ⟨0x9040, 0x9040, 0, 0, 13, 4112, 8, 3, 0, 0, 0, 3, 0, 0, false, 0⟩,
   ⟨0x9041, 0x9041, 0, 0, 13, 514, 2, 1, 0, 0, 0, 3, 0, 0, false, 0⟩,
   ⟨0x9050, 0x9050, 0, 0, 5, 8, 8, 2, 0, 0, 0, 2, 0, 18446744073709551615, false, 0⟩,
   ⟨0x9051, 0x9051, 0, 0, 2, 1, 1, 1, 0, 0, 0, 3, 0, 255, false, 0⟩,
   ⟨0x9060, 0x9060, 0, 0, 13, 32, 8, 1, 0, 0, 1, 3, 0, 0, false, 0⟩,
   ⟨0x9061, 0x9061, 0, 0, 13, 48, 8, 1, 0, 0, 0, 3, 0, 0, false, 0⟩,
   ⟨0x9062, 0x9062, 0, 0, 5, 8, 8, 5, 0, 0, 0, 3, 0, 18446744073709551615, false, 0⟩]

/-- Rows of the index range 0xA000 (Table 18.11). -/
def objRowsA0 : List ObjRow :=
  [⟨0xA000, 0xA000, 0, 0, 4, 4, 4, 1, 1, 1, 1, 1, 0, 4294967295, true, 0⟩,
   ⟨0xA001, 0xA001, 0, 0, 2, 1, 1, 1, 0, 1, 1, 3, 0, 255, true, 0⟩,
   ⟨0xA002, 0xA002, 0, 0, 2, 1, 1, 1, 0, 1, 1, 3, 0, 255, true, 0⟩,
   ⟨0xA003, 0xA003, 0, 0, 5, 8, 8, 1, 0, 1, 1, 3, 0, 18446744073709551615, true, 0⟩,
   ⟨0xA004, 0xA004, 0, 0, 2, 1, 1, 2, 0, 2, 0, 2, 1, 1, false, 0⟩,
   ⟨0xA005, 0xA005, 0, 0, 13, 24, 8, 1, 0, 1, 1, 3, 0, 0, true, 0⟩,
   ⟨0xA010, 0xA010, 0, 0, 5, 8, 8, 1, 1, 1, 1, 3, 0, 18446744073709551615, true, 0⟩,
   ⟨0xA011, 0xA011, 0, 0, 4, 4, 4, 1, 0, 1, 1, 3, 0, 4294967295, true, 0⟩,
   ⟨0xA012, 0xA012, 0, 0, 4, 4, 4, 1, 0, 1, 1, 3, 0, 4294967295, true, 0⟩,
   ⟨0xA013, 0xA013, 0, 0, 13, 512, 4, 1, 0, 1, 1, 3, 0, 0, true, 0⟩,
   ⟨0xA014, 0xA014, 0, 7, 2, 1, 1, 1, 0, 1, 1, 3, 0, 255, true, 0⟩,
   ⟨0xA015, 0xA015, 0, 7, 3, 2, 2, 1, 0, 1, 1, 1, 0, 65535, true, 0⟩,
   ⟨0xA016, 0xA016, 0, 7, 3, 2, 2, 1, 0, 1, 1, 3, 0, 65535, true, 0⟩,
   ⟨0xA017, 0xA017, 0, 0, 5, 8, 8, 1, 0, 1, 1, 3, 0, 18446744073709551615, true, 0⟩,
   ⟨0xA018, 0xA018, 0, 0, 5, 8, 8, 1, 0, 1, 1, 3, 0, 18446744073709551615, true, 0⟩,
   ⟨0xA020, 0xA020, 0, 0, 13, 5600, 8, 1, 0, 1, 1, 3, 0, 0, true, 0⟩,
   ⟨0xA030, 0xA030, 0, 0, 5, 8, 8, 1, 0, 1, 1, 3, 0, 18446744073709551615, true, 0⟩]

/-- Rows of the index range 0xB000 (Table 18.11). -/
def objRowsB0 : List ObjRow :=
  [⟨0xB000, 0xB000, 0, 0, 4, 4, 4, 1, 0, 3, 1, 3, 0, 4294967295, false, 0⟩,
   ⟨0xB001, 0xB001, 0, 0, 5, 8, 8, 1, 0, 3, 1, 3, 0, 18446744073709551615, false, 0⟩,
   ⟨0xB002, 0xB002, 0, 0, 2, 1, 1, 1, 1, 3, 1, 3, 0, 255, false, 0⟩,
   ⟨0xB003, 0xB003, 1, 1, 5, 8, 8, 0, 0, 2, 0, 2, 0, 18446744073709551615, false, 0⟩,
   ⟨0xB003, 0xB003, 2, 2, 13, 16, 8, 1, 1, 1, 1, 3, 0, 0, true, 0⟩,
   ⟨0xB004, 0xB004, 0, 0, 7, 2, 2, 1, 1, 3, 1, 3, 0, 65535, false, 0⟩,
   ⟨0xB005, 0xB005, 0, 0, 3, 2, 2, 1, 1, 3, 1, 3, 0, 65535, false, 0⟩,
   ⟨0xB006, 0xB006, 0, 0, 3, 2, 2, 1, 0, 3, 1, 3, 0, 65535, false, 0⟩]

/-- The rows of the range that holds index `i`. -/
def objRowsOf (i : Nat) : List ObjRow :=
  match i / 256 with
  | 0x10 => objRows10
  | 0x11 => objRows11
  | 0x12 => objRows12
  | 0x20 => objRows20
  | 0x21 => objRows21
  | 0x22 => objRows22
  | 0x30 => objRows30
  | 0x31 => objRows31
  | 0x32 => objRows32
  | 0x33 => objRows33
  | 0x34 => objRows34
  | 0x35 => objRows35
  | 0x40 => objRows40
  | 0x41 => objRows41
  | 0x42 => objRows42
  | 0x50 => objRows50
  | 0x51 => objRows51
  | 0x60 => objRows60
  | 0x61 => objRows61
  | 0x70 => objRows70
  | 0x71 => objRows71
  | 0x74 => objRows74
  | 0x80 => objRows80
  | 0x81 => objRows81
  | 0x90 => objRows90
  | 0xA0 => objRowsA0
  | 0xB0 => objRowsB0
  | _ => []

/-- The row of object `i`:`s`, when some chapter defines it (R842). -/
def objRow (i s : Nat) : Option ObjRow :=
  (objRowsOf i).find? fun r => r.il ≤ i && i ≤ r.ih && r.sl ≤ s && s ≤ r.sh

/-- Defaults that are not zero, part 0 of the object tables. Those that R2 lets differ by part (VARIANT, MEMORY_CAPACITY, SILICON_REVISION,
SERIAL_NUMBER, FLASH_SIZE) are one part's, the model's choice (assumption 98). -/
def objDefaults0 : List (Nat × Nat) :=
  [(4503599627370496, 77), (4503599627370497, 111), (4503599627370498, 108), (4503599627370499, 101),
   (4503599627370500, 108), (4503599627370501, 116), (4503599627370502, 97), (4504699138998272, 88),
   (4504699138998273, 78), (4504699138998274, 45), (4504699138998275, 56), (4504699138998276, 56),
   (4504699138998277, 48), (4504699138998278, 47), (4504699138998279, 51), (4504699138998280, 56),
   (4504699138998281, 52), (4505798650626048, 1), (4506898162253824, 412316860416), (4507997673881600, 256),
   (4509097185509376, 7948), (4510196697137152, 2176), (4511296208764928, 2177), (4512395720392704, 1),
   (4515694255276032, 65536), (4535485464576000, 2000), (4543182045970432, 33554432), (4785074604081152, 4096),
   (4786174115708928, 257), (4802671085092864, 1), (4802675380060160, 10000), (5068748604047360, 3),
   (5069848115675136, 1), (9026990464040960, 400), (9026994759008256, 400), (9026999053975552, 400),
   (9027003348942848, 400), (9027007643910144, 400), (9027011938877440, 400), (9027016233844736, 400)]

/-- Defaults that are not zero, part 1 of the object tables. -/
def objDefaults1 : List (Nat × Nat) :=
  [(9027020528812032, 400), (9028089975668736, 1250), (9028094270636032, 1250), (9028098565603328, 1250),
   (9028102860570624, 1250), (9028107155537920, 1250), (9028111450505216, 1250), (9028115745472512, 1250),
   (9028120040439808, 1250), (9029189487296512, 950), (9029193782263808, 950), (9029198077231104, 950),
   (9029202372198400, 950), (9029206667165696, 950), (9029210962132992, 950), (9029215257100288, 950),
   (9029219552067584, 950), (9032488022179840, 150), (9033587533807616, 1500), (9288674231451648, 25),
   (9289773743079424, 850), (9291972766334976, 35), (9296370812846080, 127), (9296375107813376, 127),
   (9298574131068928, 1), (9298582721003520, 5000), (9323858603540480, 1), (9572348231417856, 95),
   (9573447743045632, 105), (9574547254673408, 115), (13510798882111488, 256), (13511898393739264, 32),
   (13512997905367040, 65536), (13514097416994816, 16), (13581167626289152, 65536), (13598759812333568, 65536),
   (13792273858822144, 4096), (13793373370449920, 8), (13794472882077696, 4), (13795572393705472, 1)]

/-- Defaults that are not zero, part 2 of the object tables. -/
def objDefaults2 : List (Nat × Nat) :=
  [(14073748835532800, 96), (14074848347160576, 128), (14091341021577216, 65535), (14092440533204992, 1),
   (14092440533204993, 2), (14092440533204994, 3), (14092440533204995, 4), (14092440533204996, 5),
   (14092440533204997, 6), (14092440533204998, 7), (14092440533204999, 8), (14092440533205000, 9),
   (14092440533205001, 10), (14092440533205002, 11), (14092440533205003, 12), (14092440533205004, 13),
   (14092440533205005, 14), (14092440533205006, 15), (14092440533205007, 16), (14092440533205008, 17),
   (14092440533205009, 18), (14092440533205010, 19), (14092440533205011, 20), (14092440533205012, 21),
   (14092440533205013, 22), (14092440533205014, 23), (14092440533205015, 24), (14092440533205016, 25),
   (14092440533205017, 26), (14092440533205018, 27), (14092440533205019, 28), (14092440533205020, 29),
   (14092440533205021, 30), (14092440533205022, 31), (14092440533205023, 32), (14092440533205024, 33),
   (14092440533205025, 34), (14092440533205026, 35), (14092440533205027, 36), (14092440533205028, 37)]

/-- Defaults that are not zero, part 3 of the object tables. -/
def objDefaults3 : List (Nat × Nat) :=
  [(14092440533205029, 38), (14092440533205030, 39), (14092440533205031, 40), (14092440533205032, 41),
   (14092440533205033, 42), (14092440533205034, 43), (14092440533205035, 44), (14092440533205036, 45),
   (14092440533205037, 46), (14092440533205038, 47), (14092440533205039, 48), (14092440533205040, 49),
   (14092440533205041, 50), (14092440533205042, 51), (14092440533205043, 52), (14092440533205044, 53),
   (14092440533205045, 54), (14092440533205046, 55), (14092440533205047, 56), (14092440533205048, 57),
   (14092440533205049, 58), (14092440533205050, 59), (14092440533205051, 60), (14092440533205052, 61),
   (14092440533205053, 62), (14092440533205054, 63), (14092440533205055, 64), (14092440533205056, 65),
   (14092440533205057, 66), (14092440533205058, 67), (14092440533205059, 68), (14092440533205060, 69),
   (14092440533205061, 70), (14092440533205062, 71), (14092440533205063, 72), (14092440533205064, 73),
   (14092440533205065, 74), (14092440533205066, 75), (14092440533205067, 76), (14092440533205068, 77)]

/-- Defaults that are not zero, part 4 of the object tables. -/
def objDefaults4 : List (Nat × Nat) :=
  [(14092440533205069, 78), (14092440533205070, 79), (14092440533205071, 80), (14092440533205072, 81),
   (14092440533205073, 82), (14092440533205074, 83), (14092440533205075, 84), (14092440533205076, 85),
   (14092440533205077, 86), (14092440533205078, 87), (14092440533205079, 88), (14092440533205080, 89),
   (14092440533205081, 90), (14092440533205082, 91), (14092440533205083, 92), (14092440533205084, 93),
   (14092440533205085, 94), (14092440533205086, 95), (14092440533205087, 96), (14093540044832768, 16),
   (14094639556460544, 1), (14134221975060480, 4112), (14355223812243456, 16), (14356323323871232, 256),
   (14357422835499008, 16), (14358522347126784, 64), (14359621858754560, 256), (14360721370382336, 255),
   (14360721370382337, 255), (14360721370382338, 255), (14360721370382339, 255), (14360721370382340, 255),
   (14360721370382341, 255), (14360721370382342, 255), (14360721370382343, 255), (14360721370382344, 255),
   (14360721370382345, 255), (14360721370382346, 255), (14360721370382347, 255), (14360721370382348, 255)]

/-- Defaults that are not zero, part 5 of the object tables. -/
def objDefaults5 : List (Nat × Nat) :=
  [(14360721370382349, 255), (14360721370382350, 255), (14360721370382351, 255), (14361820882010112, 256),
   (14361820882010113, 256), (14636698788954112, 52), (14637798300581888, 40), (14638897812209664, 64),
   (14639997323837440, 16384), (14641096835465216, 4096), (14671908930846720, 4), (14671913225814016, 100),
   (14777436277309440, 4096), (14778535788937216, 65536), (14918173765664768, 65536), (14919273277292544, 4095),
   (14920372788920320, 1), (14921472300548096, 32), (18014398509481984, 1048576), (18032003580428288, 16),
   (18032012170362880, 16), (18229902788526080, 1024), (18231002300153856, 2), (18298072509448192, 20),
   (18299172021075968, 950), (18300271532703744, 200), (18301371044331520, 1000000), (27021597764222976, 16),
   (27022697275850752, 412316860416), (27023796787478528, 2), (27057881647939584, 86400), (31525197391593472, 20),
   (31529595438104576, 64), (31542798167572480, 255), (31542802462539776, 255), (31542811052474368, 255),
   (31542823937376256, 1000), (32651097298436096, 64), (32652196810063872, 5), (32653296321691648, 1000)]

/-- Defaults that are not zero, part 6 of the object tables. -/
def objDefaults6 : List (Nat × Nat) :=
  [(32654395833319424, 256), (36046393499975680, 256), (36067279925936160, 1), (36310271995674624, 3),
   (36311371507302400, 18446744073709551615), (36312471018930176, 3), (40532396646334464, 30), (40533496157962240, 1048576),
   (40550001717280768, 65536), (40550006012248064, 262144), (40567589608357888, 15), (45035996273704960, 2097152),
   (49541794924331008, 255)]

/-- Every default of the object tables that is not zero, keys rising. -/
def objDefaults : List (Nat × Nat) :=
  objDefaults0 ++ objDefaults1 ++ objDefaults2 ++ objDefaults3 ++ objDefaults4 ++ objDefaults5 ++ objDefaults6

/-- What a key that the store does not list reads as: the default of the objects of the ranges 0x5100 + t, 0x6100 + n and
0x7100 + L, and 0 for every other key (their defaults stand in `objDefaults`). -/
def objUnlisted (k : Nat) : Nat :=
  match k / 281474976710656, (k / 4294967296) % 256 with
  | 0x61, 4 => 1
  | 0x61, 6 => 2
  | 0x61, 9 => 1
  | 0x61, 10 => 50
  | 0x71, 1 => 1
  | 0x71, 2 => 1
  | 0x71, 6 => 15
  | 0x51, 3 => 1
  | _, _ => 0

end Sys2Proof.Machine

/-! Store keys of the objects by their names in the object tables. -/

namespace Sys2Proof.Machine.O

def NAVE_CORES : Nat := 0x30000000000000
def DIV_STACK_DEPTH : Nat := 0x30010000000000
def DEADLOCK_THRESHOLD : Nat := 0x30020000000000
def LM_AGE_LIMIT : Nat := 0x30030000000000
def CORE_STATUS (e : Nat) : Nat := okey 0x3010 0 e
def DEADLOCK_EVENTS : Nat := 0x30200000000000
def PROGRAM_ABORTS : Nat := 0x30210000000000
def STORE_REPLAYS : Nat := 0x30220000000000
def SRAM_CORRECTED : Nat := 0x30300000000000
def SPARES_USED (e : Nat) : Nat := okey 0x3031 0 e
def SRAM_CLASS_EVENTS (e : Nat) : Nat := okey 0x3032 0 e
def ISA_REVISION : Nat := 0x30400000000000
def OPCODE_MAP (e : Nat) : Nat := okey 0x3041 0 e
def TRAP_EVENTS : Nat := 0x30420000000000
def ILLEGAL_EVENTS : Nat := 0x30430000000000
def ICACHE_PARITY : Nat := 0x30440000000000
def MATRIX_CELLS : Nat := 0x31000000000000
def MATRIX_QUEUE_DEPTH : Nat := 0x31010000000000
def ACC_TILES : Nat := 0x31020000000000
def BLOCK8_PERMIT : Nat := 0x31030000000000
def MMA_ISSUED : Nat := 0x31100000000000
def CELL_ACTIVE_CLOCKS : Nat := 0x31110000000000
def CELL_GATED_CLOCKS : Nat := 0x31120000000000
def MATRIX_ERRORS : Nat := 0x31130000000000
def ACC_CORRECTED : Nat := 0x31140000000000
def STEP_CONFLICTS : Nat := 0x31150000000000
def NUMERICS_REVISION : Nat := 0x35000000000000
def FORMAT_MAP : Nat := 0x35010000000000
def TININESS : Nat := 0x35020000000000
def MX_BLOCK : Nat := 0x35030000000000
def ARITH_CHECK_EVENTS : Nat := 0x35100000000000
def SATURATED_OUTPUTS : Nat := 0x35110000000000
def ORDER_MODEL_REVISION : Nat := 0x30500000000000
def WIDE_FENCES : Nat := 0x30510000000000
def RELEASE_WRITEBACK_LINES : Nat := 0x30520000000000
def ATOMIC_SPACE_ERRORS : Nat := 0x30530000000000
def L2_SLICES : Nat := 0x32000000000000
def CACHE_LINE : Nat := 0x32010000000000
def L2_PARTITION (k : Nat) : Nat := okey 0x3210 k 0
def L2_LFSR_SEED (e : Nat) : Nat := okey 0x3211 0 e
def STREAM_THRESHOLD : Nat := 0x32120000000000
def STREAM_ENABLE : Nat := 0x32130000000000
def MAINT_OP : Nat := 0x32200100000000
def MAINT_SELECT : Nat := 0x32200200000000
def MAINT_OWNER : Nat := 0x32200300000000
def MAINT_BASE : Nat := 0x32200400000000
def MAINT_LENGTH : Nat := 0x32200500000000
def MAINT_GO : Nat := 0x32200600000000
def MAINT_STATUS : Nat := 0x32200700000000
def L2_HITS : Nat := 0x32300000000000
def L2_MISSES : Nat := 0x32310000000000
def OWNER_MISMATCHES : Nat := 0x32320000000000
def STREAM_WRITE_AROUNDS : Nat := 0x32330000000000
def CACHE_CORRECTED : Nat := 0x32340000000000
def L2_POISONED : Nat := 0x32350000000000
def CROSSING_RETRIES : Nat := 0x32360000000000
def CROSSING_MODULES : Nat := 0x32370000000000
def L2_SPARES_USED (e : Nat) : Nat := okey 0x3238 0 e
def LARK_CONTEXTS : Nat := 0x33000000000000
def LARK_INFLIGHT : Nat := 0x33010000000000
def LARK_QUEUE_DEPTH : Nat := 0x33020000000000
def BILXEL_MAX : Nat := 0x33030000000000
def STARLING_GROUPS : Nat := 0x33040000000000
def STARLING_SLOT_MAP (e : Nat) : Nat := okey 0x3305 0 e
def STARLING_FREE (e : Nat) : Nat := okey 0x3306 0 e
def STREAM_BLOCKS : Nat := 0x33100000000000
def STREAM_BYTES_IN : Nat := 0x33110000000000
def STREAM_BYTES_OUT : Nat := 0x33120000000000
def STREAM_CANCELLED : Nat := 0x33130000000000
def STREAM_ERRORS : Nat := 0x33140000000000
def STREAM_FAULT_ABORTS : Nat := 0x33150000000000
def STARLING_FETCH_BYTES : Nat := 0x33160000000000
def STARLING_DELIVERED_BYTES : Nat := 0x33170000000000
def DESC_TABLE_ENTRIES : Nat := 0x34800000000000
def LAYOUT_REVISION : Nat := 0x34810000000000
def DESC_LIVE (e : Nat) : Nat := okey 0x3482 0 e
def DESC_REFUSALS : Nat := 0x34830000000000
def FILL_ELEMENTS : Nat := 0x34840000000000
def DROPPED_ELEMENTS : Nat := 0x34850000000000
def TENSOR_RANGE_ERRORS : Nat := 0x34860000000000
def DESC_VIEW_OWNER : Nat := 0x34900100000000
def DESC_VIEW_HANDLE : Nat := 0x34900200000000
def DESC_VIEW (e : Nat) : Nat := okey 0x3490 3 e
def DESC_VIEW_STATE : Nat := 0x34900400000000
def DESC_VIEW_REFS : Nat := 0x34900500000000
def VA_BITS : Nat := 0x34000000000000
def DPA_BITS : Nat := 0x34010000000000
def UTLB_ENTRIES : Nat := 0x34020000000000
def STLB_ENTRIES : Nat := 0x34030000000000
def ATC_ENTRIES : Nat := 0x34040000000000
def PT_ROOT (e : Nat) : Nat := okey 0x3410 0 e
def FAULT_RING_BASE : Nat := 0x34200100000000
def FAULT_RING_SPACE : Nat := 0x34200200000000
def FAULT_PUT : Nat := 0x34200300000000
def FAULT_GET : Nat := 0x34200400000000
def FAULT_LAST_CLOSED : Nat := 0x34200500000000
def FAULT_RETRY_LIMIT : Nat := 0x34200600000000
def PRI_TIMEOUT : Nat := 0x34200700000000
def WIN_VIEW_OWNER : Nat := 0x34300100000000
def WIN_VIEW_INDEX : Nat := 0x34300200000000
def WIN_VIEW (e : Nat) : Nat := okey 0x3430 3 e
def UTLB_MISSES : Nat := 0x34400000000000
def STLB_MISSES : Nat := 0x34410000000000
def WALK_READS : Nat := 0x34420000000000
def FAULT_RECORDS : Nat := 0x34430000000000
def FAULT_BATCHES : Nat := 0x34440000000000
def RING_FULL_WAITS : Nat := 0x34450000000000
def NO_PROGRESS_FAILS : Nat := 0x34460000000000
def ATS_REQUESTS : Nat := 0x34470000000000
def PRI_PAGE_REQUESTS : Nat := 0x34480000000000
def ATS_INVALIDATIONS : Nat := 0x34490000000000
def TLB_INVALIDATES : Nat := 0x344A0000000000
def TRANSLATION_PARITY : Nat := 0x344B0000000000
def HOSTPORT_STATE : Nat := 0x40C00000000000
def HOST_LINK_RATE : Nat := 0x40C10000000000
def HOST_LINK_WIDTH : Nat := 0x40C20000000000
def HOST_WIDTH_STRAP : Nat := 0x40C30000000000
def HOST_OUTSTANDING_MAX : Nat := 0x40C40000000000
def FUNCTION_STATE (e : Nat) : Nat := okey 0x40C5 0 e
def DOORBELLS : Nat := 0x40D00000000000
def BAR_MISUSE : Nat := 0x40D10000000000
def MSIX_SUPPRESSED : Nat := 0x40D20000000000
def FLR_EVENTS : Nat := 0x40D30000000000
def HOST_LINK_DOWNS : Nat := 0x40D40000000000
def HOST_ACCESS_ERRORS : Nat := 0x40D50000000000
def HOST_POISON_RECEIVED : Nat := 0x40D60000000000
def NODE_POOL : Nat := 0x40000000000000
def NODES_IN_USE (e : Nat) : Nat := okey 0x4001 0 e
def QUEUE_SEL : Nat := 0x40100100000000
def PQ_BASE : Nat := 0x40100200000000
def PQ_SLOTS : Nat := 0x40100300000000
def CQ_BASE : Nat := 0x40100400000000
def CQ_SLOTS : Nat := 0x40100500000000
def QUEUE_TIMEOUT : Nat := 0x40100600000000
def QUEUE_CTRL : Nat := 0x40100700000000
def QUEUE_STATE : Nat := 0x40100800000000
def QUEUE_INDICES : Nat := 0x40100900000000
def QUEUE_HALT_CAUSE : Nat := 0x40100A00000000
def QUEUE_LATE : Nat := 0x40100B00000000
def PACKETS_ACCEPTED : Nat := 0x40200000000000
def QUEUE_HALTS : Nat := 0x40210000000000
def PRIVILEGE_REJECTS : Nat := 0x40220000000000
def NODES_RETIRED : Nat := 0x40230000000000
def TIMER_EXPIRIES : Nat := 0x40240000000000
def LATE_COMPLETIONS : Nat := 0x40250000000000
def HOR_STATE : Nat := 0x41000100000000
def HOR_FRAME : Nat := 0x41000200000000
def HOR_EPOCH : Nat := 0x41000300000000
def HOR_ENTRIES : Nat := 0x41000400000000
def HOR_STAGED : Nat := 0x41000500000000
def HOR_SWITCH_TIME : Nat := 0x41000600000000
def HOR_TABLE (e : Nat) : Nat := okey 0x4101 0 e
def GRACE : Nat := 0x41020000000000
def URGENT_FLOOR : Nat := 0x41030000000000
def URGENT_LEAD : Nat := 0x41040000000000
def SHARE_QUANTUM : Nat := 0x41050000000000
def SLOT_PREEMPTIONS : Nat := 0x41100000000000
def GRACE_FINISHES : Nat := 0x41110000000000
def GUARD_HOLDS : Nat := 0x41120000000000
def URGENT_START_MAX : Nat := 0x41130000000000
def FRAMES : Nat := 0x41140000000000
def CHAPEL (k : Nat) : Nat := okey 0x4200 k 0
def WEIGHTS (e : Nat) : Nat := okey 0x4201 0 e
def DEFICITS (e : Nat) : Nat := okey 0x4202 0 e
def ACCT_VIEW_OWNER : Nat := 0x42030100000000
def ACCT_VIEW (e : Nat) : Nat := okey 0x4203 2 e
def UNPLACEABLE : Nat := 0x42040000000000
def TENANTS_ACTIVE : Nat := 0x50000000000000
def TEARDOWNS : Nat := 0x50010000000000
def HALT_RECORDS_LOST : Nat := 0x50020000000000
def DEVICE_STATUS : Nat := 0x80000000000000
def DEVICE_CAUSE : Nat := 0x80010000000000
def LOG_SEL : Nat := 0x80100100000000
def LOG_COUNT : Nat := 0x80100200000000
def LOG_OVERFLOW : Nat := 0x80100300000000
def LOG_ENTRIES (e : Nat) : Nat := okey 0x8010 4 e
def LOG_POP : Nat := 0x80100500000000
def FOLDED_ERRORS : Nat := 0x80200000000000
def ESCALATIONS : Nat := 0x80210000000000
def VIOLATIONS : Nat := 0x80220000000000
def KEY_SLOTS_LOADED (e : Nat) : Nat := okey 0x8023 0 e
def TANDEM_DELAY : Nat := 0x81000000000000
def TANDEM_SERVICE : Nat := 0x81010000000000
def TANDEM_MISMATCH_LIMIT : Nat := 0x81020000000000
def TANDEM_MISMATCHES : Nat := 0x81030000000000
def COMPARATOR_FAULTS : Nat := 0x81040000000000
def SELF_TESTS : Nat := 0x81050000000000
def HBM_STACK_HEIGHT : Nat := 0x60000000000000
def HBM_CAPACITY : Nat := 0x60010000000000
def MEM_PIN_RATE : Nat := 0x60020000000000
def DIE_DPA_MAP (e : Nat) : Nat := okey 0x6003 0 e
def MEM_GROUP_STATE (e : Nat) : Nat := okey 0x6010 0 e
def MEM_GROUP_CTRL : Nat := 0x60110000000000
def CHANNEL_STATE (e : Nat) : Nat := okey 0x6012 0 e
def TRAIN_TIME : Nat := 0x60130000000000
def STACK_TEMP (e : Nat) : Nat := okey 0x6020 0 e
def PATROL_PERIOD : Nat := 0x60210000000000
def HBM_CORRECTED : Nat := 0x60300000000000
def HBM_UNCORRECTED : Nat := 0x60310000000000
def HBM_ONDIE_CORRECTED : Nat := 0x60320000000000
def CLASS_COUNTS (e : Nat) : Nat := okey 0x6033 0 e
def COLUMN_ERASURES (e : Nat) : Nat := okey 0x6034 0 e
def CA_PARITY_RETRIES : Nat := 0x60350000000000
def RETIRE_PENDING (e : Nat) : Nat := okey 0x6040 0 e
def RETIRE_PENDING_COUNT : Nat := 0x60410000000000
def RETIRE_ACK : Nat := 0x60420000000000
def RETIRE_ADD : Nat := 0x60430000000000
def RETIRED_LIST (e : Nat) : Nat := okey 0x6044 0 e
def RETIRED_COUNT : Nat := 0x60450000000000
def RETIRE_REQUESTS_LOST : Nat := 0x60460000000000
def FABRIC_LINKS : Nat := 0x70000000000000
def CHIP_ID : Nat := 0x70010000000000
def CHIP_ID_VALID : Nat := 0x70020000000000
def ROUTE_TABLE (e : Nat) : Nat := okey 0x7003 0 e
def HOP_LIMIT : Nat := 0x70040000000000
def TIME_ROOT : Nat := 0x70100100000000
def TIME_PARENT : Nat := 0x70100200000000
def TIME_PARENT_ALT : Nat := 0x70100300000000
def TIME_STATE : Nat := 0x70100400000000
def TIME_DEPTH : Nat := 0x70100500000000
def TIME_OFFSET : Nat := 0x70100600000000
def TIME_SET : Nat := 0x70100700000000
def TIME_STEP_THRESHOLD : Nat := 0x70100800000000
def TIME_ROOT_ID : Nat := 0x70100900000000
def ROUTE_DROPS : Nat := 0x70200000000000
def ERROR_PACKETS : Nat := 0x70210000000000
def TIME_STEPS : Nat := 0x70220000000000
def TIME_SYNC_LOSSES : Nat := 0x70230000000000
def FABRIC_OPS_MAX : Nat := 0x74000000000000
def BARRIER_LEAD : Nat := 0x74010000000000
def OP_TIMEOUT : Nat := 0x74020000000000
def PULL_WINDOW : Nat := 0x74030000000000
def OPS_IN_PROGRESS : Nat := 0x74040000000000
def OPS_DONE : Nat := 0x74100000000000
def OPS_FAILED : Nat := 0x74110000000000
def ATTEMPTS_ABORTED : Nat := 0x74120000000000
def BARRIERS_LATE : Nat := 0x74130000000000
def PULL_BYTES_IN : Nat := 0x74140000000000
def PULL_BYTES_SERVED : Nat := 0x74150000000000
def EXACT_ELEMENTS : Nat := 0x74160000000000
def EARLY_FULL_DROPS : Nat := 0x74170000000000
def VENDOR_NAME (e : Nat) : Nat := okey 0x1000 0 e
def PRODUCT_NAME (e : Nat) : Nat := okey 0x1001 0 e
def VARIANT : Nat := 0x10020000000000
def MEMORY_CAPACITY : Nat := 0x10030000000000
def SILICON_REVISION : Nat := 0x10040000000000
def PCI_VENDOR_ID : Nat := 0x10050000000000
def PCI_PF_DEVICE_ID : Nat := 0x10060000000000
def PCI_VF_DEVICE_ID : Nat := 0x10070000000000
def SERIAL_NUMBER : Nat := 0x10080000000000
def FIRMWARE_VERSION : Nat := 0x10090000000000
def FIRMWARE_IMAGE : Nat := 0x100A0000000000
def DICT_REVISION : Nat := 0x100B0000000000
def IDENTITY_CERT_HASH (e : Nat) : Nat := okey 0x100C 0 e
def DP_BURST_MAX : Nat := 0x11000000000000
def DP_PORTS : Nat := 0x11010000000000
def INFO_SEL : Nat := 0x11020100000000
def OBJ_INFO : Nat := 0x11020200000000
def CANTOR_ENABLE : Nat := 0x11100100000000
def CANTOR_TIMEOUT : Nat := 0x11100200000000
def CANTOR_KEY_STATE : Nat := 0x11100300000000
def CANTOR_BOOT : Nat := 0x11100400000000
def CANTOR_TX (e : Nat) : Nat := okey 0x1120 1 e
def CANTOR_TX_STATUS : Nat := 0x11200200000000
def CANTOR_RX (e : Nat) : Nat := okey 0x1120 3 e
def CANTOR_RX_COUNT : Nat := 0x11200400000000
def CANTOR_RX_POP : Nat := 0x11200500000000
def NOTIFY_TARGET (k : Nat) : Nat := okey 0x1130 (1 + k) 0
def CANTOR_RX_MSGS : Nat := 0x11400000000000
def CANTOR_TX_MSGS : Nat := 0x11410000000000
def CANTOR_DROPS_AUTH : Nat := 0x11420000000000
def CANTOR_DROPS_REPLAY : Nat := 0x11430000000000
def CANTOR_DROPS_OTHER : Nat := 0x11440000000000
def NOTIFY_SENT : Nat := 0x11450000000000
def NOTIFY_COALESCED : Nat := 0x11460000000000
def DICT_REFUSALS : Nat := 0x11470000000000
def TIMEBASE_NOW : Nat := 0x12000000000000
def TIMEBASE_SOURCE : Nat := 0x12010000000000
def SPARE_STATE : Nat := 0x12020000000000
def SPARE_ENABLE : Nat := 0x12030000000000
def TIMEBASE_STEER : Nat := 0x12040000000000
def TIMEBASE_SWITCHES : Nat := 0x12050000000000
def PD_STATE (k : Nat) : Nat := okey 0x2000 k 0
def PD_CTRL (k : Nat) : Nat := okey 0x2001 k 0
def PD_WAKES (k : Nat) : Nat := okey 0x2002 k 0
def PD_WAKE_FAILS (k : Nat) : Nat := okey 0x2003 k 0
def OCT_CLOCK (k : Nat) : Nat := okey 0x2010 k 0
def OCT_VOLT (k : Nat) : Nat := okey 0x2011 k 0
def OCT_CLOCK_FLOOR (k : Nat) : Nat := okey 0x2012 k 0
def OCT_CLOCK_CEILING (k : Nat) : Nat := okey 0x2013 k 0
def OCT_CLOCK_TARGET (k : Nat) : Nat := okey 0x2014 k 0
def OCT_CLOCK_PIN (k : Nat) : Nat := okey 0x2015 k 0
def SPRINT_ENABLE : Nat := 0x20160000000000
def SPRINT_HEADROOM : Nat := 0x20170000000000
def PKG_POWER_LIMIT : Nat := 0x20180000000000
def PKG_POWER : Nat := 0x20190000000000
def DOMAIN_POWER (k : Nat) : Nat := okey 0x201A k 0
def POWER_LIMIT_MISSES : Nat := 0x201B0000000000
def VOLT_MARGIN : Nat := 0x21000000000000
def VOLT_CEILING : Nat := 0x21010000000000
def VOLT_FREEZE (k : Nat) : Nat := okey 0x2102 k 0
def DROOP_MARGIN : Nat := 0x21030000000000
def DROOP_FREEZE : Nat := 0x21040000000000
def DROOP_STRETCHES : Nat := 0x21050000000000
def VREF_MIN (k : Nat) : Nat := okey 0x2106 k 0
def VREF_MAX (k : Nat) : Nat := okey 0x2107 k 0
def VREF_FREEZE (k : Nat) : Nat := okey 0x2108 k 0
def PARK_ENABLE : Nat := 0x21090100000000
def PARK_NEVER : Nat := 0x21090200000000
def PARK_DELAY : Nat := 0x21090300000000
def PARK_FREEZE : Nat := 0x21090400000000
def CLAMP_ACTIVE : Nat := 0x21100000000000
def POLICY_CLAMP_LOG (e : Nat) : Nat := okey 0x2111 0 e
def POLICY_CLAMPS : Nat := 0x21120000000000
def QUIESCE_ENABLE : Nat := 0x21200000000000
def EST_STATE (k : Nat) : Nat := okey 0x2121 k 0
def QUIESCE_WINDOWS : Nat := 0x21220000000000
def OCT_TEMP (k : Nat) : Nat := okey 0x2200 k 0
def UNCORE_TEMP (k : Nat) : Nat := okey 0x2201 k 0
def TJ_TARGET : Nat := 0x22020000000000
def TJ_THROTTLE : Nat := 0x22030000000000
def TJ_TRIP : Nat := 0x22040000000000
def THROTTLE_STEPS : Nat := 0x22050000000000
def TRIP_EVENTS : Nat := 0x22060000000000
def BOOT_PHASE : Nat := 0x10100000000000
def RESET_CAUSE : Nat := 0x10110000000000
def RESET_REQUEST : Nat := 0x10120000000000
def PERST_ACTION : Nat := 0x10130000000000
def BOOT_PREFERENCE : Nat := 0x10140000000000
def BOOT_TRIAL : Nat := 0x10150000000000
def BOOT_TRIES : Nat := 0x10160000000000
def BOOT_CONFIRM : Nat := 0x10170000000000
def MIN_SVN : Nat := 0x10180000000000
def IMAGE_STATUS (e : Nat) : Nat := okey 0x1019 0 e
def KEY_REVOKED : Nat := 0x101A0000000000
def KEY_REVOKE : Nat := 0x101B0000000000
def BOOT_TIME : Nat := 0x101C0000000000
def BOOT_WATCHDOG : Nat := 0x101D0000000000
def FLASH_ADDR : Nat := 0x10200000000000
def FLASH_DATA (e : Nat) : Nat := okey 0x1021 0 e
def FLASH_CTRL : Nat := 0x10220000000000
def FLASH_STATUS : Nat := 0x10230000000000
def FLASH_SIZE : Nat := 0x10240000000000
def CLR_CAP : Nat := 0x90000000000000
def CLR_TOKENS : Nat := 0x90010000000000
def CLR_RING_BASE : Nat := 0x90100100000000
def CLR_RING_SPACE : Nat := 0x90100200000000
def CLR_RING_SIZE : Nat := 0x90100300000000
def CLR_IRQ_FILL : Nat := 0x90100400000000
def SAMPLE_PERIOD : Nat := 0x90200100000000
def SAMPLE_MASK : Nat := 0x90200200000000
def TRACE_MASK : Nat := 0x90200300000000
def CNT_LATCH : Nat := 0x90300000000000
def CORE_COUNTERS (e : Nat) : Nat := okey 0x9031 0 e
def SLICE_COUNTERS (e : Nat) : Nat := okey 0x9032 0 e
def CHANNEL_COUNTERS (e : Nat) : Nat := okey 0x9033 0 e
def LINK_COUNTERS (e : Nat) : Nat := okey 0x9034 0 e
def LATCH_TIME : Nat := 0x90350000000000
def WATCH_BUFS (e : Nat) : Nat := okey 0x9040 0 e
def WATCHES_ARMED (e : Nat) : Nat := okey 0x9041 0 e
def SNAP_REQUEST : Nat := 0x90500000000000
def SNAP_STORE : Nat := 0x90510000000000
def RECORDS_LOST (e : Nat) : Nat := okey 0x9060 0 e
def WATCH_OUTCOMES (e : Nat) : Nat := okey 0x9061 0 e
def SNAPSHOTS : Nat := 0x90620000000000
def TRAY_HEARTBEAT : Nat := 0xB0000000000000
def TRAY_SERIAL : Nat := 0xB0010000000000
def TRAY_SLOT : Nat := 0xB0020000000000
def UTC_SET : Nat := 0xB0030100000000
def UTC_PAIR (e : Nat) : Nat := okey 0xB003 2 e
def COOLANT_INLET : Nat := 0xB0040000000000
def SLOT_FLOW : Nat := 0xB0050000000000
def TRAY_ALARMS : Nat := 0xB0060000000000
def CRYPT_SIZE : Nat := 0xA0000000000000
def CRYPT_STATE : Nat := 0xA0010000000000
def CRYPT_WEAR : Nat := 0xA0020000000000
def CRYPT_COMMITS : Nat := 0xA0030000000000
def LIFE_COMMIT : Nat := 0xA0040000000000
def LIFE_LAST_COMMIT (e : Nat) : Nat := okey 0xA005 0 e
def POWER_ON_SECONDS : Nat := 0xA0100000000000
def COLD_STARTS : Nat := 0xA0110000000000
def THERMAL_CYCLES : Nat := 0xA0120000000000
def TJ_HISTOGRAM (e : Nat) : Nat := okey 0xA013 0 e
def AGING_OFFSET (k : Nat) : Nat := okey 0xA014 k 0
def AGING_BASE (k : Nat) : Nat := okey 0xA015 k 0
def AGING_MEASURED (k : Nat) : Nat := okey 0xA016 k 0
def LIFE_TANDEM_MISMATCHES : Nat := 0xA0170000000000
def LIFE_COMPARATOR_FAULTS : Nat := 0xA0180000000000
def LINK_LIFE (e : Nat) : Nat := okey 0xA020 0 e
def FIRST_UTC : Nat := 0xA0300000000000
def TG_CTRL (n : Nat) : Nat := okey (0x6100 + n) 1 0
def TG_MODE (n : Nat) : Nat := okey (0x6100 + n) 2 0
def TG_PATTERN (n : Nat) : Nat := okey (0x6100 + n) 3 0
def TG_SEED (n : Nat) : Nat := okey (0x6100 + n) 4 0
def TG_ADDR_ORDER (n : Nat) : Nat := okey (0x6100 + n) 5 0
def TG_PC (n : Nat) : Nat := okey (0x6100 + n) 6 0
def TG_BASE (n : Nat) : Nat := okey (0x6100 + n) 7 0
def TG_LENGTH (n : Nat) : Nat := okey (0x6100 + n) 8 0
def TG_PASSES (n : Nat) : Nat := okey (0x6100 + n) 9 0
def TG_READ_PERCENT (n : Nat) : Nat := okey (0x6100 + n) 10 0
def TG_ECC_BYPASS (n : Nat) : Nat := okey (0x6100 + n) 11 0
def TG_STATUS (n : Nat) : Nat := okey (0x6100 + n) 12 0
def TG_ERRORS (n : Nat) : Nat := okey (0x6100 + n) 13 0
def TG_FIRST_ERROR (n : Nat) : Nat := okey (0x6100 + n) 14 0
def TG_LANE_ERRORS (n e : Nat) : Nat := okey (0x6100 + n) 15 e
def TG_BYTES (n : Nat) : Nat := okey (0x6100 + n) 16 0
def LINK_ENABLE (n : Nat) : Nat := okey (0x7100 + n) 1 0
def LINK_STATE (n : Nat) : Nat := okey (0x7100 + n) 2 0
def PARTNER (n : Nat) : Nat := okey (0x7100 + n) 3 0
def EQ_FREEZE (n : Nat) : Nat := okey (0x7100 + n) 4 0
def EQ_PRESET_MIN (n : Nat) : Nat := okey (0x7100 + n) 5 0
def EQ_PRESET_MAX (n : Nat) : Nat := okey (0x7100 + n) 6 0
def PRE_FEC_BER (n : Nat) : Nat := okey (0x7100 + n) 7 0
def LANE_MARGIN (n e : Nat) : Nat := okey (0x7100 + n) 8 e
def FEC_CORRECTED (n : Nat) : Nat := okey (0x7100 + n) 9 0
def FEC_UNCORRECTED (n : Nat) : Nat := okey (0x7100 + n) 10 0
def REPLAYS (n : Nat) : Nat := okey (0x7100 + n) 11 0
def TRAINS (n : Nat) : Nat := okey (0x7100 + n) 12 0
def DOWNS (n : Nat) : Nat := okey (0x7100 + n) 13 0
def TX_FLITS (n : Nat) : Nat := okey (0x7100 + n) 14 0
def RX_FLITS (n : Nat) : Nat := okey (0x7100 + n) 15 0
def LINK_DELAY (n : Nat) : Nat := okey (0x7100 + n) 16 0
def CREDIT_STALL_CLOCKS (n : Nat) : Nat := okey (0x7100 + n) 17 0
def TENANT_STATE (n : Nat) : Nat := okey (0x5100 + n) 1 0
def TENANT_TEARDOWNS (n : Nat) : Nat := okey (0x5100 + n) 2 0
def STRICT_AUDIT (n : Nat) : Nat := okey (0x5100 + n) 3 0
def LAST_TEARDOWN (n : Nat) : Nat := okey (0x5100 + n) 4 0

end Sys2Proof.Machine.O
end

