-- ==== Sys2Proof/Machine/StateCache.lean ====
section
/-! DEFINITION. Machine/StateCache.lean: the state of the L2 slices and the crossing (chapter 7). Data only. -/

namespace Sys2Proof.Machine

/-- One L2 line (Table 7.1): owner tag, way, dirty, poison per 32-byte sector (bit i), the 128 bytes, and the key draw under
which it is written back (0 for none). -/
structure L2Line where
  owner : Nat
  way : Nat
  dirty : Bool
  poison : Nat
  data : Nat
  key : Nat
  deriving DecidableEq, Repr

/-- A streaming-detector entry (R331): its place among the 32, requester with the owner it wrote for, region, last line, count,
age and state. -/
structure Detector where
  place : Nat
  requester : Nat
  owner : Nat
  region : Nat
  last : Nat
  count : Nat
  age : Nat
  streaming : Bool
  deriving DecidableEq, Repr

/-- An outstanding L2 MSHR (R338): its line, the way it holds for the fill (none for NO_ALLOCATE), the primary request, and the
requests it serves in arrival order, each with whether an L1 MSHR of its core made it. -/
structure Mshr where
  line : Nat
  way : Option Nat
  first : L2Req
  reqs : List (L2Req × Bool)
  deriving DecidableEq, Repr

/-- Data that a slice returns to a requester and that has not arrived: the request, whether an L1 MSHR made it, and the line's
bytes and poison. -/
structure L2Resp where
  req : L2Req
  l1 : Bool
  data : Nat
  poison : Nat
  deriving DecidableEq, Repr

/-- An L2 maintenance operation in progress (R346). -/
structure Maint where
  op : Nat
  sel : Nat
  owner : Nat
  base : Nat
  length : Nat
  scan : Nat                              -- sets the scan has passed in every slice (R347)
  deriving DecidableEq, Repr

/-- The L2 slices (chapter 7). -/
structure L2 where
  lines : List (Nat × L2Line)             -- key the line number
  order : List (Nat × List Nat)           -- ways by age, most recent first; key 1024 * slice + set
  lfsr : List (Nat × Nat)                 -- LFSR state of slices that have stepped since their seed was loaded
  dets : List (Nat × List Detector)       -- per slice
  mshrs : List Mshr                       -- in the order they were taken
  held : List (L2Req × Bool)              -- requests not yet accepted, in arrival order (R326, R340, R354)
  resps : List L2Resp                     -- responses on their way
  refetched : Nat                         -- uncorrectable errors of clean lines, in L1 and L2 (R357)
  maint : Option Maint
  steering : List (Nat × Nat × Nat)       -- columns being steered: slice, sub-array and column
  spares : List (Nat × Nat)               -- spare columns used: 64 * slice + sub-array
  crossFails : List (Nat × Nat)           -- consecutive CRC failures per direction
  crossFailed : Bool                      -- R363
  deriving DecidableEq, Repr

end Sys2Proof.Machine
end

