-- ==== Sys2Proof/Machine/StateFabric.lean ====
section
/-! DEFINITION. Machine/StateFabric.lean: the state of the Transept links, the router and fabric time (chapter 16), and of the
operations of the link complexes (chapter 17). Data only. -/

namespace Sys2Proof.Machine

/-- A packet that waits for a link: its VC, the link it arrived on (20 for the chip's own), and the dedicated and shared credits
of that link's receive buffer it holds. -/
structure QPacket where
  vc : Nat
  input : Nat
  inVc : Nat
  ded : Nat
  shr : Nat
  p : FPacket
  deriving DecidableEq, Repr

/-- A packet that is being received on a VC: body bytes so far, flits so far, and the credits its flits hold. -/
structure Partial where
  vc : Nat
  bytes : List Byte
  flits : Nat
  ded : Nat
  shr : Nat
  deriving DecidableEq, Repr

/-- One Transept link beside its objects. -/
structure Link where
  signal : Bool                           -- a partner signal is detected
  fails : List Nat                        -- times of the failed trainings of the last second (R750)
  txSeq : Nat                             -- SEQ of the next sequenced flit
  rxAck : Nat                             -- SEQ of the last in-order flit received intact
  nak : Bool                              -- sequenced flits are discarded until ACK + 1 arrives (R755)
  asked : Bool                            -- the partner has sent NAK
  replay : List (Nat × Flit)              -- unacknowledged flits, oldest first, with the time each was sent
  replaySeq : Nat                         -- SEQ the last replay began with
  replayRun : Nat                         -- times in a row it began there
  ded : List Nat                          -- dedicated credits held, by VC (R760)
  shared : Nat                            -- shared credits held
  rxDed : List Nat                        -- own dedicated buffer places in use, by VC
  rxShared : Nat
  owed : List Nat                         -- dedicated credits to return, by VC
  owedShared : Nat
  parts : List Partial
  waiting : List QPacket                  -- oldest first
  lastVc : Nat                            -- VC served last (R762)
  lastIn : List Nat                       -- input served last, by VC
  sinceHi : Nat                           -- flits sent since the last one on VC_0 or VC_7
  partner : Option Handshake              -- the partner's HANDSHAKE of this training
  seen : Bool                             -- a HANDSHAKE with SEEN has been received
  told : Bool                             -- a HANDSHAKE with SEEN has been sent
  asym : Int                              -- asymmetry measured in step 6, 1/16 ns
  txTimes : List Nat                      -- TX_TIME of the last 4 TIME flits sent, newest first
  echoTx : Nat
  echoRx : Nat
  echoValid : Bool
  exchange : Nat                          -- TIME flits sent since TRAINING
  skips : Nat                             -- TIME flits sent since the last completed exchange (R782)
  uncorr : List Nat                       -- times of the uncorrectable codewords of the last second
  presets : List Nat                      -- transmitter preset of each lane
  want : List Nat                         -- preset last asked of the partner, by lane
  token : Nat
  ctle : List Nat
  dfe : List (Nat × Nat)                  -- DFE tap settings, by 16 * lane + tap
  deriving DecidableEq, Repr

/-- A box that a rank pulls from a source: the source rank and its local origin, the extents, the own local origin and the
global origin of the box. -/
structure Pull where
  src : Nat
  lead : Nat
  srow : Nat
  scol : Nat
  rows : Nat
  cols : Nat
  drow : Nat
  dcol : Nat
  grow : Nat
  gcol : Nat
  deriving DecidableEq, Repr

/-- An operation in progress (R796). `phase` is 0 reading its inputs, 1 entry barrier, 2 data, 3 exit barrier, 4 suspended after a
batch cause, 5 reported to the precentor. Element values stand with their poison. -/
structure FabOp where
  order : Nat                             -- acceptance number of its node
  opc : Nat
  owner : Nat
  group : Nat
  opseq : Nat
  attempt : Nat
  die : Nat
  phase : Nat
  since : Nat                             -- time of arrival at the present barrier
  entered : List Nat                      -- children whose ENTER has come
  sentAt : Option Nat                     -- time the last ENTER was sent
  release : Option Nat                    -- T_rel
  exitSent : Bool                         -- the root has sent the exit RELEASE
  key : Nat                               -- payload of ENTER with phase 0
  rank : Nat
  table : List Nat                        -- rank entries, of a RESHARD those of the SRC map
  dtable : List Nat                       -- rank entries of a RESHARD's DST map
  lead : Nat                              -- BARRIER_LEAD, OP_TIMEOUT and PULL_WINDOW at its dispatch (R835)
  limit : Nat
  window : Nat
  srcPieces : List Nat
  dstPieces : List Nat
  src : Nat                               -- descriptor images
  dst : Nat
  op : Nat
  mode : Nat
  root : Nat
  todo : List Pull                        -- boxes not yet asked for
  pulls : List Pull                       -- boxes asked for
  serve : List FPacket                    -- PULLs not yet served
  vals : List (Nat × List (Nat × Nat × Bool))   -- values received from a rank: element index, value, poison
  result : List (Nat × Nat × Bool)        -- result received from the parent
  sentUp : Bool
  filled : Bool                           -- FILL has been written where no source holds an element (R808)
  next : Nat                              -- next byte of a COPY
  acks : Nat                              -- WRITEs not yet acknowledged
  hreq : List Nat                         -- host lines asked for
  hbuf : List (Nat × Nat × Bool)          -- host lines that have come
  deriving DecidableEq, Repr

/-- The links, the router, fabric time and the link complexes. -/
structure Fabric where
  links : List (Nat × Link)               -- links not in their reset state
  inbox : List (Nat × FPacket)            -- packets delivered locally, with their link
  dropAt : Option Nat                     -- time of the last logged drop (R769)
  offsets : List Int                      -- offsets in the filter, newest first (R778)
  lockRun : Nat                           -- consecutive filtered offsets within 2 ns
  slew : Int                              -- offset still to be slewed, 1/16 ns (R774)
  frac : Nat                              -- fraction of fabric time, 1/16 ns
  deep : Bool                             -- the depth has been seen above 13
  opseq : List (Nat × Nat)                -- OPSEQ last given, by 65536 * owner + GROUP
  copies : Nat                            -- remote COPYs issued
  ops : List FabOp
  early : List FPacket                    -- the early-arrival table (R805)
  deriving DecidableEq, Repr

end Sys2Proof.Machine
end

