-- ==== Sys2Proof/Machine/StateHost.lean ====
section
/-! DEFINITION. Machine/StateHost.lean: the parts of the state that chapters 10, 11, 12, 14, 15 and 18 give the device:
windows and translation caches, fault batches, the functions of the host port, queues, graphs and nodes, error logs and the
containment sequencer, memory controllers, dictionary ports and the Cantor network. Data only. -/

namespace Sys2Proof.Machine

/-- The severities of R15. -/
inductive Sev where
  | note
  | corrected
  | contained
  | device
  deriving DecidableEq, Repr

/-- One error log entry (Table 14.6). `owner` is 0x1FF for none; `eng` is the 16-bit ENGINE field. -/
structure LogEntry where
  ftime : Nat
  node : Nat
  graph : Nat
  queue : Nat
  owner : Nat
  eng : Nat
  addr : Nat
  info : Nat
  seq : Nat
  folded : Bool
  escalated : Bool
  preempted : Bool
  teardown : Bool
  sev : Sev
  detail : Nat
  cause : Nat
  deriving DecidableEq, Repr

/-- One error log (R666): entries oldest first, the overflow count and the next sequence number. -/
structure ErrLog where
  entries : List LogEntry
  overflow : Nat
  seq : Nat
  deriving DecidableEq, Repr

/-- A window record (Table 10.3). -/
structure Window where
  base : Nat
  size : Nat
  hostBase : Nat
  enc : Bool
  keySlot : Nat
  l2p : Nat
  policy : Nat
  home : Nat
  x : Bool
  w : Bool
  r : Bool
  deriving DecidableEq, Repr

/-- One cached translation (R466). `page` is va[51:16] for a 64 KiB page, va[51:28] for a block; `host` entries are the
ATC's, with `page` the untranslated address and `span` its size. -/
structure TlbEntry where
  owner : Nat
  win : Nat
  block : Bool
  page : Nat
  span : Nat
  dpa : Nat
  r : Bool
  w : Bool
  x : Bool
  deriving DecidableEq, Repr

/-- One walk-cache entry: a level-3 table pointer (R466). -/
structure WalkEntry where
  owner : Nat
  win : Nat
  tag : Nat
  table : Nat
  deriving DecidableEq, Repr

/-- One fault record (Table 10.9). -/
structure FaultRec where
  ftime : Nat
  node : Nat
  seq : Nat
  graph : Nat
  queue : Nat
  owner : Nat
  window : Nat
  windowValid : Bool
  level : Nat
  cause : Nat
  detail : Nat
  engine : Nat
  access : Nat
  pri : Bool
  truncated : Bool
  host : Bool
  restartable : Bool
  dispatches : Nat
  va : Nat
  entry : Nat
  deriving DecidableEq, Repr

/-- What has become of a written fault record: `acted` when FAULT_RESUME has acted on it or must skip it (R489, R500). `pri`
is 0 not needed, 1 awaiting a PRG Response, 2 Success, 3 failed (R490), 4 awaiting the allocation (R491). -/
structure FaultTrack where
  rcd : FaultRec
  acted : Bool
  retry : Bool
  pri : Nat
  sentAt : Nat
  deriving DecidableEq, Repr

/-- A window whose WINDOW_MAP record is not yet written (R454): the packet's queue and ring count, the window's key, and the
window. -/
structure NewWindow where
  queue : Nat
  count : Nat
  key : Nat
  win : Window
  deriving DecidableEq, Repr

/-- Translation and fault batches (chapter 10). Recency lists hold the most recent entry first. -/
structure Trans where
  wins : List (Nat × Window)              -- key 64 * owner + index
  newWins : List NewWindow
  utlb : List (Nat × List TlbEntry)       -- key the ENGINE number of R451
  stlb : List (Nat × List TlbEntry)       -- key 2048 * die + set
  walk : List (Nat × List WalkEntry)      -- key the die
  atc : List TlbEntry
  waiting : List FaultRec                 -- records that wait for a slot (R483)
  tracks : List FaultTrack                -- records written, oldest first
  batchSeq : Nat                          -- SEQ of the batch now open or next to open
  batchCount : Nat                        -- records in the open batch
  batchFirst : Nat                        -- fabric time of its first record
  ringUnset : Bool                        -- R504
  ringWaited : Bool                       -- the present run of waits has been reported (R483)
  epoch : Nat                             -- invalidations begun (R471, R478)
  reloads : List Nat                      -- dies whose window table is being reloaded from the precentor's copy (R503)
  timedClose : Option (Nat × Nat)         -- fabric time and SEQ of the last timed close of a batch (R499)
  deriving DecidableEq, Repr

/-- One MSI-X table entry. -/
structure MsixEntry where
  addr : Nat
  data : Nat
  masked : Bool
  deriving DecidableEq, Repr

/-- One PCIe function (Tables 11.4, 11.11): PF at index 0, VF t at t + 1. -/
structure Func where
  busMaster : Bool
  msixEnable : Bool
  funcMask : Bool
  atsEnable : Bool
  priEnable : Bool
  prAlloc : Nat                           -- Outstanding Page Request Allocation (R491)
  inFlr : Bool
  aerMask : Nat                           -- AER uncorrectable error mask (R540)
  aerSev : Nat                            -- AER uncorrectable error severity: bit set fatal (Table 11.13)
  table : List (Nat × MsixEntry)
  pba : List Nat
  deriving DecidableEq, Repr

/-- The header of an offending TLP, as far as the commands name it (R540): the error, whether it is a write, and its address and length. -/
structure TlpHeader where
  fn : Nat
  err : Nat
  kind : Nat                              -- 0 memory read, 1 memory write, 2 completion, 3 configuration write
  bar : Nat
  addr : Nat                              -- the offset in the BAR, the tag of a completion, the register
  len : Nat
  deriving DecidableEq, Repr

/-- How an access came by its physical address: its owner, its virtual address, its untranslated address in host memory (0 for device
memory), whether it goes to the host, whether a cached translation gave the address, and the invalidations begun before it did (R471,
R476, R478). -/
structure Via where
  owner : Nat
  va : Nat
  u : Nat
  host : Bool
  cached : Bool
  epoch : Nat
  deriving DecidableEq, Repr

/-- A host write that waits for Bus Master Enable (R533). -/
structure HeldWrite where
  fn : Nat
  addr : Nat
  bytes : List Byte
  ep : Bool
  via : Via
  deriving DecidableEq, Repr

/-- An ATS Invalidate Request that is not yet complete (R478): function, tag, the range of untranslated addresses it names, and the
invalidations begun before it. -/
structure AtsInval where
  fn : Nat
  tag : Nat
  lo : Nat
  len : Nat
  epoch : Nat
  deriving DecidableEq, Repr

/-- A host-memory read of the device that awaits its completion (R527). `use` says what its data is for. -/
structure HostRead where
  tag : Nat
  fn : Nat
  addr : Nat
  len : Nat
  use : Nat
  arg : Nat
  via : Via
  sent : Bool
  abandoned : Bool
  deriving DecidableEq, Repr

/-- The host port (chapter 11). -/
structure HostPort where
  funcs : List (Nat × Func)               -- functions not in their reset configuration
  vfEnable : Bool
  numVfs : Nat
  d3hot : Bool
  perst : Bool                            -- PERST# asserted
  reads : List HostRead
  atsReplies : List (Nat × AtsReply)      -- replies not yet used by the access that awaits them (R477)
  atsSent : List (Nat × Nat × Nat × Bool) -- Translation Requests in flight: function, 4 KiB page, window, and whether for a write
  nextTag : Nat
  mps : Nat                               -- Max Payload Size programmed, bytes (R516)
  mrrs : Nat                              -- Max Read Request Size programmed, bytes
  aer : List (Nat × Nat)                  -- AER errors logged: function and error number, oldest first; correctable ones from 32
  headers : List TlpHeader                -- header logs, oldest first, at most four of a function (R540)
  held : List HeldWrite                   -- host writes that wait for Bus Master Enable, in order (R533)
  atsInvs : List AtsInval                 -- ATS Invalidate Requests whose completion has not been sent (R478)
  aspmL1 : Bool                           -- ASPM L1 entry enabled in Link Control (R508)
  margins : List (Nat × Nat)              -- Lane Margin Control as last written, by lane (R508)
  deriving DecidableEq, Repr

/-- A completion record (Table 12.8). -/
structure CRec where
  packet : Nat
  aux : Nat
  core : Nat
  choir : Nat
  trapCode : Nat
  voiceMask : Nat
  addr : Nat
  pc : Nat
  ftime : Nat
  dispatches : Nat
  node : Nat
  opcode : Nat
  graph : Nat
  unverified : Bool
  restartable : Bool
  sev : Nat
  detail : Nat
  cause : Nat
  kind : Nat
  irq : Bool                              -- the packet's IRQ flag; not a field of the record
  deriving DecidableEq, Repr

inductive QState where
  | disabled
  | enabled
  | halted
  deriving DecidableEq, Repr

/-- A queue packet accepted but not complete (R569): its opcode, ring count, IRQ flag, an argument and its number. -/
structure QWait where
  opc : Nat
  count : Nat
  irq : Bool
  arg : Nat
  seq : Nat
  deriving DecidableEq, Repr

/-- A packet whose read has been issued and that is not yet accepted (R563, R603): ring count, the packet, whether the read has
returned, and the cause and detail a failed read has. -/
structure PRead where
  count : Nat
  packet : Nat
  back : Bool
  cause : Nat
  detail : Nat
  deriving DecidableEq, Repr

/-- One queue (R555 to R561). -/
structure Queue where
  pqBase : Nat
  pqSlots : Nat
  cqBase : Nat
  cqSlots : Nat
  timeout : Nat
  state : QState
  get : Nat
  put : Nat
  latch : Option Nat
  cqPut : Nat
  cqGet : Nat
  haltCause : Nat
  late : Nat
  lastDone : Nat
  waits : List QWait
  fencing : Bool
  records : List CRec                     -- records not yet written, in the order they will be
  fresh : List CRec                       -- records of the coming step 6, in the order they arose
  header : Nat                            -- completion ring header doubleword 0 as last written
  vector : Bool                           -- a written record raises the queue's vector at the next header write
  readAhead : List PRead
  enabling : Bool                         -- the header writes of ENABLE await a translation (R561)
  deriving DecidableEq, Repr

inductive NState where
  | accepted
  | waiting
  | ready
  | running
  | retired
  | awaitResume
  | failed
  | cancelled
  deriving DecidableEq, Repr

/-- What a core or engine has reported of a running node, latched for the next tick (Table 12.4 step 1, R590). -/
structure Report where
  kind : Nat                              -- 1 complete, 2 abort with a cause
  cause : Nat
  detail : Nat
  core : Nat                              -- the core; 2^32 + its code for another engine; 0xFFFFFFFF for none
  choir : Nat
  pc : Nat
  addr : Nat
  mask : Nat
  trap : Nat
  stream : Bool                           -- the Lark's streams raised it
  deriving DecidableEq, Repr

/-- One node of a graph (Table 12.7). -/
structure Node where
  owner : Nat
  queue : Nat
  graph : Nat
  id : Nat
  opc : Nat
  body : Nat                              -- the packet
  count : Nat                             -- ring count of the packet
  cr : Bool
  irq : Bool
  state : NState
  preds : List Nat                        -- distinct predecessors
  left : Nat                              -- unretired predecessors
  restartable : Bool
  dispatches : Nat
  order : Nat                             -- acceptance order in the device
  readyAt : Nat
  dispatchedAt : Nat
  firstDispatch : Nat
  core : Nat                              -- first core of the gang
  reports : List Report
  refs : List Nat                         -- descriptor handles referenced (R419)
  lastPages : List Nat                    -- offending pages of the previous abort (R493)
  noProgress : Nat
  mismatches : Nat                        -- tandem mismatches of this node (R686)
  unverified : Bool
  grace : Bool                            -- allowed to run to its end at a slot boundary (R627)
  chapel : Nat                            -- chapel of the dispatch
  pool : Bool                             -- dispatched in pool time (R625)
  counted : Bool                          -- the requeue has counted the next dispatch (R627)
  avoid : Option Nat                      -- cloister a tandem re-dispatch avoids (R686)
  noted : Bool                            -- reported unplaceable (R621)
  notBefore : Nat                         -- earliest tick of its next dispatch (R686)
  tablePoison : Bool                      -- resumed from a table poison (R505)
  eccLast : Option Nat                    -- address of the uncorrectable error of its last such abort (R412)
  timerSpent : Bool                       -- its timer fired in the tick of a translation abort, which won (R494)
  deriving DecidableEq, Repr

/-- One live graph of a queue (R572). -/
structure Graph where
  owner : Nat
  queue : Nat
  id : Nat
  isSealed : Bool
  stopOnFail : Bool
  failed : Bool
  sealCount : Nat
  sealIrq : Bool
  sealSeq : Nat
  firstFailed : Nat
  cause : Nat
  detail : Nat
  deriving DecidableEq, Repr

/-- A horarium entry (Table 13.2). -/
structure HorEntry where
  guard : Nat
  chapels : Nat
  length : Nat
  start : Nat
  level : Nat
  pool : Bool
  owner : Nat
  deriving DecidableEq, Repr

/-- A horarium table (R612 to R615), and the tick that accepted its load. -/
structure HorTable where
  frame : Nat
  epoch : Nat
  entries : List HorEntry
  loaded : Nat
  deriving DecidableEq, Repr

/-- The horarium and the share pool (chapter 13). `quantum` to `weights` hold the values in effect, which take written ones at
the next tick (R640). -/
structure Sched where
  active : Option HorTable
  staged : Option HorTable
  lastTick : Nat                          -- fabric time of the last tick run (R617)
  chapNext : Nat                          -- chapel the previous tick visited first (R623)
  last : List (Nat × Nat)                 -- last[c] of R624, plus one; 0 is none
  accounts : List (Nat × Nat)             -- core-ns by 257 * chapel + owner (R625)
  deficits : List (Nat × Int)             -- core-ns by 257 * chapel + owner (R624)
  weights : List (Nat × Nat)
  quantum : Nat
  grace : Nat
  floor : Nat
  lead : Nat
  deriving DecidableEq, Repr

/-- Bytes that a queue packet has read so far of host memory (R428, R613): the packet's number, the bytes, and whether any came with
poison, and the cause when a read of them has failed. -/
structure Gather where
  seq : Nat
  bytes : List Byte
  poison : Bool
  cause : Nat
  deriving DecidableEq, Repr

/-- An unmap or invalidation whose accesses are awaited (R455, R471): the packet, what it selects (mode 0 ALL, 1 OWNER, else a range of
the owner's addresses), and the invalidations begun before it. -/
structure Inval where
  seq : Nat
  mode : Nat
  owner : Nat
  base : Nat
  len : Nat
  epoch : Nat
  deriving DecidableEq, Repr

/-- The precentor (chapter 12). -/
structure Precentor where
  sched : Sched
  queues : List (Nat × Queue)             -- key 16 * owner + q; unlisted queues are in their reset state
  graphs : List Graph
  nodes : List Node
  nextOrder : Nat
  rrNext : Nat                            -- tenant pair first visited by the previous tick (R563)
  descTable : List (Nat × Nat)            -- DESC_TABLE per owner
  descState : List (Nat × Nat)            -- 4096 * owner + handle: 1 LIVE, 2 STALE (Table 9.2), 3 STALE by an error (R448)
  quota : List (Nat × Nat)                -- node quota per owner
  invals : List Inval                     -- unmaps and invalidations whose accesses are awaited (R471)
  gather : List Gather
  urgent : List (Nat × Nat)               -- clock floors requested for URGENT entries (R631)
  deriving DecidableEq, Repr

/-- A handling of the containment sequencer (R670): severity, tenant (or 0x1FF), cause, detail. -/
structure Handling where
  sev : Sev
  tenant : Nat
  cause : Nat
  detail : Nat
  reason : Nat
  release : Bool
  flr : Bool
  deriving DecidableEq, Repr

/-- A teardown in progress: next step of Table 14.7, cause and detail for the HALT records, REASON, and whether a RELEASE or
an FLR waits for it (R650, R694). -/
structure Teardown where
  tenant : Nat
  step : Nat
  cause : Nat
  detail : Nat
  reason : Nat
  release : Bool
  flr : Bool
  deriving DecidableEq, Repr

/-- Containment (chapter 14). -/
structure Contain where
  logs : List (Nat × ErrLog)              -- key 0 to 256
  queue : List Handling
  teardowns : List Teardown
  keyGen : List (Nat × Nat)               -- key slot: the draw it holds; 0 is zeroized
  nextKey : Nat
  badSlots : List Nat                     -- key slots that failed their check (R700)
  selfTests : List (Nat × Nat × Nat)      -- per comparator: its millisecond tests since reset, and the time of the last (R689)
  mismatches : List (Nat × Nat)           -- mismatches of each cloister since reset (R687)
  deriving DecidableEq, Repr

/-- One tracker of a correctable memory error (R715): location packed, and its fabric time. -/
structure Tracker where
  pc : Nat
  sid : Nat
  bg : Nat
  bank : Nat
  row : Nat
  burst : Nat
  bit : Nat
  time : Nat
  deriving DecidableEq, Repr

/-- A retirement request (Table 15.6). -/
structure Retire where
  time : Nat
  page : Nat
  cls : Nat
  count : Nat
  channel : Nat
  deriving DecidableEq, Repr

/-- Device memory and its controllers (chapter 15). -/
structure Mem where
  cells : List Host.Cell                  -- bytes as stored, by DPA
  poison : List (Nat × Bool)              -- sectors (DPA / 32) stored with the poison mark
  keyOf : List (Nat × Nat)                -- sectors written under a key draw
  trackers : List (Nat × List Tracker)    -- per channel
  erasures : List (Nat × List Nat)        -- per channel, packed positions
  recent : List (Nat × List Nat)          -- times of the corrected errors of the last second, per channel
  pending : List Retire
  band : List (Nat × Nat)                 -- temperature band per stack (R725)
  parityFails : List (Nat × Nat)          -- consecutive parity failures per channel (R738)
  raw : List (Nat × Nat)                  -- check-lane bits of sectors written with TG_ECC_BYPASS 1 (R732)
  patrolAt : List (Nat × Nat)             -- next sector of patrol per channel (R728)
  refreshed : List (Nat × Nat)            -- refreshes issued per channel
  postponed : List (Nat × Nat)            -- postponed refreshes per channel and bank
  strobes : List (Nat × Nat)              -- fabric time of the last strobe realignment per channel
  deriving DecidableEq, Repr

/-- A dictionary port (Tables 18.4 to 18.6). -/
structure DPort where
  addr : Nat
  addrHi : Nat
  dir : Bool
  length : Nat
  busy : Bool
  done : Bool
  count : Nat
  status : Nat
  buf : List Byte
  goAddr : Nat                            -- DP_ADDR, DP_ADDR_HI and bytes of the burst in progress
  goHi : Nat
  goLen : Nat
  stage : Nat                             -- 0 idle, 1 read not yet taken, 2 read taken, 3 accepting writes, 4 ready to apply
  deriving DecidableEq, Repr

/-- The selector copies of one path (R841). -/
structure Selectors where
  descOwner : Nat
  descHandle : Nat
  winOwner : Nat
  winIndex : Nat
  queueSel : Nat
  acctOwner : Nat
  logSel : Nat
  infoSel : Nat
  deriving DecidableEq, Repr

/-- A replay window (R858). -/
structure Replay where
  boot : Nat
  high : Nat
  seen : Nat                              -- bit i: count high - i accepted
  deriving DecidableEq, Repr

/-- A request this chip sent that awaits its response (R866). -/
structure CantorWait where
  count : Nat
  dest : Nat
  deadline : Nat
  deriving DecidableEq, Repr

/-- The dictionary engine and the Cantor network (chapter 18). -/
structure Dict where
  ports : List (Nat × DPort)              -- 0 the PF port, t + 1 the port of T_t
  sels : List (Nat × Selectors)           -- ports as above; 257 Cantor; 258 firmware
  nextFrame : List (Nat × Nat)            -- values in effect until the next frame, by store key (R843)
  crypt : List (Nat × Nat)                -- values the crypt holds, by store key
  commits : List Nat                      -- store keys with a commit due (R844)
  commitFails : List (Nat × Nat)          -- failed commits per key (R883)
  count : Nat                             -- COUNT of the next Cantor message
  windows : List (Nat × Replay)           -- per source chip; 4096 is the I3C port
  requests : List CantorMsg               -- request queue (R865)
  inbound : List CantorMsg                -- host mailbox, oldest first
  waits : List CantorWait
  key : Nat                               -- the system management key (R945)
  notified : List (Nat × Nat)             -- 8 * event + target: fabric time of the last NOTIFY
  coalesced : List (Nat × Nat)            -- 8 * event + target: events not carried yet
  dropAt : List (Nat × Nat)               -- ERR_CANTOR detail: time of the last log (R881)
  deriving DecidableEq, Repr

end Sys2Proof.Machine
end

