-- ==== Sys2Proof/Machine/StateMgmt.lean ====
section
/-! DEFINITION. Machine/StateMgmt.lean: the parts of the state that chapters 20 to 24 give the machine: reset, boot and
attestation, the Clerestory, the JT-16 tray controller, the crypt's lifetime record, and the package. Data only. -/

namespace Sys2Proof.Machine

/-- Power domains, clocks and adaptive loops (chapter 19). -/
structure Power where
  tries : List (Nat × Nat)                -- failed attempts of the wake in progress, by domain
  retryAt : List (Nat × Nat)              -- time of the next attempt, by domain
  refreshed : List Nat                    -- memory domains that wake from SELF_REFRESH
  throttle : List (Nat × Nat)             -- throttle ceiling of an octant in MHz, when below the maximum
  throttleAt : List (Nat × Nat)           -- time of its last step or of the start of its recovery
  throttleFrom : List (Nat × Nat)         -- time the ceiling first fell
  cooling : List Nat                      -- octants whose throttle ceiling rises
  current : List (Nat × Nat)              -- current ceiling of an octant in MHz, when below the maximum
  currentAt : List (Nat × Nat)
  currentFrom : List (Nat × Nat)
  overload : List Nat                     -- octants whose current has not fallen below 171 A
  adjust : List (Nat × Int)               -- MHz by which sprint, power and temperature move an octant's wanted clock
  adjustAt : List (Nat × Nat)
  missAt : Nat                            -- time POWER_LIMIT_MISSES was last evaluated
  hot : List Nat                          -- sensors that read 115 degrees or above in the last reading
  hottest : Int                           -- hottest sensor of the last reading, degrees times 4
  dieHot : List Nat                       -- dies whose uncore sensors have not read below 102 degrees since 105
  clamps : List Nat                       -- active clamps: 65536 * LOOP + 256 * BOUND + INSTANCE
  records : List Nat                      -- POLICY_CLAMPED records, oldest first
  raw : List (Nat × Nat)                  -- last estimate from activity, by domain, 0.1 W
  offset : List (Nat × Int)               -- estimator offset, by domain, 0.1 W
  calibrated : List (Nat × Nat)           -- time of the last calibration, by domain
  quiesced : List (Nat × Nat)             -- time of the last quiesce, by domain
  quietNext : Nat                         -- domain after the one quiesced last
  countFrom : List (Nat × Nat)            -- when the count of 50 ms last restarted as a domain left LOW (R921)
  vref : List (Nat × Nat)                 -- receive threshold code, by 128 * channel + lane; 64 where not listed
  stretched : List (Nat × Nat)            -- stretched clocks in the present millisecond, by octant
  boost : List Nat                        -- octants for which DROOP has asked +5 mV
  busyAt : List (Nat × Nat)               -- time an octant's cores last held a task
  margin : List (Nat × Int)               -- last margin of an octant's critical-path monitor, mV
  deriving DecidableEq, Repr

/-- An SPDM session (R942): its number, and whether FINISH has completed it. -/
structure Session where
  id : Nat
  live : Bool
  deriving DecidableEq, Repr

/-- An SPDM responder: whether GET_VERSION, GET_CAPABILITIES and NEGOTIATE_ALGORITHMS have been answered, and its sessions. -/
structure Spdm where
  version : Bool
  caps : Bool
  algs : Bool
  sessions : List Session
  nextSession : Nat
  deriving DecidableEq, Repr

/-- Reset, boot and attestation (chapter 20). -/
structure Boot where
  inReset : Bool                          -- between a reset and RESET_RELEASE
  resetN : Bool                           -- RESET_N asserted
  cold : Bool                             -- the reset in progress is COLD
  held : Option Nat                       -- a held reset request: 1 WARM, 2 COLD (R932)
  stuck : Bool                            -- the device stays in phase ROM or in reset (R931, R1051)
  selfTestFailed : Bool                   -- R958
  watchdog : Bool                         -- the boot watchdog runs (R954)
  flash : List (Nat × Nat)                -- flash bytes that are not 0xFF, stored as 255 - byte
  flashOp : Nat                           -- running operation: 0 none, 1 READ, 2 PROGRAM, 3 ERASE
  flashAt : Nat                           -- its sector address
  running : Option Nat                    -- the slot whose image runs: 0 A, 1 B
  minSvn : Nat                            -- MIN_SVN and BOOT_TRIAL as the boot found them (R944)
  trial : Nat
  spdm : Spdm
  deriving DecidableEq, Repr

/-- A record of an observation ring (R964): KIND, STATUS, LENGTH in bytes, FTIME and the doublewords after the first two, of
which the tail may be left out when every byte of it is zero. -/
structure ClrRec where
  kind : Nat
  status : Nat
  length : Nat
  ftime : Nat
  body : List Nat
  deriving DecidableEq, Repr

/-- An armed watch (R973). -/
structure Armed where
  owner : Nat
  queue : Nat
  name : List Byte
  hash : Nat
  step : Nat
  graph : Nat
  node : Nat
  deriving DecidableEq, Repr

/-- A record the capture engine is to write (R974, R975): the watch, the matched handle with its descriptor image, the status of a
record without data (4 FULL, 5 NO_MATCH) or 0 for a capture, whether its graph ended FAILED, whether a writer or the loss of the
descriptor has ended it, the time it fired or started, whether it has started, the ring's PUT and the length it reserved, whether
GET has been asked for, and the host lines asked for and received. -/
structure Capture where
  watch : Armed
  handle : Nat
  desc : Nat
  status : Nat
  graphFailed : Bool
  torn : Bool
  stale : Bool
  time : Nat
  started : Bool
  start : Nat
  len : Nat
  asked : Bool
  hreq : List Nat
  hbuf : List (Nat × Nat × Bool)
  deriving DecidableEq, Repr

/-- PUT and GET of a watch ring (R978). -/
structure WRing where
  put : Nat
  get : Nat
  deriving DecidableEq, Repr

/-- The Clerestory (chapter 21). -/
structure Cleres where
  counters : List (Nat × Nat)             -- block * 65536 + unit * 8 + word
  put : Nat
  get : Nat
  unset : Bool                            -- R988
  sinceIrq : Nat
  staged : List ClrRec
  lost : List (Nat × Nat)                 -- records lost since the last DROPS record, by kind 1 to 4
  samples : Nat
  lastSample : Nat
  armed : List Armed
  captures : List Capture
  wrings : List (Nat × WRing)
  snap : Option ClrRec
  snapTokens : Nat                        -- tokens already given to the snapshot store
  capTokens : Nat                         -- tokens already given to the running capture
  deriving DecidableEq, Repr

/-- A request of the JT-16 on a slot's bus (R997): the message, and what it is for: 0 RELAY, 1 a write whose response nothing awaits, 2
a power-limit write, 3 the read of PKG_POWER_LIMIT before one. -/
structure TrayReq where
  msg : CantorMsg
  why : Nat
  deriving DecidableEq, Repr

/-- A slot of the tray (Tables 22.1 and 22.6). -/
structure Slot where
  pwrEn : Bool
  resetN : Bool                           -- RESET_N asserted
  valve : Bool                            -- OPEN
  present : Bool
  pgood : Bool
  fault : Bool                            -- the last power-on failed (R1003)
  answers : Bool
  untrusted : Bool
  attested : Bool
  phase : Nat                             -- BOOT_PHASE of a device that is not the modelled one, as last known
  saved : Option Nat                      -- PKG_POWER_LIMIT to restore
  retry : Bool                            -- a power-limit write is to be retried
  flow : Nat
  outlet : Int
  power : Nat
  flowFailed : Bool
  outletFailed : Bool
  powerFailed : Bool
  queue : List TrayReq                    -- requests of its bus; the first is outstanding when `sent` holds
  sent : Bool
  closing : Bool                          -- the valve closes 5 s after a leak power-off (R1002)
  leakHeld : Bool                         -- a LEAK action holds the slot (R1009)
  addr : Nat                              -- dynamic address of the bus, 0 before ENTDAA
  deriving DecidableEq, Repr

/-- A leak rope (R1001). -/
structure Rope where
  openRun : Nat                           -- consecutive readings with an open loop
  closedRun : Nat                         -- consecutive INTACT readings
  leakRun : Nat                           -- consecutive readings below 50 kilohms while INTACT
  dryRun : Nat                            -- consecutive readings above 100 kilohms
  openA : Bool
  openB : Bool
  breakAt : Nat                           -- break point in millimetres
  blind : Option Nat                      -- while BLIND stays: the nearest break point read since
  latched : List Nat                      -- segments with a latched LEAK
  acked : List Nat                        -- those for which LEAK_ACK has been received
  deriving DecidableEq, Repr

/-- An event of the JT-16: its kind, the unit concerned and two values. -/
structure TrayEvent where
  kind : Nat
  unit : Nat
  a : Nat
  b : Nat
  deriving DecidableEq, Repr

/-- An alarm condition: held, and milliseconds its entry or clear condition has held (R1000). -/
structure Cond where
  active : Bool
  ms : Nat
  deriving DecidableEq, Repr

/-- The Jalun JT-16 (chapter 22). -/
structure Tray where
  down : Bool                             -- without supply or restarting (R1015)
  slots : List (Nat × Slot)
  home : Nat                              -- the slot that holds the modelled device
  pumpCmd : Nat                           -- common pump command, percent
  pumpMax : List Bool                     -- pump at 100 % for the other's failure
  speed : List Nat
  speedFailed : Nat
  inlet : List Int
  inletFailed : Nat
  pressure : List Nat                     -- kPa times 10
  pressureFailed : Nat
  ropes : List (Nat × Rope)
  conds : List (Nat × Cond)               -- 64 * alarm row + unit
  params : List (Nat × Nat)               -- values that are not the default
  clampMax : Bool
  clampMin : Bool
  clock : Nat                             -- UTC ns
  clockSet : Bool
  boot : Nat
  count : Nat
  key : Option Nat                        -- the system management key it holds
  clones : List Nat
  receiver : Option Nat
  events : List TrayEvent                 -- kept until a receiver is set
  eventsLost : Nat
  log : List TrayEvent                    -- the 256 most recent, newest first
  eid : Nat
  beats : Nat
  serial : Nat
  upMs : Nat                              -- milliseconds since the last restart, up to 60,000
  allow : List (Nat × Nat × Nat)          -- allowlist: digests of measurement indices 1, 2 and 4
  image : Nat                             -- the image that runs: 0 A, 1 B
  staged : Bool                           -- a verified image waits for the next restart
  spdm : Spdm
  deriving DecidableEq, Repr

/-- One committed generation of the lifetime record (R1021): its number, whether its CRC verifies, and the values by store
key. -/
structure LifeGen where
  number : Nat
  ok : Bool
  values : List (Nat × Nat)
  mode : Bool
  v : Int
  p : Int
  deriving DecidableEq, Repr

/-- The crypt's lifetime record (chapter 23). -/
structure Life where
  gens : List LifeGen                     -- newest first, at most two
  peak : Bool                             -- the tracker holds a peak
  v : Int                                 -- its valley, degrees times 4; 32767 before any reading
  p : Int
  peaks : List (Nat × Int)                -- hottest reading of the present second: octant k at k, uncore die i at 8 + i
  secs : List (Nat × Nat)                 -- seconds of qualifying measurement per octant in this hour
  sums : List (Nat × Int)                 -- their sum, mV times 8
  raised : List (Nat × Nat)               -- power-on hour of the last raise per octant
  pendingRaise : List (Nat × Nat)         -- offsets that enter VSAFE at the next VOLTAGE period (R1027)
  effective : List (Nat × Nat)            -- offsets VSAFE includes
  replaced : Nat                          -- crypt blocks replaced from the spare pool (R1037)
  utcSet : Bool                           -- a UTC_SET since the last reset (R1030)
  stepped : Bool                          -- a fabric-time step since the pair was taken
  dayMin : List (Nat × Nat)               -- day's minimum worst-lane margin per link, times 8, plus its lane
  hour : Nat                              -- power-on hour of the last hourly commit
  busy : Option Nat                       -- fabric time at which the last commit ends (R1021)
  again : Bool                            -- an occasion for a commit fell during it (R1032)
  deriving DecidableEq, Repr

/-- The package (chapter 24). -/
structure Pkg where
  powered : Bool                          -- VDD_AON and VDDIO_AON in range
  strap : Nat
  pgNoted : Bool                          -- a VR_PG_d out of order has been logged since reset (R1047)
  thermtrip : Bool                        -- THERMTRIP_N pulled low
  tap : Nat                               -- instruction of the TAP, as Table 24.2's port holds it
  test : Nat                              -- test instruction in effect, or 0
  preload : Nat
  deriving DecidableEq, Repr

end Sys2Proof.Machine
end

