-- ==== Sys2Proof/Machine/StateNave.lean ====
section
/-! DEFINITION. Machine/StateNave.lean: the state of the 256 cores (chapters 2 to 6 and 8): choirs and their registers, LM, L1,
store buffers, arrival counters, barriers, the matrix unit, the instruction cache, the Lark and Starling. Data only. -/

namespace Sys2Proof.Machine

/-- One store-buffer entry (R56): slot of its choir, whether it goes to a host address, the sector (address / 32) by DPA or
host address, byte mask, data, poison, widest scope, the owner's window attributes of a DPA, the L1 hint, the PC, voices and
first virtual address of the youngest ST.G that wrote it, and how its stores came by the sector. -/
structure SbEntry where
  slot : Nat
  host : Bool
  sector : Nat
  mask : Nat
  data : Nat
  poison : Bool
  scope : Nat
  policy : Nat
  l2p : Nat
  key : Nat
  hint : Nat
  pc : Nat
  voices : Nat
  va : Nat
  vias : List Via
  deriving DecidableEq, Repr

/-- Why a choir is not ready (R35). -/
inductive Wait where
  | none
  | act (n p : Nat)                       -- ACT_WAIT
  | bar (i : Nat)                         -- BAR.SYNC
  | gbar                                  -- GBAR
  | cwait (core addr op value voices : Nat)  -- CWAIT
  | token (t : Nat)                       -- MWAIT
  | flags (t dst : Nat)                   -- MFLAGS
  | stores (rest : List SbEntry) (sc : Bool) -- a full store buffer (R58), of a seq_cst store or not
  | reissue (bytes : List (Bool × Nat × Nat)) -- a partial overlap (R61): host, first byte and length of each voice's bytes
  | load                                  -- a load whose lines have not all been served
  deriving DecidableEq, Repr

/-- One divergence-stack entry (R41). -/
structure DivEntry where
  pc : Nat
  mask : Nat
  rpc : Option Nat
  deriving DecidableEq, Repr

/-- A load from global memory in progress: destination, size, sign extension, uniform destination, the voices it acts for (all of
the executing ones when it is uniform), scope, order and hint, the voices with their addresses (host or device), the values that
have come (voice, value, poison), the line requests that L1 has not yet taken (R337), the device lines and host lines awaited, and
the invalidations begun before its translation. A voice stands with its physical and its virtual address. -/
structure LoadWait where
  dst : Nat
  size : Nat
  sext : Bool
  uni : Bool
  ex : Nat
  scope : Nat
  order : Nat
  hint : Nat
  voices : List (Nat × Bool × Nat × Nat)
  vals : List (Nat × Nat × Bool)
  todo : List L2Req
  lines : List Nat
  await : List Nat
  epoch : Nat
  deriving DecidableEq, Repr

/-- A choir (chapter 2). Voice registers have key 32 * register + voice; predicates hold one bit per voice. -/
structure Choir where
  pc : Nat
  mask : Nat
  rpc : Option Nat
  dstack : List DivEntry
  rstack : List Nat
  v : List (Nat × Nat)
  vp : List (Nat × Bool)                  -- poisoned voice registers
  u : List (Nat × Nat)
  up : List (Nat × Bool)
  p : List (Nat × Nat)                    -- predicates P1 to P7; P0 is fixed (R31)
  flags : Nat
  fpctl : Nat
  wait : Wait
  load : Option LoadWait
  deriving DecidableEq, Repr

/-- One L1 line (R313 to R316): way, valid and dirty byte masks, data, poison per sector, owner and the window attributes its
write-back carries. -/
structure L1Line where
  way : Nat
  valid : Nat
  dirty : Nat
  data : Nat
  poison : Nat
  owner : Nat
  policy : Nat
  l2p : Nat
  key : Nat
  deriving DecidableEq, Repr

/-- An outstanding L1 MSHR (R336): the request of its line, and the slots of the choirs whose loads it serves, the primary miss
first. -/
structure L1Mshr where
  req : L2Req
  slots : List Nat
  deriving DecidableEq, Repr

/-- An arrival counter (Table 2.5), with the slots of its core and the cloister cores that arrived in the current and the
previous phase (R980). -/
structure Act where
  expect : Nat
  pending : Nat
  bytes : Int
  phase : Nat
  cur : Nat
  prev : Nat
  farCur : Nat
  farPrev : Nat
  deriving DecidableEq, Repr

/-- A named barrier: the count in force in this phase (0 when none), the arrivals so far (R77), and the slots that arrived in
the current and the previous phase (R980). -/
structure Bar where
  k : Nat
  n : Nat
  cur : Nat
  prev : Nat
  deriving DecidableEq, Repr

/-- An accumulator tile (R194): tag 0 EMPTY, else 1 + accumulator format code; its edge; values by 64 * row + column. -/
structure Tile where
  tag : Nat
  edge : Nat
  vals : List (Nat × Nat)
  poison : List (Nat × Bool)
  deriving DecidableEq, Repr

/-- What a matrix instruction yields: its tile after the last step, the rows it stores (address, bytes, value, poison per
element), its flag summary, its conflicting steps (R172) and its cell-clocks with an ungated position (R190). -/
structure MatRes where
  tile : Tile
  rows : List (Nat × Nat × Nat × List Bool)
  summary : Nat
  conflicts : Nat
  active : Nat
  deriving DecidableEq, Repr

/-- A queued matrix instruction (R173, R174): token, choir slot, descriptor address, the choir's rounding mode at issue, the
PC of the MMA, the voices that executed it, the descriptor's bytes as the instruction issued with their poison (R181), the
descriptor once decoded, and what it yields once its sub-gang has started. -/
structure MatInstr where
  token : Nat
  slot : Nat
  addr : Nat
  rm : Nat
  pc : Nat
  voices : Nat
  image : Nat × Bool
  desc : Option Nat
  res : Option MatRes
  deriving DecidableEq, Repr

/-- An async copy in progress (R70): direction, source and destination addresses, length, counter (64 for none), target core,
its choir slot, the voice it copies for and the PC of its ACOPY, the host requests it has yet to send (how each came by its host
address, that address, and its length) and the pieces that have come. -/
structure Acopy where
  id : Nat
  dir : Nat
  src : Nat
  dst : Nat
  len : Nat
  act : Nat
  slot : Nat
  voice : Nat
  pc : Nat
  requested : Bool
  await : List Nat
  todo : List (Via × Nat × Nat)
  got : List (Nat × List Byte × Bool)
  deriving DecidableEq, Repr

/-- A 4 KiB page as the Lark translated it for a block (R376): page number, how it came by its physical page, that page's number, and
the attributes of its window. -/
structure LarkPage where
  v : Nat
  via : Via
  p : Nat
  policy : Nat
  l2p : Nat
  key : Nat
  deriving DecidableEq, Repr

/-- A read of the Lark: its number, its context (16 for the stream table), the block and segment offset it is for (none for a table,
list or program), virtual address and length, and its data by virtual line (line, data, poison per sector) once they have come. -/
structure LarkReq where
  id : Nat
  ctx : Nat
  blk : Option (Nat × Nat)
  va : Nat
  len : Nat
  got : Option (List (Nat × Nat × Nat))
  deriving DecidableEq, Repr

/-- A block or segment in a context's queue (R375): block number, global address, length, the segment's offset in its block
and the block's length, the block's LM destination, its DEST_OFFSET when its entry has SEQ = 0, whether it is its block's last
segment, whether its first request has issued, the requests it has yet to issue (virtual address and length, R366), the place of a
tile (tile row, column and leading index), its IN data by virtual line as read so far, the pages it was translated to, the bytes
Starling has delivered, and the Starling receivers. -/
structure Block where
  num : Nat
  addr : Nat
  len : Nat
  off : Nat
  total : Nat
  lm : Nat
  dest : Option Nat
  last : Bool
  begun : Bool
  todo : List (Nat × Nat)
  tile : Option (Nat × Nat × Nat)
  lines : List (Nat × Nat × Nat)
  pages : List LarkPage
  sent : Nat
  receivers : List Nat
  deriving DecidableEq, Repr

/-- A stream context (chapter 8). -/
structure Stream where
  record : Nat
  index : Nat
  desc : Nat                              -- descriptor image of a TILES stream
  next : Nat                              -- number of the next block
  listAt : Nat                            -- next list entry or tile
  segOff : Nat                            -- bytes of the current entry already queued (R375)
  segLm : Nat                             -- LM destination of the current entry
  cursor : Nat                            -- ring cursor (R374)
  queue : List Block
  landed : Nat
  lens : List (Nat × Nat)                 -- number and length of each block not yet counted
  entries : List Nat                      -- list entries read ahead
  prog : List Nat                         -- Bilxel program, as far as it has been read
  ready : Bool                            -- the whole program has been read and checked
  bpc : Nat
  a : List Nat                            -- A0 to A3
  c : List Nat                            -- C0 to C7
  loops : List (Nat × Nat)                -- open loops: counter and the address after LOOP
  ended : Bool                            -- END reached, or the list or box is exhausted
  deriving DecidableEq, Repr

/-- A cause that ends the task (R147), with the fault records it carries. Slot 64 stands for the Lark's streams (R410). -/
structure Exc where
  cause : Nat
  detail : Nat
  pc : Nat
  slot : Nat
  mask : Nat
  trap : Nat
  addr : Nat
  recs : List FaultRec
  deriving DecidableEq, Repr

/-- The task on a core (R22, R141). `tandem` is 0 for none, 1 on the leading core, 2 on the trailing core. -/
structure TaskRun where
  owner : Nat
  queue : Nat
  graph : Nat
  node : Nat
  order : Nat
  body : Nat                              -- the TASK packet
  choirs : Nat
  regs : Nat
  gang : Nat
  first : Nat
  tandem : Nat
  chapel : Nat
  descs : List (Nat × Nat)                -- descriptor images by slot
  groups : List (Nat × Nat)               -- Starling group by context index
  dispatch : Nat
  restartable : Bool
  delay : Nat                             -- TANDEM_DELAY as loaded at dispatch (R688, R693)
  unverified : Bool                       -- runs on without comparison (R690)
  pool : Bool                             -- dispatched in pool time (R625)
  urgent : Option Nat                     -- T of R633 until its first instruction has issued on every core of its gang
  deriving DecidableEq, Repr

/-- An update of an arrival counter (R68 to R70): ACT_INIT, an arrival with the bytes it adds and who it counts as, or a completed
transfer. -/
inductive ActOp where
  | init (e : Nat)
  | arrive (b slot far : Nat)
  | landed (len : Nat)
  deriving DecidableEq, Repr

/-- An update in the core clock that is open: core and counter, its place in the order of R73 (0 the Lark, 1 plus the stall, 8 plus
the source core), what it does, and whose exception an overflow is. -/
structure ActUpd where
  core : Nat
  idx : Nat
  rank : Nat
  op : ActOp
  src : Nat
  exc : Exc
  deriving DecidableEq, Repr

/-- A core clock of a cloister of which more than one command is told: the stalls that have issued in it (4 · core + stall), the
counter updates it holds until its end, and the exceptions raised in it: core, stall (4 the Lark and Starling, R406) and cause. -/
structure Clock where
  issued : List Nat
  upds : List ActUpd
  excs : List (Nat × Nat × Exc)
  deriving DecidableEq, Repr

/-- A core. `state` is coded as CORE_STATUS. -/
structure Core where
  state : Nat
  task : Option TaskRun                   -- the task dispatched to or running on the core
  started : Bool                          -- the choirs may issue: TASK_START has completed
  boot : Nat                              -- steps of task start done: 0 none, 1 cleared, 2 the stream records checked (R370)
  next : Option TaskRun                   -- a dispatch held until the core's abort ends (R632)
  lastOwner : Nat                         -- owner of the last task; 0x1FF for none
  scrubbed : Bool                         -- the last task was aborted, so LM is zero
  choirs : List (Nat × Choir)
  lm : List Host.Cell
  lmp : List (Nat × Bool)                 -- poisoned 8-byte LM words
  l1 : List (Nat × L1Line)                -- key the line (DPA / 128)
  l1order : List (Nat × List Nat)         -- ways by age, most recent first
  mshrs : List L1Mshr                     -- in the order they were taken
  sb : List SbEntry                       -- every stall's entries in allocation order
  icache : List (Nat × Nat)               -- line of virtual address / 128 to its 128 bytes
  acts : List (Nat × Act)
  bars : List (Nat × Bar)
  gbar : List Nat                         -- slots whose arrival at the gang barrier is counted
  acopies : List Acopy
  streams : List (Nat × Stream)
  reads : List LarkReq                    -- reads of the Lark whose data it has not used
  served : Nat                            -- context the Lark served last; 16 is the ACOPY queue (R384)
  mmq : List MatInstr
  mmIssued : Nat
  mmDone : Nat
  mmFlags : List (Nat × Nat)              -- the 16 most recent summaries
  tiles : List (Nat × Tile)
  exc : Option Exc
  resp : List (Nat × List (Nat × Nat × Bool))  -- on a leading core, responses the trailing core has yet to use: slot, and
                                          -- voice, value and poison of each (R140, R683)
  sig : Nat                               -- signature of the core's writes (R684)
  sigRef : Nat                            -- on a trailing core, the leading core's signature at the same point (R685)
  sigQ : List Nat                         -- on a leading core, signatures the trailing core has yet to reach
  writers : List (Nat × Nat)              -- last writer of a doubleword a pending CWAIT names: core + 256 * slot + 2^14
  steer : List (Nat × Nat)                -- columns awaiting steering at the next task boundary: sub-array and column (R104)
  spareUse : List (Nat × Nat)             -- spare columns used per sub-array
  last : List (Nat × Nat)                 -- slot that issued last, per stall (R36)
  quietFor : Nat                          -- consecutive quiet core clocks (R92)
  deriving DecidableEq, Repr

/-- One tracker of a corrected SRAM error (R105). -/
structure SramTrack where
  sub : Nat
  row : Nat
  col : Nat
  bit : Nat
  time : Nat
  deriving DecidableEq, Repr

/-- The nave and the Starling groups. -/
structure Nave where
  cores : List (Nat × Core)               -- cores not in their reset state
  groups : List Nat                       -- Starling groups in use: 256 * die + group
  rr : List (Nat × Nat)                   -- group served last, per die
  trackers : List (Nat × List SramTrack)  -- SRAM error trackers (R105): key the core, or 256 + the L2 slice
  clocks : List (Nat × Clock)             -- core clocks still open, by cloister
  tclk : List (Nat × Nat)                 -- the clock count of each octant as last read (R155)
  deriving DecidableEq, Repr

end Sys2Proof.Machine
end

