-- ==== Sys2Proof/Machine/State.lean ====
section
/-! DEFINITION. Machine/State.lean: the state of the block as plain data, the ways a command stops, and the state right
after reset. The object store holds every object of the dictionary that is a register of its own; objects that are views of
other state are computed when read (Machine/DictRead.lean). -/

namespace Sys2Proof.Machine

/-- What the block sends to the outside, newest first in the state (assumption 3). -/
inductive Out where
  | msix (fn vec addr data : Nat)                                     -- an MSI-X message (R528)
  | hostWrite (fn addr : Nat) (data : List Byte) (ep translated : Bool)  -- a posted write, with its address type (R476)
  | hostRead (fn addr len tag : Nat) (translated : Bool)              -- a read request, with its address type (R476)
  | cpl (fn status : Nat) (data : List Byte) (ep : Bool)              -- a completion: 0 SC, 1 UR, 2 CA
  | ats (fn addr : Nat)                                               -- ATS Translation Request
  | page (fn addr prg : Nat) (write last : Bool)                      -- PRI Page Request
  | invDone (fn tag : Nat)                                            -- ATS Invalidation Completion
  | errMsg (fn err : Nat) (fatal : Bool)                              -- an error message of AER (R540)
  | cantor (m : CantorMsg)                                            -- a Cantor message on the I3C port
  | status (s : Nat)                                                  -- dictionary status of a write command (Table 18.3)
  | mctp (type code : Nat) (body : List Byte)                         -- a response on the I3C or side-band port
  | vendor (cmd code : Nat) (body : List Byte)                        -- a JT-16 vendor response (R993)
  | slotMsg (slot : Nat) (m : CantorMsg)                              -- a JT-16 message on a slot's bus
  | trayEvent (e : TrayEvent)                                         -- a PlatformEventMessage
  | flit (link : Nat) (f : Flit)                                      -- a flit sent on a Transept link
  | mark (core slot pc value : Nat)                                   -- a MARK record (R148)
  | tdo (code : Nat)                                                  -- the identification code on TDO (R1055)
  | memData (dpa data : Nat) (poison : Bool)                          -- a sector a controller returns (R711)
  deriving DecidableEq, Repr

/-- Everything of the machine but the queue of waiting commands. -/
structure Dev where
  time : Nat                              -- fabric time in ns (R20, R774)
  free : Nat                              -- free values drawn so far (assumption 1)
  out : List Out
  objs : List (Nat × Nat)                 -- the object store
  logs : Contain
  tr : Trans
  host : HostPort
  prec : Precentor
  mem : Mem
  l2 : L2
  fab : Fabric
  dict : Dict
  power : Power
  boot : Boot
  clr : Cleres
  tray : Tray
  life : Life
  pkg : Pkg
  nave : Nave
  deriving DecidableEq, Repr

/-- The state: the machine and the commands that wait, first in, first out. -/
structure State where
  dev : Dev
  pending : List Instr
  deriving DecidableEq, Repr

/-- Why the machine stops with a fault. -/
inductive Fault where
  /-- Raised by HBM_READ and HBM_WRITE for a DPA that no die's memory holds (R704): safe. -/
  | noMemory (dpa : Nat)
  deriving DecidableEq, Repr

/-- Why a command has no meaning. -/
inductive Refusal where
  /-- Answered by the dispatcher for a command whose meaning is not written: safe. -/
  | notModelled (mnemonic : String)
  /-- Answered by every meaning for a command that is not well formed (WellFormed.lean), as one that names a core, a link or a
  tenant the device does not have: safe. -/
  | illFormed
  deriving DecidableEq, Repr

/-! ### Reset -/

/-- An SPDM responder that has answered nothing. -/
def Spdm.reset : Spdm := ⟨false, false, false, [], 1⟩

/-- An empty slot of the tray: outputs as a new latching stage holds them, the valve OPEN (R1006). -/
def Slot.reset : Slot where
  pwrEn := false
  resetN := true
  valve := true
  present := false
  pgood := false
  fault := false
  answers := false
  untrusted := false
  attested := false
  phase := 0
  saved := none
  retry := false
  flow := 0
  outlet := 0
  power := 0
  flowFailed := false
  outletFailed := false
  powerFailed := false
  queue := []
  sent := false
  closing := false
  leakHeld := false
  addr := 0

/-- The tray at reset: the JT-16 has not started, and the modelled device stands, powered, in SLOT_0. -/
def Tray.reset : Tray where
  down := true
  slots := [(0, { Slot.reset with pwrEn := true, resetN := false, present := true, pgood := true, answers := true })]
  home := 0
  pumpCmd := 30
  pumpMax := [false, false]
  speed := [0, 0]
  speedFailed := 0
  inlet := [0, 0]
  inletFailed := 0
  pressure := [0, 0]
  pressureFailed := 0
  ropes := []
  conds := []
  params := []
  clampMax := false
  clampMin := false
  clock := 0
  clockSet := false
  boot := 0
  count := 1
  key := none
  clones := []
  receiver := none
  events := []
  eventsLost := 0
  log := []
  eid := 0
  beats := 0
  serial := 0
  upMs := 60000
  allow := []
  image := 0
  staged := false
  spdm := Spdm.reset

/-- The device right after a cold reset, held in reset until RESET_RELEASE. -/
def Dev.reset : Dev where
  time := 0
  free := 0
  out := []
  objs := objDefaults
  logs := ⟨[], [], [], [], 1, [], [], []⟩
  tr := ⟨[], [], [], [], [], [], [], [], 1, 0, 0, true, false, 0, [], none⟩
  host := ⟨[], false, 0, false, true, [], [], [], 0, 128, 512, [], [], [], [], false, []⟩
  prec := ⟨⟨none, none, 0, 0, [], [], [], [], 1000000, 20, 950, 200⟩, [], [], [], 0, 0, [], [], [], [], [], []⟩
  mem := ⟨[], [], [], [], [], [], [], [], [], [], [], [], [], []⟩
  l2 := ⟨[], [], [], [], [], [], [], 0, none, [], [], [], false⟩
  fab := ⟨[], [], none, [], 0, 0, 0, false, [], 0, [], []⟩
  dict := ⟨[], [], [], [], [], [], 1, [], [], [], [], 0, [], [], []⟩
  power := ⟨[], [], [], [], [], [], [], [], [], [], [], [], [], 0, [], 0, [], [], [], [], [], [], [], 2, [], [], [], [], [], []⟩
  boot := ⟨true, false, true, none, false, false, false, [], 0, 0, none, 0, 0, Spdm.reset⟩
  clr := ⟨[], 0, 0, true, 0, [], [], 0, 0, [], [], [], none, 0, 0⟩
  tray := Tray.reset
  life := ⟨[], false, 32767, 0, [], [], [], [], [], [], 0, false, false, [], 0, none, false⟩
  pkg := ⟨true, 0, false, false, 0, 0, 0⟩
  nave := ⟨[], [], [], [], [], []⟩

/-- The machine right after reset. -/
def State.reset : State := ⟨Dev.reset, []⟩

end Sys2Proof.Machine
end

