-- ==== Sys2Proof/Machine/Base.lean ====
section
/-! DEFINITION. Machine/Base.lean: the operations everything else rests on: objects, free values, outputs, functions and
their MSI-X events, host reads and writes, and the writing of error logs. -/

namespace Sys2Proof

/-- A request is one the network can carry: its address lies in the 2^48 bytes of DPA space, and each field in its range. -/
def L2Req.ok (r : L2Req) : Bool :=
  r.dpa < 2 ^ 48 && r.dpa % 128 = 0 && (r.requester ≤ 260 || r.requester = 516) && r.owner ≤ 256 && r.mask < 2 ^ 128 && r.data < 2 ^ 1024 &&
    r.poison < 16 && r.policy ≤ 2 && r.l2p < 16 && r.key ≤ 512

/-- An error of a generator names a burst of a pseudo-channel and bits of it. -/
def TgErr.ok (e : TgErr) : Bool := e.pc < 2 && e.diff < 2 ^ 288

/-- The path names a tenant or a chip there can be (R839, R765). -/
def Path.ok : Path → Bool
  | .ht t => decide (t < 256)
  | .fp c => decide (c < 4096)
  | _ => true

end Sys2Proof

namespace Sys2Proof.Machine

/-- Carry out an effect on the device, the queue of commands apart. -/
def State.run (s : State) (f : Dev → Dev) : Host.Outcome State Fault Refusal := .next { s with dev := f s.dev }

/-- Carry out an effect when the command is well formed. -/
def State.runIf (s : State) (ok : Bool) (f : Dev → Dev) : Host.Outcome State Fault Refusal :=
  if ok then s.run f else .refused .illFormed

/-! ### Objects, free values, outputs -/

/-- The value of object store key `k` (R836). -/
def Dev.oget (d : Dev) (k : Nat) : Nat := dget (objUnlisted k) d.objs k

/-- Set object store key `k`. -/
def Dev.oset (d : Dev) (k v : Nat) : Dev := { d with objs := dset (objUnlisted k) d.objs k v }

/-- Add `n` to an object. -/
def Dev.oadd (d : Dev) (k n : Nat) : Dev := d.oset k (d.oget k + n)

/-- Count one event in an object. -/
def Dev.oinc (d : Dev) (k : Nat) : Dev := d.oadd k 1

/-- The value of a free draw: `n` bits that the spec leaves open (assumption 1). -/
def Dev.freeBits (d : Dev) (n : Nat) : Nat := Config.freeValue d.free % 2 ^ n

/-- Consume one free draw. -/
def Dev.freed (d : Dev) : Dev := { d with free := d.free + 1 }

/-- Add `n` to word `word` of unit `unit` of a counter block: 0 CORE, 1 SLICE, 2 CHANNEL, 3 LINK (R960). -/
def Dev.count (d : Dev) (block unit word n : Nat) : Dev :=
  let k := block * 65536 + unit * 8 + word
  { d with clr := { d.clr with counters := dset 0 d.clr.counters k (dget 0 d.clr.counters k + n) } }

/-- Send `o` to the outside. -/
def Dev.emit (d : Dev) (o : Out) : Dev := { d with out := o :: d.out }

/-- The device is in DEVICE_FAILED (R676). -/
def Dev.failed (d : Dev) : Bool := d.oget O.DEVICE_STATUS = 1

/-- Power domain `x` is in a quiesce of 2 µs, in which it issues nothing new (R912). -/
def Dev.quiescing (d : Dev) (x : Nat) : Bool :=
  match mget d.power.quiesced x with
  | some t => decide (t ≤ d.time) && decide (d.time < t + 2000)
  | none => false

/-! ### Functions and MSI-X -/

/-- The uncorrectable errors that are fatal by default (Table 11.13): Data Link Protocol Error 4, Flow Control Protocol Error 13, Receiver
Overflow 17, Malformed TLP 18 and Uncorrectable Internal Error 22. -/
def aerSevDefault : Nat := 2 ^ 4 + 2 ^ 13 + 2 ^ 17 + 2 ^ 18 + 2 ^ 22

/-- A function in its reset configuration (R532). -/
def Func.reset : Func := ⟨false, false, false, false, false, 0, false, 0, aerSevDefault, [], []⟩

/-- Function `fn`: 0 is the PF, t + 1 is VF t. -/
def Dev.func (d : Dev) (fn : Nat) : Func := dget Func.reset d.host.funcs fn

/-- Set function `fn`. -/
def Dev.setFunc (d : Dev) (fn : Nat) (f : Func) : Dev :=
  { d with host := { d.host with funcs := dset Func.reset d.host.funcs fn f } }

/-- The state of function `fn` (Table 11.11), coded as FUNCTION_STATE. -/
def Dev.funcState (d : Dev) (fn : Nat) : Nat :=
  let f := d.func fn
  if fn ≠ 0 && (!d.host.vfEnable || d.host.numVfs ≤ fn - 1) then 0
  else if f.inFlr then 3
  else if fn = 0 && d.host.d3hot then 4
  else if f.busMaster then 1 else 2

/-- The function of an owner: the PF for the kernel, VF t for T_t. -/
def fnOf (owner : Nat) : Nat := if owner = 256 then 0 else owner + 1

/-- Entry `vec` of a function's MSI-X table; vectors are masked at reset. -/
def Func.entry (f : Func) (vec : Nat) : MsixEntry := dget ⟨0, 0, true⟩ f.table vec

/-- Send the message of vector `vec` as its table entry stands (R530). -/
def Dev.sendMsix (d : Dev) (fn vec : Nat) : Dev :=
  let e := (d.func fn).entry vec
  d.emit (.msix fn vec e.addr e.data)

/-- An event on vector `vec` of function `fn` (R530, R531, R533, R534). -/
def Dev.msix (d : Dev) (fn vec : Nat) : Dev :=
  let f := d.func fn
  let st := d.funcState fn
  if !f.msixEnable || st = 0 || st = 3 then d.oinc O.MSIX_SUPPRESSED
  else if (f.entry vec).masked || f.funcMask || !f.busMaster || d.host.d3hot then
    d.setFunc fn { f with pba := if f.pba.contains vec then f.pba else vec :: f.pba }
  else d.sendMsix fn vec

/-- Send a posted write in payloads of at most Max Payload Size (R526). -/
def Dev.sendWrite (d : Dev) (fn addr : Nat) (bs : List Byte) (ep tr : Bool) : Nat → Dev
  | 0 => d
  | f + 1 =>
    if bs.length ≤ d.host.mps then d.emit (.hostWrite fn addr bs ep tr)
    else Dev.sendWrite (d.emit (.hostWrite fn addr (bs.take d.host.mps) ep tr)) fn (addr + d.host.mps) (bs.drop d.host.mps) ep tr f

/-- An access of the kernel to host memory that no window carries: a ring in host memory. -/
def Via.ring : Via := ⟨256, 0, 0, true, false, 0⟩

/-- The function of an access. -/
def Via.fn (v : Via) : Nat := fnOf v.owner

/-- The access `k` bytes on. -/
def Via.plus (v : Via) (k : Nat) : Via := { v with va := v.va + k, u := if v.host then v.u + k else v.u }

/-- A posted write; it waits in order while Bus Master Enable is 0 (R533, R545). -/
def Dev.postWrite (d : Dev) (v : Via) (addr : Nat) (bs : List Byte) (ep : Bool) : Dev :=
  if (d.func v.fn).busMaster then d.sendWrite v.fn addr bs ep v.cached (bs.length + 1)
  else { d with host := { d.host with held := d.host.held ++ [⟨v.fn, addr, bs, ep, v⟩] } }

/-- Send the host reads that wait, in arrival order, up to HOST_OUTSTANDING_MAX in flight (R527). -/
def Dev.hostReadsGo (d : Dev) : Nat → Dev
  | 0 => d
  | f + 1 =>
    if d.oget O.HOST_OUTSTANDING_MAX ≤ (d.host.reads.filter (·.sent)).length then d
    else
      match d.host.reads.find? fun r => !r.sent && !r.abandoned && (d.func r.fn).busMaster with
      | none => d
      | some r =>
        let d := { d with host := { d.host with reads := d.host.reads.map fun (x : HostRead) => if x.tag = r.tag then { x with sent := true } else x } }
        Dev.hostReadsGo (d.emit (.hostRead r.fn r.addr r.len r.tag r.via.cached)) f

/-- A host-memory read request (R526, R527); its data comes with HOST_COMPLETION. `use` and `arg` say what it is for. -/
def Dev.hostReadReq (d : Dev) (v : Via) (addr len use arg : Nat) : Dev :=
  let t := d.host.nextTag
  Dev.hostReadsGo { d with host := { d.host with reads := d.host.reads ++ [HostRead.mk t v.fn addr len use arg v false false],
                                                 nextTag := (t + 1) % 16384 } } 2

/-- Log an uncorrectable AER error of a function, numbered as the bits of the AER status registers, and report it by its severity unless it
is masked; the header of an offending TLP is recorded while fewer than four are, and else the PF logs Header Log Overflow, the correctable
error 15 (R540; Table 11.13). -/
def Dev.aer (d : Dev) (fn e : Nat) (h : Option TlpHeader) : Dev :=
  let d := { d with host := { d.host with aer := d.host.aer ++ [(fn, e)] } }
  let f := d.func fn
  if bit f.aerMask e then d
  else
    let d := d.emit (.errMsg fn e (bit f.aerSev e))
    match h with
    | none => d
    | some h =>
      if (d.host.headers.filter fun x => x.fn = fn).length < 4 then
        { d with host := { d.host with headers := d.host.headers ++ [{ h with fn := fn, err := e }] } }
      else { d with host := { d.host with aer := d.host.aer ++ [(0, 32 + 15)] } }

/-- Software clears errors of a function in a status register: uncorrectable ones from `lo` 0, correctable ones from 32; their headers
make room. -/
def Dev.aerClear (d : Dev) (fn lo v : Nat) : Dev :=
  let gone := fun (g e : Nat) => decide (g = fn) && decide (lo ≤ e) && decide (e < lo + 32) && bit v (e - lo)
  { d with host := { d.host with aer := d.host.aer.filter fun e => !gone e.1 e.2,
                                 headers := d.host.headers.filter fun h => !gone h.fn h.err } }

/-- Raise the PF vector of a tenant's group (Table 11.9). -/
def Dev.groupVector (d : Dev) (t : Nat) : Dev := d.msix 0 (32 + t / 8)

/-! ### Error logs (R666) -/

/-- The empty log. -/
def ErrLog.empty : ErrLog := ⟨[], 0, 0⟩

/-- Log `i`. -/
def Dev.errLog (d : Dev) (i : Nat) : ErrLog := dget ErrLog.empty d.logs.logs i

/-- Write an entry to log `i`: a log of 16 entries keeps its first 15 and the newest (R666). -/
def ErrLog.write (l : ErrLog) (e : LogEntry) : ErrLog :=
  let e := { e with seq := l.seq }
  if l.entries.length < 16 then { l with entries := l.entries ++ [e], seq := (l.seq + 1) % 65536 }
  else { entries := l.entries.take 15 ++ [e], overflow := l.overflow + 1, seq := (l.seq + 1) % 65536 }

/-- Write an entry to log `i` of the device. -/
def Dev.writeLog (d : Dev) (i : Nat) (e : LogEntry) : Dev :=
  { d with logs := { d.logs with logs := dset ErrLog.empty d.logs.logs i ((d.errLog i).write e) } }

/-- A NOTE entry of the device, of no owner, with no event beside it. -/
def Dev.logNote (d : Dev) (cause detail eng addr : Nat) : Dev :=
  d.writeLog 256 ⟨d.time, 0, 0, 0, 0x1FF, eng, addr, 0, 0, false, false, false, false, .note, detail, cause⟩

/-- A cause of a failed window, permission or page check counts as a violation (R657, R702). -/
def Dev.violated (d : Dev) (cause : Nat) : Dev := if 1 ≤ cause && cause ≤ 3 then d.oinc O.VIOLATIONS else d

/-- The chip's ID is valid (R765). -/
def Dev.idValid (d : Dev) : Bool := d.oget O.CHIP_ID_VALID = 1

end Sys2Proof.Machine
end

