-- ==== Sys2Proof/Machine/Router.lean ====
section
/-! DEFINITION. Machine/Router.lean: flits, credits, the sending of packets over the Transept links, and the router with its ERROR
packets (R753 to R770, R784, R789). A packet is sent whole once its VC has a credit for each of its flits and the replay buffer
has room. -/

namespace Sys2Proof.Machine

/-! ### Flits -/

/-- The link header of a flit (Table 16.5). -/
def flitHeader (f : Flit) : Nat :=
  f.vc % 8 + f.type % 16 * 2 ^ 8 + f.crShared % 256 * 2 ^ 16 + f.crCount % 256 * 2 ^ 24 + f.crVc % 8 * 2 ^ 36 + b2n f.nak * 2 ^ 39 +
  f.ack % 4096 * 2 ^ 40 + f.seq % 4096 * 2 ^ 52

/-- The CRC a flit must carry. -/
def flitCheck (f : Flit) : Nat := crc64 (2 ^ 64 - 1) (leBytes 8 (flitHeader f) ++ f.body)

/-- A list of bytes filled with zero to `n`. -/
def padBytes (n : Nat) (bs : List Byte) : List Byte := (bs ++ List.replicate (n - bs.length) 0).take n

/-- The route header of a packet (Table 16.7). -/
def fpHeader (p : FPacket) : Nat :=
  p.dest % 4096 + p.src % 4096 * 2 ^ 12 + b2n p.neighbour * 2 ^ 24 + p.flits % 256 * 2 ^ 32 + p.cls % 256 * 2 ^ 40 +
  p.flow % 256 * 2 ^ 48 + p.hops % 128 * 2 ^ 56 + p.owner % 512 * 2 ^ 64

/-- Flits a packet of `n` content bytes takes (R763). -/
def flitsFor (n : Nat) : Nat := if n ≤ 224 then 1 else 1 + cdiv (n - 224) 240

/-- The flit bodies of a packet. -/
def fpBodies (p : FPacket) : List (List Byte) :=
  let all := padBytes (240 * p.flits) (leBytes 16 (fpHeader p) ++ p.content)
  (rangeFrom 0 p.flits).map fun i => (all.drop (240 * i)).take 240

/-- The packet whose bodies are these bytes. -/
def packetOf (bs : List Byte) : FPacket :=
  let h := leNat (bs.take 16)
  ⟨bits h 64 9, bits h 56 7, bits h 48 8, bits h 40 8, bits h 32 8, bit h 24, bits h 12 12, bits h 0 12,
    bits h 25 7 + bits h 63 1 * 128 + bits h 73 55 * 256, bs.drop 16⟩

/-! ### Links -/

/-- A link at reset. -/
def Link.reset : Link :=
  { signal := false, fails := [], txSeq := 0, rxAck := 4095, nak := false, asked := false, replay := [], replaySeq := 0,
    replayRun := 0, ded := [0, 0, 0, 0, 0, 0, 0, 0], shared := 0, rxDed := [0, 0, 0, 0, 0, 0, 0, 0], rxShared := 0,
    owed := [0, 0, 0, 0, 0, 0, 0, 0], owedShared := 0, parts := [], waiting := [], lastVc := 7,
    lastIn := [20, 20, 20, 20, 20, 20, 20, 20], sinceHi := 15, partner := none, seen := false, told := false, asym := 0, txTimes := [],
    echoTx := 0, echoRx := 0, echoValid := false, exchange := 0, skips := 0, uncorr := [],
    presets := [0, 0, 0, 0, 0, 0, 0, 0], want := [0, 0, 0, 0, 0, 0, 0, 0], token := 0, ctle := [0, 0, 0, 0, 0, 0, 0, 0], dfe := [] }

/-- The power domain of a link: PD_12 north, PD_13 south. -/
def linkDomain (l : Nat) : Nat := if l < 10 then 12 else 13

/-- Link `l`. -/
def Dev.link (d : Dev) (l : Nat) : Link := dget Link.reset d.fab.links l

/-- Change link `l`. -/
def Dev.onLink (d : Dev) (l : Nat) (f : Link → Link) : Dev :=
  { d with fab := { d.fab with links := dset Link.reset d.fab.links l (f (d.link l)) } }

/-- The link is UP. -/
def Dev.up (d : Dev) (l : Nat) : Bool := l < 20 && d.oget (O.LINK_STATE l) = 3

/-- ENGINE of a link in a log entry (Table 14.6). -/
def linkEng (l : Nat) : Nat := 0x8000 + l

/-- Element `i` of a list of numbers. -/
def at0 (l : List Nat) (i : Nat) : Nat := (l[i]?).getD 0

/-- The credit return a link's next flit carries: VC, dedicated credits and shared credits. -/
def Link.returns (k : Link) : Nat × Nat × Nat :=
  let v := ((rangeFrom 0 8).find? fun v => at0 k.owed v ≠ 0).getD 0
  (v, min 255 (at0 k.owed v), min 255 k.owedShared)

/-- VC_0 and VC_7 have the priority of R762. -/
def hiVc (v : Nat) : Bool := v = 0 || v = 7

/-- Send one flit; every flit carries the acknowledgement and credit returns (R754), and a sequenced one is kept for replay. -/
def Dev.flitOut (d : Dev) (l type vc : Nat) (body : List Byte) : Dev :=
  let k := d.link l
  let (v, n, s) := k.returns
  let sequenced := type ≠ 0 && type ≠ 5
  let f : Flit := ⟨if sequenced then k.txSeq else 0, k.rxAck, k.nak, v, n, s, type, vc, padBytes 240 body, 0, 0, false⟩
  let f := { f with crc := flitCheck f }
  let d := d.onLink l fun k =>
    { k with owed := setAt k.owed v (at0 k.owed v - n), owedShared := k.owedShared - s,
             txSeq := if sequenced then (k.txSeq + 1) % 4096 else k.txSeq,
             replay := if sequenced then k.replay ++ [(d.time, f)] else k.replay }
  let d := if sequenced then d.oinc (O.TX_FLITS l) else d
  let d := if 1 ≤ type && type ≤ 4 then (d.count 3 l 0 1).count 3 l 2 (b2n (hiVc vc)) else d
  d.emit (.flit l f)

/-- The sender holds the credits for a packet's flits on its VC, and the replay buffer has room (R755, R760). -/
def Link.canSend (k : Link) (q : QPacket) : Bool :=
  q.p.flits ≤ at0 k.ded q.vc + k.shared && k.replay.length + q.p.flits ≤ 512

/-- The packet a link sends next (R761, R762): VC_0 and VC_7 first after fifteen other flits, otherwise the other VCs in
round-robin order; within a VC, inputs in round-robin order, each oldest first. -/
def Link.choose (k : Link) : Option QPacket :=
  let ofVc := fun (v : Nat) =>
    let qs := k.waiting.filter fun q => q.vc = v
    let ins := (rangeFrom 1 21).map fun i => (at0 k.lastIn v + i) % 21
    match ins.findSome? fun i => qs.find? fun q => q.input = i with
    | some q => if k.canSend q then some q else none
    | none => none
  let order := (rangeFrom 1 8).map fun i => (k.lastVc + i) % 8
  let hi := (order.filter hiVc).findSome? ofVc
  let lo := (order.filter fun v => !hiVc v).findSome? ofVc
  if 15 ≤ k.sinceHi then (match hi with | some q => some q | none => lo) else (match lo with | some q => some q | none => hi)

/-- Remove the first element that satisfies a test. -/
def dropFirst {α : Type} (p : α → Bool) : List α → List α
  | [] => []
  | x :: xs => if p x then xs else x :: dropFirst p xs

/-- Credits of an input's receive buffer become due for return (R760). -/
def Dev.creditBack (d : Dev) (l vc ded shr : Nat) : Dev :=
  if 20 ≤ l then d
  else d.onLink l fun k =>
    { k with owed := setAt k.owed vc (at0 k.owed vc + ded), owedShared := k.owedShared + shr,
             rxDed := setAt k.rxDed vc (at0 k.rxDed vc - ded), rxShared := k.rxShared - shr }

/-- Send the flits of one packet. -/
def Dev.packetOut (d : Dev) (l : Nat) (q : QPacket) : Dev :=
  let n := q.p.flits
  let d := d.onLink l fun k =>
    let useDed := min n (at0 k.ded q.vc)
    { k with waiting := dropFirst (fun x => x = q) k.waiting, ded := setAt k.ded q.vc (at0 k.ded q.vc - useDed),
             shared := k.shared - (n - useDed), lastVc := q.vc, lastIn := setAt k.lastIn q.vc q.input,
             sinceHi := if hiVc q.vc then 0 else k.sinceHi + n }
  let d := ((fpBodies q.p).zipIdx).foldl (fun d (e : List Byte × Nat) =>
    d.flitOut l (if n = 1 then 4 else if e.2 = 0 then 1 else if e.2 + 1 = n then 3 else 2) q.vc e.1) d
  d.creditBack q.input q.inVc q.ded q.shr

/-- Send every packet that can be sent; in a quiesce a link sends only IDLE and TIME flits (R912). -/
def Dev.pump (d : Dev) (l : Nat) : Nat → Dev
  | 0 => d
  | f + 1 =>
    if !d.up l || d.quiescing (linkDomain l) then d
    else match (d.link l).choose with
      | none => d
      | some q => Dev.pump (d.packetOut l q) l f

/-- Send IDLE flits until no credit is owed (R756). -/
def Dev.settle (d : Dev) (l : Nat) : Nat → Dev
  | 0 => d
  | f + 1 =>
    if !d.up l then d
    else
      let k := d.link l
      if k.owedShared = 0 && k.owed.all (· = 0) then d else Dev.settle (d.flitOut l 0 0 []) l f

/-- Send what waits for a link, and return the credits this frees on the inputs. -/
def Dev.drive (d : Dev) (l : Nat) : Dev :=
  let ins := ((d.link l).waiting.map (·.input)).eraseDups
  let d := d.pump l ((d.link l).waiting.length + 1)
  ins.foldl (fun d i => d.settle i 16) d

/-- The links whose packets wait go on. -/
def Dev.linksGo (d : Dev) : Dev := d.fab.links.foldl (fun d e => if e.2.waiting.isEmpty then d else d.drive e.1) d

/-- Over `ns` nanoseconds, a link that has packets and no credit to send them counts its clocks of 25/32 GHz (Tables 16.14, 21.2). -/
def Dev.creditStalls (d : Dev) (ns : Nat) : Dev :=
  d.fab.links.foldl (fun (d : Dev) (e : Nat × Link) =>
    if d.up e.1 && !e.2.waiting.isEmpty && e.2.choose.isNone then
      (d.oadd (O.CREDIT_STALL_CLOCKS e.1) (ns * 25 / 32)).count 3 e.1 3 (ns * 25 / 32)
    else d) d

/-! ### The router -/

/-- Base VC of a class (Table 16.6). -/
def baseVc (cls : Nat) : Nat := match cls with
  | 0 => 0
  | 1 => 1
  | 3 => 3
  | _ => 2

/-- VC of a packet by its class and the entry's HIGH (R768). -/
def vcOf (cls : Nat) (high : Bool) : Nat :=
  if !high || cls = 3 then baseVc cls else match cls with
    | 0 => 7
    | 1 => 5
    | _ => 6

/-- The output port of a packet (R767, R784): the port, or the port it could not use. -/
def Dev.outPort (d : Dev) (e : Nat) (p : FPacket) : Nat ⊕ Nat :=
  let a := bits e 0 5
  let b := bits e 10 5
  let pick := if bit e 30 && ((p.src ^^^ p.flow) % 2 = 1) then b else a
  let other := if pick = a then b else a
  if d.up pick then .inl pick
  else if bit e 30 && d.up other then .inl other
  else if p.cls = 0 && bit e 28 && d.up (bits e 20 5) then .inl (bits e 20 5)
  else .inr pick

/-- The ERROR packet for a dropped packet (R770, Table 16.17). -/
def Dev.errorPacket (d : Dev) (p : FPacket) (cause reason port : Nat) : FPacket :=
  { owner := p.owner, hops := 0, flow := p.flow, cls := 4, flits := 1, neighbour := false, src := d.oget O.CHIP_ID, dest := p.src,
    rsv := 0,
    content := leBytes 8 (cause + reason * 2 ^ 8 + (d.oget O.CHIP_ID + b2n d.idValid * 2 ^ 15) * 2 ^ 16 + port * 2 ^ 32) ++
      leBytes 16 (fpHeader p) ++ padBytes 16 p.content }

/-- Put a packet in the queue of a link. -/
def Dev.queueOn (d : Dev) (l vc input inVc ded shr : Nat) (p : FPacket) : Dev :=
  (d.onLink l fun k => { k with waiting := k.waiting ++ [QPacket.mk vc input inVc ded shr p] }).drive l

/-- Deliver a packet locally. -/
def Dev.localPacket (d : Dev) (input : Nat) (p : FPacket) : Dev := { d with fab := { d.fab with inbox := d.fab.inbox ++ [(input, p)] } }

/-- Count a drop, and log the first in each 1 ms (R769). -/
def Dev.dropCount (d : Dev) (cause reason port : Nat) : Dev :=
  let d := d.oinc O.ROUTE_DROPS
  let due := match d.fab.dropAt with
    | none => true
    | some t => decide (t + 1000000 ≤ d.time)
  if due then
    Dev.logNote { d with fab := { d.fab with dropAt := some d.time } } cause reason (if port < 20 then linkEng port else linkEng 0) 0
  else d

/-- What a drop answers with: an ERROR packet to the source (R769, R770). -/
def Dev.wantsError (d : Dev) (p : FPacket) : Bool := d.idValid && !p.neighbour && (p.cls = 0 || p.cls = 1 || p.cls = 3)

/-- Where the router sends a packet that is not for this chip (R766 steps 3 to 5): an output and a VC, or a cause, a reason and a
port. -/
def Dev.forward (d : Dev) (p : FPacket) : (Nat × Nat) ⊕ (Nat × Nat × Nat) :=
  if !d.idValid then .inr (0x38, 1, 255)
  else if 64 ≤ p.hops then .inr (0x38, 2, 255)
  else
    let e := d.oget (O.ROUTE_TABLE p.dest)
    if !bit e 31 then .inr (0x38, 1, 255)
    else match d.outPort e p with
      | .inl l => .inl (l, vcOf p.cls (bit e 29))
      | .inr l => .inr (0x0F, 1, if l < 20 then l else 255)

/-- Send an ERROR packet; one that cannot be routed is dropped silently and counted. -/
def Dev.sendError (d : Dev) (p : FPacket) (cause reason port : Nat) : Dev :=
  if !d.wantsError p then d
  else
    let e := d.errorPacket p cause reason port
    if e.dest = d.oget O.CHIP_ID then (d.oinc O.ERROR_PACKETS).localPacket 20 e
    else match d.forward e with
      | .inl (l, vc) => (d.oinc O.ERROR_PACKETS).queueOn l vc 20 0 0 0 { e with hops := 1 }
      | .inr _ => d.oinc O.ROUTE_DROPS

/-- Drop a packet (R769). -/
def Dev.dropPacket (d : Dev) (p : FPacket) (cause reason port : Nat) : Dev :=
  (d.dropCount cause reason port).sendError p cause reason port

/-- A field of the route header is reserved or out of its range (R764). -/
def fpBad (p : FPacket) : Bool := p.rsv ≠ 0 || 64 < p.hops || 4 < p.cls || p.flits = 0 || 32 < p.flits

/-- Act on a packet that arrived over a link, holding receive buffer credits, or that the chip originates (R764 to R766). -/
def Dev.route (d : Dev) (input inVc ded shr : Nat) (p : FPacket) : Dev :=
  let back := fun (d : Dev) => (d.creditBack input inVc ded shr).settle input 16
  if fpBad p then back (d.logNote 0x0B 0 (linkEng (input % 20)) 0)
  else if (p.neighbour && input < 20) || (d.idValid && p.dest = d.oget O.CHIP_ID) then back (d.localPacket input p)
  else match d.forward p with
    | .inl (l, vc) => (d.count 3 l 7 (b2n (input < 20))).queueOn l vc input inVc ded shr { p with hops := p.hops + 1 }
    | .inr (c, r, port) => back (d.dropPacket p c r port)

/-- The chip originates a packet: its ID as SRC, or 0 while the ID is not valid (R765). -/
def Dev.originate (d : Dev) (p : FPacket) : Dev :=
  d.route 20 0 0 0 { p with src := if d.idValid then d.oget O.CHIP_ID else 0, hops := 0, flits := flitsFor p.content.length }

/-- The chip originates a NEIGHBOUR packet on a link (R766); on a link that is not UP it is dropped and counted. -/
def Dev.originateOn (d : Dev) (l : Nat) (p : FPacket) : Dev :=
  let p := { p with src := if d.idValid then d.oget O.CHIP_ID else 0, hops := 1, neighbour := true, flits := flitsFor p.content.length }
  if d.up l then d.queueOn l (vcOf p.cls false) 20 0 0 0 p else d.dropCount 0x0F 1 l

end Sys2Proof.Machine
end

