-- ==== Sys2Proof/Machine/Ops.lean ====
section
/-! DEFINITION. Machine/Ops.lean: the named operations the meanings share: Cantor messages and NOTIFY, the raising of errors and
their handling, device memory and the L2. -/

namespace Sys2Proof.Machine

/-! ### Cantor messages (chapter 18) -/

/-- The 32-byte header of a message (Table 18.8); the reserved bits stand in `rsv`, lowest first. -/
def cantorHeader (m : CantorMsg) : Nat :=
  bits m.rsv 0 40 * 2 ^ 24 + bits m.rsv 40 10 * 2 ^ 96 + bits m.rsv 50 4 * 2 ^ 123 + bits m.rsv 54 1 * 2 ^ 184 +
  m.dest + m.src * 2 ^ 12 + m.echo * 2 ^ 64 + m.destEp * 2 ^ 106 + m.srcEp * 2 ^ 108 + m.origin * 2 ^ 110 +
  m.lastPart * 2 ^ 112 + m.part * 2 ^ 116 + m.op * 2 ^ 120 + b2n m.resp * 2 ^ 127 + m.count * 2 ^ 128 + m.boot * 2 ^ 160 +
  m.status * 2 ^ 176 + m.byte * 2 ^ 185 + m.length * 2 ^ 188 + m.sub * 2 ^ 200 + m.index * 2 ^ 208 + m.offset * 2 ^ 224

/-- The tag of a message under key `key`: the first 128 bits of the HMAC (R856), as the number whose highest byte comes first (R4). -/
def cantorMac (m : CantorMsg) (key : Nat) : Nat :=
  Config.hmac384 key (leBytes 32 (cantorHeader m) ++ m.payload) / 2 ^ 256 % 2 ^ 128

/-- The empty message, from which messages are built. -/
def cantorZero : CantorMsg :=
  ⟨0, 0, 0, 0, 0, 0, 0, 0, 0, false, 0, 0, 0, 0, 0, 0, 0, 0, 0, [], 0⟩

/-- CANTOR_KEY_STATE is LOADED. -/
def Dev.keyLoaded (d : Dev) : Bool := d.oget O.CANTOR_KEY_STATE = 1

/-- The JT-16's event list takes an event (R992): without a receiver it keeps 64, and the oldest beyond them is discarded and counted. -/
def Tray.event (t : Tray) (e : TrayEvent) : Tray :=
  let t := { t with log := (e :: t.log).take 256 }
  if t.receiver.isSome || t.events.length < 64 then { t with events := t.events ++ [e] }
  else { t with events := t.events.drop 1 ++ [e], eventsLost := min (t.eventsLost + 1) 65535 }

/-- Kind of a relayed NOTIFY among the JT-16's events (R999); alarms have the number of their row in Table 22.5. -/
def evNotify : Nat := 32

/-- A slot of the tray. -/
def Dev.slot (d : Dev) (n : Nat) : Slot := dget Slot.reset d.tray.slots n

/-- Change a slot of the tray. -/
def Dev.onSlot (d : Dev) (n : Nat) (f : Slot → Slot) : Dev :=
  { d with tray := { d.tray with slots := dset Slot.reset d.tray.slots n (f (d.slot n)) } }

/-- A parameter of the JT-16 as Table 22.7 gives it before any PARAM_SET: flow in L/min times 100, watts, degrees, kPa, percent,
millimetres, seconds and milliseconds. -/
def paramDefault (id : Nat) : Nat :=
  match id with
  | 0x01 => 120
  | 0x02 => 600
  | 0x03 => 45
  | 0x04 => 48
  | 0x05 => 150
  | 0x06 => 30
  | 0x07 => 100
  | 0x08 => 1
  | 0x09 => 380
  | 0x0A => 30
  | 0x60 => 60
  | 0x61 => 50
  | _ => 0

/-- A parameter of the JT-16. -/
def Tray.param (t : Tray) (id : Nat) : Nat := dget (paramDefault id) t.params id

/-- A WRITE of PKG_POWER_LIMIT to a slot's device (Table 22.5). -/
def Tray.limitWrite (t : Tray) (n v : Nat) : CantorMsg :=
  { cantorZero with dest := t.param (0x50 + n), srcEp := 1, origin := 1, op := 2, index := 0x2018, length := 7, payload := leBytes 8 v }

/-- A response on the bus of a slot answers the request outstanding on it (R997): a RELAY returns it to the tray host, a power-limit
write that failed is to be retried, and PKG_POWER_LIMIT as read is saved before it is lowered (R1000). -/
def Dev.trayAnswer (d : Dev) (n : Nat) (m : CantorMsg) : Dev :=
  match (d.slot n).queue with
  | [] => d
  | q :: qs =>
    if !(d.slot n).sent then d
    else
      let d := if m.part = m.lastPart then d.onSlot n fun s => { s with queue := qs, sent := false } else d
      match q.why with
      | 0 => d.emit (.vendor 2 (if m.status = 0 then 0 else 6)
          ((if m.status = 0 then [] else [BitVec.ofNat 8 m.status]) ++ leBytes 32 (cantorHeader m) ++ m.payload))
      | 2 => d.onSlot n fun s => { s with retry := m.status ≠ 0 }
      | 3 =>
        if m.status = 0 then
          let w : TrayReq := ⟨d.tray.limitWrite n (d.tray.param 2), 2⟩
          d.onSlot n fun s => { s with saved := some (s.saved.getD (leNat m.payload % 65536)), queue := w :: qs }
        else d.onSlot n fun s => { s with retry := true }
      | _ => d

/-- A message leaves on the I3C port: the JT-16 takes it, a NOTIFY as an event (R999), a response as the answer to its request. -/
def Dev.toTray (d : Dev) (m : CantorMsg) : Dev :=
  let d := d.emit (.cantor m)
  if d.tray.down then d
  else if m.resp then d.trayAnswer d.tray.home m
  else if m.op = 4 then { d with tray := d.tray.event ⟨evNotify, d.tray.home, leNat m.payload, m.src⟩ }
  else d

/-- Take one COUNT for a message, raising CANTOR_BOOT when COUNT would pass 2^32 - 1 (R858, R859). -/
def Dev.takeCount (d : Dev) : Dev × Nat :=
  if d.dict.count < 2 ^ 32 then ({ d with dict := { d.dict with count := d.dict.count + 1 } }, d.dict.count)
  else
    let b := (d.oget O.CANTOR_BOOT + 1) % 65536
    let d := d.oset O.CANTOR_BOOT b
    ({ d with dict := { d.dict with count := 2, crypt := dset 0 d.dict.crypt O.CANTOR_BOOT b } }, 1)

/-- An inbound message for the host enters the mailbox and raises PF vector 2, or is dropped and counted (R863). -/
def Dev.inbox (d : Dev) (m : CantorMsg) : Dev :=
  if d.dict.inbound.length < 16 then
    Dev.msix { d with dict := { d.dict with inbound := d.dict.inbound ++ [{ m with tag := 0 }] } } 0 2
  else d.oinc O.CANTOR_DROPS_OTHER

/-- A message with DEST_EP HOST (R863, R866): a response must answer the request that waits, which its last part ends; one that
comes late is discarded and counted. -/
def Dev.hostMessage (d : Dev) (m : CantorMsg) : Dev :=
  if !m.resp then d.inbox m
  else if !d.dict.waits.any fun w => w.count = m.echo && w.dest = m.src then d.oinc O.CANTOR_DROPS_OTHER
  else if m.part = m.lastPart then
    Dev.inbox (Dev.oset { d with dict := { d.dict with waits := d.dict.waits.filter fun w => w.count ≠ m.echo } } O.CANTOR_TX_STATUS 2) m
  else d.inbox m

/-- Send a message: stamp SRC, BOOT and COUNT, compute the tag, and put it on I3C, into the host mailbox, or on the fabric
(R856, R858, R862, R863); a chip without the key sends nothing (R864). -/
def Dev.sendCantor (d : Dev) (m : CantorMsg) : Dev :=
  if !d.keyLoaded then d
  else
    let (d, c) := d.takeCount
    let m := { m with src := d.oget O.CHIP_ID, boot := d.oget O.CANTOR_BOOT, count := c }
    let m := { m with tag := cantorMac m d.dict.key }
    let d := d.oinc O.CANTOR_TX_MSGS
    if m.dest = d.oget O.CHIP_ID && m.destEp = 2 then d.hostMessage m
    else if m.dest = d.oget O.CHIP_ID && m.destEp = 1 then
      d.toTray m
    else
      let bs := leBytes 32 (cantorHeader m) ++ m.payload ++ beBytes 16 m.tag
      d.originate ⟨256, 0, 0, 0, 0, false, 0, m.dest, 0, bs⟩

/-- The NOTIFY payload (Table 18.10). -/
def notifyPayload (n : NotifyArg) (ftime coalesced : Nat) : List Byte :=
  leBytes 32 (n.event + n.cause * 2 ^ 8 + n.detail * 2 ^ 16 + n.sev * 2 ^ 24 + coalesced * 2 ^ 32 + ftime * 2 ^ 64 +
    n.index * 2 ^ 128 + n.sub * 2 ^ 144)

/-- Send the NOTIFY and reset the coalesced count. -/
def Dev.notifySend (d : Dev) (n : NotifyArg) (v key : Nat) : Dev :=
  let p := notifyPayload n d.time (dget 0 d.dict.coalesced key)
  let d := { d with dict := { d.dict with notified := mset d.dict.notified key d.time, coalesced := mdel d.dict.coalesced key } }
  if !d.keyLoaded then d
  else Dev.oinc (d.sendCantor { cantorZero with
    dest := bits v 0 12, destEp := bits v 12 2, op := 4, length := 31, payload := p }) O.NOTIFY_SENT

/-- NOTIFY one target (R868, R869): at most one message per target and event code in each 1 ms; others are coalesced. -/
def Dev.notifyOne (d : Dev) (n : NotifyArg) (i : Nat) : Dev :=
  let v := d.oget (O.NOTIFY_TARGET i)
  if !bit v 15 || !bit v (16 + n.event - 1) then d
  else
    let key := 8 * n.event + i
    match mget d.dict.notified key with
    | some t =>
      if d.time < t + 1000000 then
        Dev.oinc { d with dict := { d.dict with coalesced := dset 0 d.dict.coalesced key (dget 0 d.dict.coalesced key + 1) } }
          O.NOTIFY_COALESCED
      else d.notifySend n v key
    | none => d.notifySend n v key

/-- NOTIFY every valid target whose mask includes the event (R868). -/
def Dev.notify (d : Dev) (n : NotifyArg) : Dev := (rangeFrom 0 8).foldl (fun d i => d.notifyOne n i) d

/-! ### Error logs and handling (chapter 14) -/

/-- An error as it is raised: the fields of Table 14.6 that its raiser supplies. -/
structure Err where
  cause : Nat
  detail : Nat := 0
  sev : Sev := .note
  owner : Nat := 0x1FF
  eng : Nat := 0x3000
  addr : Nat := 0
  info : Nat := 0
  queue : Nat := 0
  graph : Nat := 0
  node : Nat := 0
  deriving DecidableEq, Repr

/-- Code of a severity (R15). -/
def Sev.code : Sev → Nat
  | .note => 0
  | .corrected => 1
  | .contained => 2
  | .device => 3

/-- The tenant is being torn down, or a handling for it waits (R671, R698). -/
def Dev.tearing (d : Dev) (t : Nat) : Bool :=
  d.oget (O.TENANT_STATE t) = 2 || d.logs.queue.any (fun h => h.tenant = t)

/-- Enter DEVICE_FAILED (R672, R676): the pending handlings are not served again, the entries of the teardowns in progress
are marked PREEMPTED, and the PF reports an Uncorrectable Internal Error (R541). -/
def Dev.deviceFail (d : Dev) (cause detail : Nat) : Dev :=
  if d.failed then d
  else
    let mark (l : ErrLog) : ErrLog :=
      { l with entries := l.entries.map fun e =>
          if e.teardown && d.logs.teardowns.any (fun t => t.tenant = e.owner) then { e with preempted := true } else e }
    let d := { d with logs := { d.logs with logs := d.logs.logs.map fun (p : Nat × ErrLog) => if p.1 = 256 then (p.1, mark p.2) else p } }
    let d := (d.oset O.DEVICE_STATUS 1).oset O.DEVICE_CAUSE (cause * 256 + detail)
    Dev.notify (d.aer 0 0x16 none) ⟨7, cause, detail, 3, 0x8001, 0⟩

/-- Raise an error: write its log entries (R665, R697), raise its vectors (R668), notify (R868), and set its handling in motion
(R669): a CONTAINED error of a tenant queues a teardown or is folded (R671), the 65th handling is escalated (R673), and a
DEVICE error fails the device (R672). -/
def Dev.raise (d : Dev) (e : Err) : Dev :=
  let fold := e.sev = .contained && e.owner < 256 && d.tearing e.owner
  let esc := e.sev = .contained && e.owner < 256 && !fold && decide (64 ≤ d.logs.queue.length)
  let sev := if esc then Sev.device else e.sev
  let starts := e.sev = .contained && e.owner < 256 && !fold && !esc
  let entry : LogEntry := ⟨d.time, e.node, e.graph, e.queue, e.owner, e.eng, e.addr, e.info, 0, fold, esc, false, starts,
    sev, e.detail, e.cause⟩
  let own := e.owner < 256 && d.oget (O.TENANT_STATE e.owner) ≠ 0
  let d := if own then d.writeLog e.owner entry else d
  let d := d.writeLog 256 entry
  let d := if own && !fold then d.msix (e.owner + 1) 16 else d
  let d := if 2 ≤ sev.code && !fold then d.msix 0 1 else d
  let d := if 2 ≤ sev.code && !fold then d.notify ⟨1, e.cause, e.detail, sev.code, 0x8010, 4⟩ else d
  let d := if fold then d.oinc O.FOLDED_ERRORS else d
  let d := if e.cause = 0x30 then d.oinc O.HOST_ACCESS_ERRORS else d
  let d := if esc then d.oinc O.ESCALATIONS else d
  let d := if starts then { d with logs := { d.logs with queue := d.logs.queue ++ [⟨.contained, e.owner, e.cause, e.detail, 0, false, false⟩] } }
           else d
  if sev = .device then d.deviceFail e.cause e.detail else d

/-- An error in the error-handling hardware itself (R674, R675): a DEVICE error with ESCALATED set. `logged` is false where ERR_LOG_256 is
what failed; DEVICE_STATUS and AER then report it. -/
def Dev.escalate (d : Dev) (cause : Nat) (logged : Bool) : Dev :=
  let e : LogEntry := ⟨d.time, 0, 0, 0, 0x1FF, 0x3000, 0, 0, 0, false, true, false, false, .device, 0, cause⟩
  let d := if logged then d.writeLog 256 e else d
  (((d.msix 0 1).notify ⟨1, cause, 0, Sev.device.code, 0x8010, 4⟩).oinc O.ESCALATIONS).deviceFail cause 0

/-- A NOTE event of the device: logged, PF vector 2 (Table 11.9) and NOTIFY event 2 (assumption 6). -/
def Dev.noteEvent (d : Dev) (cause detail eng : Nat) : Dev :=
  Dev.notify (Dev.msix (d.raise { cause := cause, detail := detail, eng := eng }) 0 2) ⟨2, cause, detail, 0, 0x8010, 4⟩

/-- A corrected error (R1060): OWNER 0x1FF, the correcting unit, the DPA where one exists. -/
def Dev.corrected (d : Dev) (eng addr : Nat) : Dev :=
  d.raise { cause := 0x12, sev := .corrected, eng := eng, addr := addr }

/-! ### Device memory (chapter 15) -/

/-- Bytes of one die's memory: 144 GiB or 192 GiB by the variant (R704). -/
def Dev.dieBytes (d : Dev) : Nat := if d.oget O.VARIANT = 0 then 154618822656 else 206158430208

/-- First DPA of the south die's memory (R704). -/
def southBase : Nat := 0x4000000000

/-- The die whose memory holds the DPA, if any (R704). -/
def Dev.homeDie (d : Dev) (x : Nat) : Option Nat :=
  if x < d.dieBytes then some 0
  else if southBase ≤ x && x < southBase + d.dieBytes then some 1 else none

/-- Device-wide channel group of a DPA (R705). -/
def groupOf (x : Nat) : Nat := 16 * (if x < southBase then 0 else 1) + bits x 16 4

/-- Device-wide channel of a DPA (R705); the die offset has the same low bits as the DPA. -/
def channelOf (x : Nat) : Nat :=
  let die := if x < southBase then 0 else 1
  let s := (bits x 8 2) ^^^ (bits x 20 2)
  let c := (bits x 10 1) ^^^ (bits x 22 1)
  32 * (4 * die + s) + 2 * bits x 16 4 + c

/-- Pseudo-channel of a DPA (R705). -/
def pcOf (x : Nat) : Nat := (bits x 11 1) ^^^ (bits x 23 1)

/-- Pseudo-channel address of a DPA (R705). -/
def pcAddr (x : Nat) : Nat :=
  let o := if x < southBase then x else x - southBase
  bits o 20 20 * 4096 + bits o 12 4 * 256 + bits o 0 8

/-- The memory domain of a die: PD_14 north, PD_15 south. -/
def memDomain (die : Nat) : Nat := 14 + die

/-- An access to the DPA reaches its channel group: the group is ONLINE and its domain has not FAILED (R729, R740). -/
def Dev.reachable (d : Dev) (x : Nat) : Bool :=
  match d.homeDie x with
  | none => false
  | some die => d.oget (O.MEM_GROUP_STATE (groupOf x)) = 0 && d.oget (O.PD_STATE (memDomain die)) ≠ 5

/-- The key draw that slot `slot` holds; slot 512 is no slot. -/
def Dev.keyDraw (d : Dev) (slot : Nat) : Nat := if slot = 512 then 0 else dget 0 d.logs.keyGen slot

/-- Sector `s` (DPA / 32) as a controller reads it under a key draw: its 32 bytes and its poison (R662 to R664, R713). What the code
makes of a sector whose check lanes hold a pattern is open (R732). -/
def Dev.sector (d : Dev) (s key : Nat) : Nat × Bool :=
  let raw := readLE d.mem.cells (32 * s) 32
  let wr := dget 0 d.mem.keyOf s
  match mget d.mem.raw s with
  | some c => (Config.eccRaw raw c % 2 ^ 256, bit (Config.eccRaw raw c) 256 || dget false d.mem.poison s)
  | none => (if wr = key then raw else Config.xts key wr s raw % 2 ^ 256, dget false d.mem.poison s)

/-- Store bytes of sector `s` chosen by the 32-bit `mask` (R709, R713): a partial write to a poisoned sector leaves it
poisoned; poisoned data marks the sector. -/
def Mem.store (m : Mem) (s key mask data : Nat) (poison : Bool) (old : Nat × Bool) : Mem :=
  if mask % 2 ^ 32 = 0 then m
  else if poison then { m with poison := dset false m.poison s true }
  else if mask % 2 ^ 32 = 2 ^ 32 - 1 then
    { m with cells := putMasked m.cells (32 * s) 32 mask data, poison := mdel m.poison s, keyOf := dset 0 m.keyOf s key,
             raw := mdel m.raw s }
  else if old.2 then m
  else
    { m with cells := putMasked m.cells (32 * s) 32 (2 ^ 32 - 1) (mergeBytes 32 mask data old.1),
             keyOf := dset 0 m.keyOf s key, raw := mdel m.raw s }

/-- Store into sector `s` of the device's memory. -/
def Dev.storeSector (d : Dev) (s key mask data : Nat) (poison : Bool) : Dev :=
  { d with mem := d.mem.store s key mask data poison (d.sector s key) }

/-- The line `a` (DPA / 128) as fetched under a key draw: 128 bytes and poison per sector; an unreachable line returns zero
with poison (R729). -/
def Dev.lineImage (d : Dev) (a key : Nat) : Nat × Nat :=
  if !d.reachable (128 * a) then (0, 15)
  else
    let s := fun i => d.sector (4 * a + i) key
    ((s 0).1 + (s 1).1 * 2 ^ 256 + (s 2).1 * 2 ^ 512 + (s 3).1 * 2 ^ 768,
      b2n (s 0).2 + 2 * b2n (s 1).2 + 4 * b2n (s 2).2 + 8 * b2n (s 3).2)

/-- An access to memory in SELF_REFRESH wakes its domain; the wait until it is ON is a matter of time alone (R890). -/
def Dev.memWake (d : Dev) (x : Nat) : Dev :=
  let m := memDomain (if x < southBase then 0 else 1)
  if d.oget (O.PD_STATE m) = 3 then
    { d.oset (O.PD_STATE m) 1 with power := { d.power with refreshed := m :: d.power.refreshed } }
  else d

/-- Fetch line `a`: four read bursts of its channel. -/
def Dev.lineFetch (d : Dev) (a key : Nat) : Dev × Nat × Nat :=
  ((d.memWake (128 * a)).count 2 (channelOf (128 * a)) 0 4, d.lineImage a key)

/-- Write bytes of line `a` chosen by the 128-bit `mask`; an unreachable line drops the write (R729). -/
def Dev.lineStore (d : Dev) (a key mask data poison : Nat) : Dev :=
  if !d.reachable (128 * a) then d
  else
    let d := d.memWake (128 * a)
    (rangeFrom 0 4).foldl (fun d i =>
      let m := bits mask (32 * i) 32
      (d.storeSector (4 * a + i) key m (bits data (256 * i) 256) (bit poison i && m ≠ 0)).count 2 (channelOf (128 * a)) 1
        (b2n (m ≠ 0))) d

/-! ### L2 (chapter 7) -/

/-- Home slice of a line (R308). -/
def sliceOf (a : Nat) : Nat :=
  let g := a / 512
  48 * (if 128 * a < southBase then 0 else 1) + ((bits g 0 12) ^^^ (bits g 12 12)) % 48

/-- L2 set of a line (R308), with its slice: 1024 * slice + set. -/
def setOf (a : Nat) : Nat :=
  let g := a / 512
  1024 * sliceOf a + (bits a 0 9 + 512 * ((((bits g 0 12) ^^^ (bits g 12 12)) / 48) % 2))

/-- Ages of the ways of a set, most recent first. -/
def L2.ages (l : L2) (set : Nat) : List Nat := dget (rangeFrom 0 16) l.order set

/-- Make a way the most recent of its set. -/
def L2.recent (l : L2) (set way : Nat) : L2 :=
  { l with order := dset (rangeFrom 0 16) l.order set (way :: (l.ages set).filter (· ≠ way)) }

/-- Make a way the least recent of its set. -/
def L2.stale (l : L2) (set way : Nat) : L2 :=
  { l with order := dset (rangeFrom 0 16) l.order set ((l.ages set).filter (· ≠ way) ++ [way]) }

/-- The line in a way of a set. -/
def L2.inWay (l : L2) (set way : Nat) : Option (Nat × L2Line) :=
  l.lines.find? fun e => setOf e.1 = set && e.2.way = way

/-- State of a slice's LFSR: its seed until it steps (R329). -/
def Dev.lfsr (d : Dev) (slice : Nat) : Nat := (mget d.l2.lfsr slice).getD (d.oget (O.L2_LFSR_SEED slice))

/-- One step of the Galois register of x^32 + x^22 + x^2 + x + 1 (R329). -/
def lfsrStep (s : Nat) : Nat := if s % 2 = 1 then (s / 2) ^^^ 0x80200003 else s / 2

/-- Write a line back to memory when it is dirty, and remove it. -/
def Dev.l2Evict (d : Dev) (a : Nat) (writeBack : Bool) : Dev :=
  match mget d.l2.lines a with
  | none => d
  | some l =>
    let d := if writeBack && l.dirty then (d.lineStore a l.key (2 ^ 128 - 1) l.data l.poison).count 1 (sliceOf a) 3 1 else d
    { d with l2 := { d.l2 with lines := mdel d.l2.lines a } }

/-- The way of a set that an outstanding MSHR holds for its fill (R326). -/
def L2.holds (l : L2) (set way : Nat) : Bool := l.mshrs.any fun m => m.way = some way && setOf m.line = set

/-- The victim way for a line under a partition (R326 to R328), with the device after any LFSR step; none when no way is
eligible. -/
def Dev.l2Victim (d : Dev) (a l2p : Nat) : Dev × Option Nat :=
  let set := setOf a
  let part := d.oget (O.L2_PARTITION l2p)
  let elig := (rangeFrom 0 16).filter fun w => bit part w && !d.l2.holds set w
  match elig.find? fun w => (d.l2.inWay set w).isNone with
  | some w => (d, some w)
  | none =>
    if elig.isEmpty then (d, none)
    else if bit part 16 then
      let r := lfsrStep (d.lfsr (sliceOf a))
      ({ d with l2 := { d.l2 with lfsr := mset d.l2.lfsr (sliceOf a) r } }, elig[r % elig.length]?)
    else (d, (d.l2.ages set).reverse.find? fun w => elig.contains w)

/-- Empty a way, its line written back when it is dirty (R321). -/
def Dev.l2Clear (d : Dev) (set way : Nat) : Dev :=
  match d.l2.inWay set way with
  | some e => d.l2Evict e.1 true
  | none => d

/-- Put a line into a way, evicting what stands there; a fill becomes most recent, or least recent under EVICT_FIRST with
LRU (R322, R327). -/
def Dev.l2Install (d : Dev) (a way l2p policy : Nat) (l : L2Line) : Dev :=
  let set := setOf a
  let d := d.l2Clear set way
  let d := { d with l2 := { d.l2 with lines := mset d.l2.lines a { l with way := way } } }
  let lru := !bit (d.oget (O.L2_PARTITION l2p)) 16
  { d with l2 := if policy = 1 && lru then d.l2.stale set way else d.l2.recent set way }

/-- Sub-array of an L2 set within its slice, one of 32 of 64 KiB; which one is open (assumption 30). -/
def subOf (set : Nat) : Nat := Config.l2SubArray set % 32

/-- An access to a partition without ways, or to a sub-array under steering, is served as NO_ALLOCATE (R325, R361). -/
def Dev.l2NoAlloc (d : Dev) (r : L2Req) : Bool :=
  r.policy = 2 || bits (d.oget (O.L2_PARTITION r.l2p)) 0 16 = 0 ||
  d.l2.steering.any fun s => s.1 = sliceOf (r.dpa / 128) && s.2.1 = subOf (setOf (r.dpa / 128))

/-- Sectors a byte mask of a line touches, as a 4-bit mask. -/
def sectorsOf (mask : Nat) : Nat :=
  b2n (bits mask 0 32 ≠ 0) + 2 * b2n (bits mask 32 32 ≠ 0) + 4 * b2n (bits mask 64 32 ≠ 0) + 8 * b2n (bits mask 96 32 ≠ 0)

/-- Sectors a byte mask of a line covers whole, as a 4-bit mask. -/
def sectorsFull (mask : Nat) : Nat :=
  let f := fun i => b2n (bits mask (32 * i) 32 = 2 ^ 32 - 1)
  f 0 + 2 * f 1 + 4 * f 2 + 8 * f 3

/-- Merge a write into a line: written bytes replace the old; a poisoned write poisons the sectors it touches; a sector
covered whole loses its poison, a partly written poisoned sector keeps it (R320, R713). -/
def mergeLine (mask data poison old oldPoison : Nat) : Nat × Nat :=
  (mergeBytes 128 mask data old,
   ((oldPoison &&& (15 ^^^ (sectorsFull mask))) ||| (poison &&& sectorsOf mask)))

/-- Update the streaming detector of the slice for a write it applies (Table 7.4), and tell whether the write continues a
STREAMING entry. -/
def Dev.detect (d : Dev) (r : L2Req) : Dev × Bool :=
  if d.oget O.STREAM_ENABLE = 0 then (d, false)
  else
    let a := r.dpa / 128
    let slice := sliceOf a
    let region := a / 512
    let full := r.mask = 2 ^ 128 - 1
    let ds := dget [] d.l2.dets slice
    let put := fun l => { d with l2 := { d.l2 with dets := dset [] d.l2.dets slice l } }
    let mine := fun (e : Detector) => e.requester = r.requester && e.region = region
    let aged := fun (l : List Detector) (skip : Bool) =>
      (l.map fun e => if skip && mine e then e else { e with age := e.age + 1 }).filter fun e => e.age < 256
    match ds.find? mine with
    | some e =>
      if full && e.last < a then
        let n := e.count + 1
        let s := e.streaming || decide (d.oget O.STREAM_THRESHOLD ≤ n)
        (put (mapIf mine (fun e => { e with last := a, count := n, age := 0, streaming := s }) ds), e.streaming)
      else if e.streaming then (put (aged ds true), false)
      else if full then (put (aged (mapIf mine (fun e => { e with count := 1, last := a }) ds) true), false)
      else (put (aged (mapIf mine (fun e => { e with count := 0 }) ds) true), false)
    | none =>
      let ds := aged ds false
      if !full then (put ds, false)
      else
        let fresh := fun p => (⟨p, r.requester, r.owner, region, a, 1, 0, decide (d.oget O.STREAM_THRESHOLD ≤ 1)⟩ : Detector)
        match (rangeFrom 0 32).find? fun p => !(ds.any fun e => e.place = p) with
        | some p => (put (ds ++ [fresh p]), false)
        | none =>
          let tr := ds.filter fun e => !e.streaming
          let worst := tr.foldl (fun m e => max m e.age) 0
          let cand := tr.filter fun e => e.age = worst
          match cand.map (·.place) |>.min? with
          | some p => (put (ds.map fun e => if e.place = p then fresh p else e), false)
          | none => (put ds, false)

/-- A read hit in a region releases the entries of that region (Table 7.4). -/
def Dev.undetect (d : Dev) (a : Nat) : Dev :=
  let keep := (dget [] d.l2.dets (sliceOf a)).filter fun e => e.region ≠ a / 512
  { d with l2 := { d.l2 with dets := dset [] d.l2.dets (sliceOf a) keep } }

/-- A maintenance operation selects a line of an owner, number `a` (R346). -/
def Maint.selects (m : Maint) (owner a : Nat) : Bool :=
  m.sel = 0 || (m.sel = 1 && owner = m.owner) || (m.sel = 2 && m.base ≤ 128 * a && 128 * a < m.base + m.length)

/-- A maintenance operation acts on the lines it selects in the sets `lo` to `hi` − 1 of every slice (Table 7.7, R347, R348): dirty
lines are written back but by DISCARD, all but WRITEBACK invalidate. -/
def Dev.maintSets (d : Dev) (m : Maint) (lo hi : Nat) : Dev :=
  (d.l2.lines.filter fun e => m.selects e.2.owner e.1 && decide (lo ≤ setOf e.1 % 1024) && decide (setOf e.1 % 1024 < hi)).foldl
    (fun (d : Dev) (e : Nat × L2Line) =>
      let back := decide (m.op ≠ 2)
      if m.op = 0 then
        let d := d.l2Evict e.1 true
        { d with l2 := { d.l2 with lines := mset d.l2.lines e.1 { e.2 with dirty := false } } }
      else d.l2Evict e.1 back) d

/-- The detector entries of a maintenance operation's selection are released (R347). -/
def Dev.maintDets (d : Dev) (m : Maint) : Dev :=
  let gone := fun (x : Detector) => m.sel = 0 || (m.sel = 1 && x.owner = m.owner) ||
    (m.sel = 2 && m.base < 65536 * (x.region + 1) && 65536 * x.region < m.base + m.length)
  { d with l2 := { d.l2 with dets := (d.l2.dets.map fun e => (e.1, e.2.filter fun x => !gone x)).filter fun e => !e.2.isEmpty } }

/-- Carry out the rest of a maintenance operation: the sets the scan has not passed, and the detectors. -/
def Dev.l2Maint (d : Dev) (m : Maint) : Dev := (d.maintSets m m.scan 1024).maintDets m

/-- The scan of the maintenance operation in progress goes on for `ns` nanoseconds, at one set per uncore clock: 1,024 sets take
683 ns (R347). -/
def Dev.maintScan (d : Dev) (ns : Nat) : Dev :=
  match d.l2.maint with
  | none => d
  | some m =>
    let hi := min 1024 (m.scan + ns * 1024 / 683)
    let d := d.maintSets m m.scan hi
    { d with l2 := { d.l2 with maint := some { m with scan := hi } } }

/-- What a slice answers to one request. -/
inductive L2Ans where
  | data (v poison : Nat)     -- a read served from the slice
  | done                      -- a write applied
  | miss                      -- an MSHR holds the request (R338)
  | wait                      -- the slice does not take it yet (R326, R338, R340, R354)
  deriving DecidableEq, Repr

/-- Serve one merged request over a line image (R339). -/
def serveLine (img : Nat × Nat × Bool) (r : L2Req) : Nat × Nat × Bool :=
  if r.write then
    let (v, p) := mergeLine r.mask r.data r.poison img.1 img.2.1
    (v, p, true)
  else img

/-- Die from which a requester sends: cores and link complexes by their number; the host port and the precentor on the north die;
Starling has one requester number, and a fetch of the south die's carries 256 more (assumption 65). -/
def dieOfRequester (n : Nat) : Nat := if n < 256 then n / 128 else if n < 258 then n - 256 else if n < 512 then 0 else 1

/-- A request crosses from one die to the other (R341). -/
def crosses (r : L2Req) : Bool := dieOfRequester r.requester ≠ sliceOf (r.dpa / 128) / 48

/-- The MSHR file of a slice takes one more for this request: 128, of which 8 are kept for fetching partial writes (R338). -/
def Dev.mshrFree (d : Dev) (r : L2Req) : Bool :=
  let mine := d.l2.mshrs.filter fun m => sliceOf m.line = sliceOf (r.dpa / 128)
  mine.length < 128 && (r.write || decide ((mine.filter fun m => !m.first.write).length < 120))

/-- A slice applies one request (R318), made by the L1 MSHR of a core or not: a line with an outstanding MSHR merges it (R338, R339),
unless the owner differs (R354); then owner mismatch (R311), hit, full-line or partial write, write-around (R332) or miss. A request
that has to wait leaves the counts and the detector as they were. -/
def Dev.l2Lookup (d : Dev) (r : L2Req) (l1 : Bool) : Dev × L2Ans :=
  let a := r.dpa / 128
  let key := d.keyDraw r.key
  let sl := sliceOf a
  let seen := fun (d : Dev) =>
    let d := d.count 1 sl 0 1
    let d := if r.write && crosses r then d.count 1 sl 6 (popCount 128 r.mask) else d
    if crosses r then { d with l2 := { d.l2 with crossFails := [] } } else d
  if d.logs.badSlots.contains r.key then (d.count 1 sl 0 1, if r.write then .done else .data 0 15)
  else if crosses r && d.l2.crossFailed then (seen d, if r.write then .done else .data 0 15)
  else
    match d.l2.mshrs.find? fun m => m.line = a with
    | some m =>
      if m.first.owner ≠ r.owner || 17 ≤ m.reqs.length then (d, .wait)
      else
        let d := ((seen d).oinc O.L2_MISSES).count 1 sl 2 1
        let d := if r.write then (d.detect r).1 else d
        ({ d with l2 := { d.l2 with mshrs := mapIf (fun m => m.line = a) (fun m => { m with reqs := m.reqs ++ [(r, l1)] }) d.l2.mshrs } }, .miss)
    | none =>
      let d := match mget d.l2.lines a with
        | some l => if l.owner ≠ r.owner then ((d.l2Evict a true).oinc O.OWNER_MISMATCHES).count 1 sl 7 1 else d
        | none => d
      match mget d.l2.lines a with
      | some l =>
        let set := setOf a
        let d := ((seen d).oinc O.L2_HITS).count 1 sl 1 1
        if r.write then
          let (d, around) := d.detect r
          let (v, p) := mergeLine r.mask r.data r.poison l.data l.poison
          let l2 := { d.l2 with lines := mset d.l2.lines a { l with data := v, poison := p, dirty := true } }
          ({ d with l2 := if around then l2.stale set l.way else l2.recent set l.way }, .done)
        else
          let d := { d with l2 := d.l2.recent set l.way }
          (d.undetect a, .data l.data l.poison)
      | none =>
        let miss := fun (d : Dev) => ((seen d).oinc O.L2_MISSES).count 1 sl 2 1
        let (d1, around) := if r.write then (miss d).detect r else (miss d, false)
        if around then
          (((d1.lineStore a key r.mask r.data r.poison).oinc O.STREAM_WRITE_AROUNDS).count 1 sl 4 1, .done)
        else if d.l2NoAlloc r then
          if r.write then (d1.lineStore a key r.mask r.data r.poison, .done)
          else if d.mshrFree r then ({ d1 with l2 := { d1.l2 with mshrs := d1.l2.mshrs ++ [⟨a, none, r, [(r, l1)]⟩] } }, .miss)
          else (d, .wait)
        else if r.write && r.mask = 2 ^ 128 - 1 then
          match d1.l2Victim a r.l2p with
          | (_, none) => (d, .wait)
          | (d, some w) =>
            (d.l2Install a w r.l2p r.policy ⟨r.owner, w, true, r.poison % 16, r.data % 2 ^ 1024, key⟩, .done)
        else if !d.mshrFree r then (d, .wait)
        else
          match d1.l2Victim a r.l2p with
          | (_, none) => (d, .wait)
          | (d, some w) =>
            let d := d.l2Clear (setOf a) w
            ({ d with l2 := { d.l2 with mshrs := d.l2.mshrs ++ [⟨a, some w, r, [(r, l1)]⟩] } }, .miss)

/-- A request waits behind an earlier one of its requester and class, reads or writes, at its slice (R318, R340, R342). -/
def Dev.l2Blocked (d : Dev) (r : L2Req) : Bool :=
  d.l2.held.any fun h => h.1.requester = r.requester && h.1.write = r.write && sliceOf (h.1.dpa / 128) = sliceOf (r.dpa / 128)

/-- A request reaches its slice: it is applied, or waits in arrival order; none is refused (R340). A slice whose uncore domain is
quiesced accepts none (R912). -/
def Dev.l2Offer (d : Dev) (r : L2Req) (l1 : Bool) : Dev × L2Ans :=
  let hold := fun (d : Dev) => { d with l2 := { d.l2 with held := d.l2.held ++ [(r, l1)] } }
  if d.quiescing (2 + sliceOf (r.dpa / 128) / 48) || d.l2Blocked r then (hold d, .wait)
  else
    match d.l2Lookup r l1 with
    | (d, .wait) => (hold d, .wait)
    | a => a

/-- A fetched line returns (R319, R320, R336, R339): it serves the requests of its MSHR in order, each read with the bytes of the
writes merged before it, and the image after all of them goes into the way the MSHR holds; under NO_ALLOCATE the writes go on to
memory (R322). A request that a failed crossing loses reads poison or is dropped (R363). Answers the responses. -/
def Dev.l2FillLine (d : Dev) (a : Nat) : Dev × List L2Resp :=
  match d.l2.mshrs.find? fun m => m.line = a with
  | none => (d, [])
  | some m =>
    let d := { d with l2 := { d.l2 with mshrs := d.l2.mshrs.filter fun m => m.line ≠ a } }
    let key := d.keyDraw m.first.key
    let (d, f) := d.lineFetch a key
    let cut := fun (r : L2Req) => crosses r && d.l2.crossFailed
    let run := m.reqs.foldl (fun (acc : (Nat × Nat × Bool) × List L2Resp) e =>
      if e.1.write then (if cut e.1 then acc else (serveLine acc.1 e.1, acc.2))
      else (acc.1, acc.2 ++ [if cut e.1 then ⟨e.1, e.2, 0, 15⟩ else ⟨e.1, e.2, acc.1.1, acc.1.2.1⟩])) ((f.1, f.2, false), [])
    match m.way with
    | some w => (d.l2Install a w m.first.l2p m.first.policy ⟨m.first.owner, w, run.1.2.2, run.1.2.1, run.1.1, key⟩, run.2)
    | none => (m.reqs.foldl (fun d e => if e.1.write && !cut e.1 then d.lineStore a key e.1.mask e.1.data e.1.poison else d) d, run.2)

/-- The requests that wait are offered again, in arrival order. -/
def Dev.l2Retry (d : Dev) : Dev :=
  d.l2.held.foldl (fun d e =>
    match d.l2Offer e.1 e.2 with
    | (d, .data v p) => { d with l2 := { d.l2 with resps := d.l2.resps ++ [⟨e.1, e.2, v, p⟩] } }
    | (d, _) => d) { d with l2 := { d.l2 with held := [] } }

/-- A fill of line `a`: its responses are on their way, and the requests that wait are offered again. -/
def Dev.l2Fill (d : Dev) (a : Nat) : Dev :=
  let (d, rs) := d.l2FillLine a
  Dev.l2Retry { d with l2 := { d.l2 with resps := d.l2.resps ++ rs } }

/-- The fetches outstanding for lines that `p` picks return, `n` at most. -/
def Dev.l2FillAll (p : Nat → Bool) : Nat → Dev → Dev
  | 0, d => d
  | n + 1, d =>
    match d.l2.mshrs.find? fun m => p m.line with
    | none => d
    | some m => Dev.l2FillAll p n (d.l2Fill m.line)

/-- Every request accepted for the lines that `p` picks completes. -/
def Dev.l2Finish (d : Dev) (p : Nat → Bool) : Dev := Dev.l2FillAll p (d.l2.mshrs.length + d.l2.held.length) d

/-- Carry a request through its slice to its end: earlier fills of the slice return until it is taken, and then its own. -/
def Dev.l2Through : Nat → Dev → L2Req → Dev × Nat × Nat
  | 0, d, _ => (d, 0, 0)
  | f + 1, d, r =>
    let a := r.dpa / 128
    let first := fun (d : Dev) => (d.l2.mshrs.find? fun m => sliceOf m.line = sliceOf a).map (·.line)
    if d.l2Blocked r then
      match first d with
      | some l => Dev.l2Through f (d.l2Fill l) r
      | none => Dev.l2Through f d.l2Retry r
    else if d.l2.mshrs.any fun m => m.line = a then Dev.l2Through f (d.l2Fill a) r
    else
      match d.l2Lookup r false with
      | (d, .data v p) => (d, v, p)
      | (d, .done) => (d, 0, 0)
      | (d, .miss) =>
        let (d, rs) := d.l2FillLine a
        (d.l2Retry, (rs.head?.map (·.data)).getD 0, (rs.head?.map (·.poison)).getD 0)
      | (_, .wait) =>
        match first d with
        | some l => Dev.l2Through f (d.l2Fill l) r
        | none => (d, 0, 0)

/-- A request made within another command: it reaches its end before the next one, a quiesce of its slice past (assumption 8).
Answers the line's bytes and poison. -/
def Dev.l2Access (d : Dev) (r : L2Req) : Dev × Nat × Nat :=
  let q := d.power.quiesced
  match Dev.l2Through (d.l2.mshrs.length + 2 * d.l2.held.length + 2) { d with power := { d.power with quiesced := [] } } r with
  | (d, v, p) => ({ d with power := { d.power with quiesced := q } }, v, p)

/-- A request of requester `who` for owner `owner` under no window: policy NORMAL, partition L2P_0, no key slot
(assumption 9). -/
def plainReq (who owner dpa : Nat) (write : Bool) (mask data poison : Nat) : L2Req :=
  ⟨who, owner, dpa / 128 * 128, write, mask, data, poison, 0, 0, 512⟩

/-- Read `n` bytes that lie in one line at a DPA through the home slice. -/
def Dev.dpaRead (d : Dev) (who owner x n : Nat) : Dev × Nat × Bool :=
  let (d, v, p) := d.l2Access (plainReq who owner x false 0 0 0)
  let o := x % 128
  (d, bits v (8 * o) (8 * n), (p &&& sectorsOf ((2 ^ n - 1) * 2 ^ o)) ≠ 0)

/-- Write `n` bytes that lie in one line at a DPA through the home slice. -/
def Dev.dpaWrite (d : Dev) (who owner x n v : Nat) (poison : Bool) : Dev :=
  let o := x % 128
  (d.l2Access (plainReq who owner x true ((2 ^ n - 1) * 2 ^ o) (v % 2 ^ (8 * n) * 2 ^ (8 * o)) (if poison then 15 else 0))).1

/-- The pieces of `n` bytes from `x` that lie in one line each: address and length, ascending. -/
def linePieces : Nat → Nat → Nat → List (Nat × Nat)
  | 0, _, _ => []
  | f + 1, x, n =>
    if n = 0 then []
    else
      let k := min n (128 - x % 128)
      (x, k) :: linePieces f (x + k) (n - k)

/-- Write bytes at a DPA through the home slices. -/
def Dev.dpaWriteAll (d : Dev) (who owner x : Nat) (bs : List Byte) (poison : Bool) : Dev :=
  (linePieces (bs.length / 128 + 2) x bs.length).foldl
    (fun d p => d.dpaWrite who owner p.1 p.2 (leNat ((bs.drop (p.1 - x)).take p.2)) poison) d

/-- Read bytes at a DPA through the home slices, with whether any carries poison. -/
def Dev.dpaReadAll (d : Dev) (who owner x n : Nat) : Dev × List Byte × Bool :=
  (linePieces (n / 128 + 2) x n).foldl
    (fun acc p =>
      let (d, v, po) := acc.1.dpaRead who owner p.1 p.2
      (d, acc.2.1 ++ leBytes p.2 v, acc.2.2 || po)) (d, [], false)

end Sys2Proof.Machine
end

