-- ==== Sys2Proof/Machine/Translate.lean ====
section
/-! DEFINITION. Machine/Translate.lean: windows, page walks, TLBs, the ATC and their invalidation (chapter 10). -/

namespace Sys2Proof.Machine

/-- Window `i` of an owner, when mapped. -/
def Dev.window (d : Dev) (owner i : Nat) : Option Window := mget d.tr.wins (64 * owner + i)

/-- The mapped window of the owner that contains the address, with its index (R463 check 2). -/
def Dev.windowAt (d : Dev) (owner va : Nat) : Option (Nat × Window) :=
  (d.tr.wins.find? fun e => e.1 / 64 = owner && e.2.base ≤ va && va < e.2.base + e.2.size).map fun e => (e.1 % 64, e.2)

/-- A permission triple permits an access type: 0 READ, 1 WRITE, 2 ATOMIC, 3 FETCH (R461). -/
def permits (r w x : Bool) (access : Nat) : Bool :=
  match access with
  | 0 => r
  | 1 => w
  | 2 => r && w
  | _ => x

/-- A translation that failed a check of Table 10.7, with the fields its record needs. -/
structure TFail where
  cause : Nat
  detail : Nat
  level : Nat
  entry : Nat
  win : Nat
  winValid : Bool
  host : Bool
  pri : Bool
  deriving DecidableEq, Repr

/-- The outcome of a translation: a DPA, a host address (translated or not), a wait for an ATS reply, or a failed check. -/
inductive TRes where
  | dev (win : Nat) (w : Window) (dpa : Nat)
  | host (win : Nat) (w : Window) (u : Nat) (pa : Option Nat)
  | wait
  | fail (f : TFail)
  deriving DecidableEq, Repr

/-- The die whose STLB and walkers serve an engine: a core's own die, the link complex's own; the precentor and the
Clerestory use the north die (assumption 10). -/
def dieOfEngine (eng : Nat) : Nat :=
  match eng / 4096 with
  | 0 => eng % 4096 / 128
  | 1 => eng % 4096 / 128
  | 2 => eng % 4096
  | _ => 0

/-- STLB set of an address for a page or a block (R466). -/
def stlbSet (va : Nat) (block : Bool) : Nat :=
  if block then bits va 28 11 % 2048 else ((bits va 16 12) ^^^ (bits va 28 11)) % 2048

/-- A TLB entry covers an address of an owner's window. -/
def TlbEntry.hit (e : TlbEntry) (owner win va : Nat) : Bool :=
  e.owner = owner && e.win = win && (if e.block then e.page = va / 2 ^ 28 else e.page = va / 2 ^ 16)

/-- The DPA an entry gives an address. -/
def TlbEntry.at (e : TlbEntry) (va : Nat) : Nat := if e.block then e.dpa + va % 2 ^ 28 else e.dpa + va % 2 ^ 16

/-- Move the first entry that satisfies `p` to the front of a recency list. -/
def toFront {α : Type} (p : α → Bool) (l : List α) : List α :=
  match l.find? p with
  | some e => e :: l.eraseP p
  | none => l

/-- A valid page-table entry is malformed at a level (R460). -/
def malformed (d : Dev) (level e : Nat) : Bool :=
  let t := bit e 1
  bits e 40 24 ≠ 0 || bits e 5 10 ≠ 0 || (!t && level = 1) || (t && level = 3) ||
  (t && (bits e 2 3 ≠ 0 || (d.homeDie (bits e 15 25 * 2 ^ 15)).isNone)) ||
  (!t && level = 3 && (bit e 15 || (d.homeDie (bits e 16 24 * 2 ^ 16)).isNone)) ||
  (!t && level = 2 && (bits e 15 13 ≠ 0 || (d.homeDie (bits e 28 12 * 2 ^ 28)).isNone))

/-- Read the entry of a level and make checks 4 to 6 on it: the entry, or the failing DETAIL with ENTRY. -/
def Dev.readEntry (d : Dev) (level addr : Nat) : Dev × Nat × Option (Nat × Nat) :=
  let (d, e, p) := d.dpaRead 259 256 addr 8
  let d := d.oinc O.WALK_READS
  if p then (d, e, some (6, 0))
  else if !bit e 0 then (d, e, some (4, e))
  else if malformed d level e then (d, e, some (5, e))
  else (d, e, none)

/-- A leaf as a TLB entry. -/
def leafEntry (owner win va e : Nat) (block : Bool) : TlbEntry :=
  ⟨owner, win, block, if block then va / 2 ^ 28 else va / 2 ^ 16, 0,
   if block then bits e 28 12 * 2 ^ 28 else bits e 16 24 * 2 ^ 16, bit e 2, bit e 3, bit e 4⟩

/-- The level-3 read of a walk, from a known table (R458). -/
def Dev.walk3 (d : Dev) (owner win va table : Nat) : Dev × (TlbEntry ⊕ (Nat × Nat × Nat)) :=
  match d.readEntry 3 (table + 8 * bits va 16 12) with
  | (d, e, none) => (d, .inl (leafEntry owner win va e false))
  | (d, _, some (det, ent)) => (d, .inr (det, 3, ent))

/-- Make a level-3 table pointer the most recent of a die's walk cache (R466). -/
def Dev.walkInstall (d : Dev) (die : Nat) (w : WalkEntry) : Dev :=
  let l := dget [] d.tr.walk die
  let same := fun (e : WalkEntry) => e.owner = w.owner && e.win = w.win && e.tag = w.tag
  { d with tr := { d.tr with walk := dset [] d.tr.walk die ((w :: l.filter fun e => !same e).take 256) } }

/-- A walk of an address (R458, R459, R467): the leaf, or the failing DETAIL, level and ENTRY. It ends within its command, so that no
invalidation meets a walk in flight and no walker is awaited (assumption 67). -/
def Dev.walk (d : Dev) (die owner win va : Nat) : Dev × (TlbEntry ⊕ (Nat × Nat × Nat)) :=
  let tag := va / 2 ^ 28
  match (dget [] d.tr.walk die).find? fun e => e.owner = owner && e.win = win && e.tag = tag with
  | some w => (d.walkInstall die w).walk3 owner win va w.table
  | none =>
    let root := d.oget (O.PT_ROOT owner)
    match d.readEntry 1 (root + 8 * bits va 40 12) with
    | (d, _, some (det, ent)) => (d, .inr (det, 1, ent))
    | (d, e1, none) =>
      match d.readEntry 2 (bits e1 15 25 * 2 ^ 15 + 8 * bits va 28 12) with
      | (d, _, some (det, ent)) => (d, .inr (det, 2, ent))
      | (d, e2, none) =>
        if bit e2 1 then
          let t := bits e2 15 25 * 2 ^ 15
          (d.walkInstall die ⟨owner, win, tag, t⟩).walk3 owner win va t
        else (d, .inl (leafEntry owner win va e2 true))

/-- Install a leaf in an engine's µTLB (64 entries, exact LRU). -/
def Dev.utlbInstall (d : Dev) (eng : Nat) (e : TlbEntry) : Dev :=
  let l := dget [] d.tr.utlb eng
  let l := (e :: l.filter fun x => !(x.owner = e.owner && x.win = e.win && x.block = e.block && x.page = e.page)).take 64
  { d with tr := { d.tr with utlb := dset [] d.tr.utlb eng l } }

/-- Install a leaf in a die's STLB set (8 ways, exact LRU). -/
def Dev.stlbInstall (d : Dev) (die va : Nat) (e : TlbEntry) : Dev :=
  let k := 2048 * die + stlbSet va e.block
  let l := dget [] d.tr.stlb k
  let l := (e :: l.filter fun x => !(x.owner = e.owner && x.win = e.win && x.block = e.block && x.page = e.page)).take 8
  { d with tr := { d.tr with stlb := dset [] d.tr.stlb k l } }

/-- Remove an entry that a permission refuses from the caches of an access (R464). -/
def Dev.tlbDiscard (d : Dev) (eng die owner win va : Nat) : Dev :=
  let keep := fun (e : TlbEntry) => !(e.hit owner win va)
  let f := fun (m : List (Nat × List TlbEntry)) k => dset [] m k ((dget [] m k).filter keep)
  { d with tr := { d.tr with utlb := f d.tr.utlb eng,
                             stlb := f (f d.tr.stlb (2048 * die + stlbSet va false)) (2048 * die + stlbSet va true) } }

/-- The cached leaf of an access: the µTLB's, or the die's STLB's, which the µTLB then takes (R467). -/
def Dev.tlbFind (d : Dev) (eng die owner win va : Nat) : Dev × Option TlbEntry :=
  let l := dget [] d.tr.utlb eng
  match l.find? fun e => e.hit owner win va with
  | some e =>
    ({ d with tr := { d.tr with utlb := dset [] d.tr.utlb eng (toFront (fun e => e.hit owner win va) l) } }, some e)
  | none =>
    let d := d.oinc O.UTLB_MISSES
    let look := fun k => (dget [] d.tr.stlb k).find? fun e => e.hit owner win va
    let kp := 2048 * die + stlbSet va false
    let kb := 2048 * die + stlbSet va true
    match (look kp).or (look kb) with
    | some e => ((d.stlbInstall die va e).utlbInstall eng e, some e)
    | none => (d.oinc O.STLB_MISSES, none)

/-- Check 7 and check 8 on a leaf (R461, R462), then the DPA. -/
def leafChecks (d : Dev) (win : Nat) (w : Window) (e : TlbEntry) (va access : Nat) : TRes :=
  if !permits e.r e.w e.x access then .fail ⟨2, 7, 0, 0, win, true, false, false⟩
  else
    let x := e.at va
    match d.homeDie x with
    | none => .fail ⟨1, 8, 0, 0, win, true, false, false⟩
    | some die => if w.home = 2 || w.home = die then .dev win w x else .fail ⟨1, 8, 0, 0, win, true, false, false⟩

/-- Translation of a host-window access (R476, R477): the ATC, a reply that has come, or a Translation Request and a wait. A reply
stays until the access that awaits it goes on. -/
def Dev.hostTranslate (d : Dev) (owner win : Nat) (w : Window) (va access : Nat) : Dev × TRes :=
  let fn := fnOf owner
  let u := w.hostBase + (va - w.base)
  let page := u / 4096
  let wr := access = 1 || access = 2
  if !(d.func fn).busMaster then (d, .fail ⟨0x30, 0, 0, 0, win, true, true, false⟩)
  else match d.tr.atc.find? fun e => e.owner = owner && e.win = win && e.page ≤ u && u < e.page + e.span && permits e.r e.w false access with
  | some e =>
    let p := fun (x : TlbEntry) => decide (x = e)
    ({ d with tr := { d.tr with atc := toFront p d.tr.atc } }, .host win w u (some (e.dpa + (u - e.page))))
  | none =>
    match d.host.atsReplies.find? fun r => r.1 = fn && r.2.u / 4096 = page && r.2.write = wr with
    | some (_, r) =>
      if r.kind = 1 then (d, .host win w u none)
      else if r.kind = 3 then (d, .fail ⟨1, 0x0A, 0, r.field, win, true, true, false⟩)
      else (d, .fail ⟨1, 0x09, 0, r.field, win, true, true, true⟩)
    | none =>
      if !(d.func fn).atsEnable then (d, .host win w u none)
      else if d.host.atsSent.any fun a => a.1 = fn && a.2.1 = page && a.2.2.2 = wr then (d, .wait)
      else
        let d := { d with host := { d.host with atsSent := d.host.atsSent ++ [(fn, page, win, wr)] } }
        (Dev.oinc (d.emit (.ats fn (page * 4096 + b2n (!wr)))) O.ATS_REQUESTS, .wait)

/-- The ATS replies that accesses of an owner used are gone. -/
def Dev.atsUse (d : Dev) (owner access : Nat) (vas : List Nat) : Dev :=
  let pages := vas.filterMap fun va => match d.windowAt owner va with
    | some (_, w) => if w.home = 3 then some ((w.hostBase + (va - w.base)) / 4096) else none
    | none => none
  if pages.isEmpty || d.host.atsReplies.isEmpty then d
  else
    { d with host := { d.host with atsReplies := d.host.atsReplies.filter fun r =>
      !(r.1 = fnOf owner && r.2.write = (access = 1 || access = 2) && pages.contains (r.2.u / 4096)) } }

/-- Look one address up for an access of an engine (R463 to R467): the checks of Table 10.7 in order. While the window table of the
engine's die is being reloaded the access waits (R503). -/
def Dev.lookup (d : Dev) (eng owner va access : Nat) : Dev × TRes :=
  if va / 2 ^ 52 ≠ 0 then (d, .fail ⟨3, 1, 0, 0, 0, false, false, false⟩)
  else if d.tr.reloads.contains (dieOfEngine eng) then (d, .wait)
  else
    match d.windowAt owner va with
    | none => (d, .fail ⟨3, 2, 0, 0, 0, false, false, false⟩)
    | some (win, w) =>
      if !permits w.r w.w w.x access then (d, .fail ⟨2, 3, 0, 0, win, true, w.home = 3, false⟩)
      else if w.home = 3 then d.hostTranslate owner win w va access
      else
        let die := dieOfEngine eng
        let fresh : Dev → Dev × TRes := fun d =>
          match d.walk die owner win va with
          | (d, .inr (det, level, ent)) => (d, TRes.fail ⟨1, det, level, ent, win, true, false, false⟩)
          | (d, .inl e) =>
            match leafChecks d win w e va access with
            | .dev i w x => ((d.stlbInstall die va e).utlbInstall eng e, TRes.dev i w x)
            | r => (d, r)
        match d.tlbFind eng die owner win va with
        | (d, none) => fresh d
        | (d, some e) =>
          match leafChecks d win w e va access with
          | .dev i w x => (d, .dev i w x)
          | _ => fresh (d.tlbDiscard eng die owner win va)

/-- How an access to an address came by its physical address, from the translation of the address's page. -/
def Dev.via (d : Dev) (owner va : Nat) (r : TRes) : Via :=
  match r with
  | .host _ _ u pa => ⟨owner, va, u / 4096 * 4096 + va % 4096, true, pa.isSome, d.tr.epoch⟩
  | _ => ⟨owner, va, 0, false, true, d.tr.epoch⟩

/-- A translation waits for an ATS reply. -/
def TRes.waits : TRes → Bool
  | .wait => true
  | _ => false

/-- Translate one address for an access of an engine. -/
def Dev.translate (d : Dev) (eng owner va access : Nat) : Dev × TRes :=
  match d.lookup eng owner va access with
  | (d, .wait) => (d, .wait)
  | (d, r) => (d.atsUse owner access [va], r)

/-- What one lookup covers (R469, R476): the 64 KiB page of an address, or its 4 KiB page in a host window, whose place and size
are multiples of 64 KiB as every window's are. -/
def Dev.transUnit (d : Dev) (owner va : Nat) : Bool × Nat :=
  match d.windowAt owner va with
  | some (_, w) => if w.home = 3 then (true, va / 4096) else (false, va / 65536)
  | none => (false, va / 65536)

/-- The translation of another address of the same unit. -/
def TRes.at (r : TRes) (first va : Nat) : TRes :=
  match r with
  | .dev win w x => .dev win w (x + va - first)
  | .host win w u pa => .host win w (u + va - first) (pa.map fun x => x + va - first)
  | r => r

/-- Look up the pages that addresses lie in, each once, in ascending address (R469): first address and translation of each. -/
def Dev.lookupPages (d : Dev) (eng owner access : Nat) (vas : List Nat) : Dev × List ((Bool × Nat) × Nat × TRes) :=
  (vas.foldl (fun l a => insertNat a l) []).foldl (fun acc va =>
    let k := acc.1.transUnit owner va
    if acc.2.any fun e => e.1 = k then acc
    else
      let (d, r) := acc.1.lookup eng owner va access
      (d, acc.2 ++ [(k, va, r)])) (d, [])

/-- The translation of an address among those of its pages. -/
def Dev.pickPage (d : Dev) (owner : Nat) (us : List ((Bool × Nat) × Nat × TRes)) (va : Nat) : TRes :=
  match us.find? fun e => e.1 = d.transUnit owner va with
  | some e => e.2.2.at e.2.1 va
  | none => .wait

/-- Translate the addresses of one access: every page is looked up before anything goes on (R54, R436, R469). -/
def Dev.translateEach (d : Dev) (eng owner access : Nat) (vas : List Nat) : Dev × List TRes :=
  let (d, us) := d.lookupPages eng owner access vas
  let rs := vas.map (d.pickPage owner us)
  (if rs.any (·.waits) then d else d.atsUse owner access vas, rs)

/-- The window check alone, for a range of bytes: every byte lies in one window that permits the access. -/
def Dev.windowPermits (d : Dev) (owner va len access : Nat) : Bool :=
  match d.windowAt owner va with
  | some (_, w) => permits w.r w.w w.x access && va + len ≤ w.base + w.size
  | none => false

/-- Remove the translations that a selection names: every µTLB, both STLBs, both walk caches and the ATC (R470). -/
def Dev.tlbRemove (d : Dev) (selE : TlbEntry → Bool) (selW : WalkEntry → Bool) : Dev :=
  let f := fun (m : List (Nat × List TlbEntry)) =>
    (m.map fun e => (e.1, e.2.filter fun x => !selE x)).filter fun e => !e.2.isEmpty
  let g := fun (m : List (Nat × List WalkEntry)) =>
    (m.map fun e => (e.1, e.2.filter fun x => !selW x)).filter fun e => !e.2.isEmpty
  { d with tr := { d.tr with utlb := f d.tr.utlb, stlb := f d.tr.stlb, walk := g d.tr.walk,
                             atc := d.tr.atc.filter fun x => !selE x } }

/-- First virtual address and length a cached leaf covers; an ATC entry covers its place in the window. -/
def Dev.entrySpan (d : Dev) (e : TlbEntry) : Nat × Nat :=
  if e.span ≠ 0 then
    match d.window e.owner e.win with
    | some w =>
      let lo := max e.page w.hostBase
      (w.base + (lo - w.hostBase), min (e.page + e.span) (w.hostBase + w.size) - lo)
    | none => (0, 2 ^ 52)
  else if e.block then (e.page * 2 ^ 28, 2 ^ 28) else (e.page * 2 ^ 16, 2 ^ 16)

/-- The entries a TLB_INVALIDATE selects, removed (R470): mode 0 ALL, 1 OWNER, 2 WINDOW, 3 RANGE. -/
def Dev.tlbInvalidate (d : Dev) (mode owner win base len : Nat) : Dev :=
  let meets := fun (s : Nat × Nat) => s.1 < base + len && base < s.1 + s.2
  d.tlbRemove
    (fun e => mode = 0 || (e.owner = owner && (mode = 1 || (mode = 2 && e.win = win) || (mode = 3 && meets (d.entrySpan e)))))
    (fun e => mode = 0 || (e.owner = owner && (mode = 1 || (mode = 2 && e.win = win) || (mode = 3 && meets (e.tag * 2 ^ 28, 2 ^ 28)))))

/-- Key slot of accesses through a window: the owner's when ENC is 1, none otherwise (R661). -/
def Window.key (w : Window) : Nat := if w.enc then w.keySlot else 512

/-- A request to the L2 made through a window. -/
def winReq (who owner : Nat) (w : Window) (x : Nat) (write : Bool) (mask data poison : Nat) : L2Req :=
  ⟨who, owner, x / 128 * 128, write, mask, data, poison, w.policy, w.l2p, w.key⟩

/-- Requester number of an engine (R318): cores by number, link complexes 256 and 257, the precentor 259; the Clerestory's
captures come as the precentor's (assumption 9). -/
def requesterOf (eng : Nat) : Nat :=
  match eng / 4096 with
  | 0 => eng % 4096
  | 1 => eng % 4096
  | 2 => 256 + eng % 4096
  | _ => 259

/-- What an access by virtual address yields: bytes with a poison flag, a wait, or a failed check. -/
inductive VRes where
  | ok (bs : List Byte) (poison : Bool)
  | wait
  | fail (f : TFail)
  deriving DecidableEq, Repr

/-- The pieces of a range that lie in one 4 KiB page each, the smallest unit a host translation covers (R477). -/
def pagePieces : Nat → Nat → Nat → List (Nat × Nat)
  | 0, _, _ => []
  | f + 1, x, n =>
    if n = 0 then []
    else
      let k := min n (4096 - x % 4096)
      (x, k) :: pagePieces f (x + k) (n - k)

/-- Translate every piece of a range (R469): the translated pieces, or a wait, or the first failure. -/
def Dev.translateAll (d : Dev) (eng owner access : Nat) (ps : List (Nat × Nat)) : Dev × (List (TRes × Nat × Nat) ⊕ TRes) :=
  let (d, rs) := d.translateEach eng owner access (ps.map (·.1))
  (d, if rs.any (·.waits) then .inr .wait
    else match rs.find? fun r => match r with | .fail _ => true | _ => false with
      | some r => .inr r
      | none => .inl (rs.zip ps))

/-- Write bytes at a DPA through a window. -/
def Dev.winWrite (d : Dev) (who owner : Nat) (w : Window) (x : Nat) (bs : List Byte) (poison : Bool) : Dev :=
  (linePieces (bs.length / 128 + 2) x bs.length).foldl
    (fun d p =>
      let o := p.1 % 128
      (d.l2Access (winReq who owner w p.1 true ((2 ^ p.2 - 1) * 2 ^ o)
        (leNat ((bs.drop (p.1 - x)).take p.2) * 2 ^ (8 * o)) (if poison then 15 else 0))).1) d

/-- Read bytes at a DPA through a window. -/
def Dev.winRead (d : Dev) (who owner : Nat) (w : Window) (x n : Nat) : Dev × List Byte × Bool :=
  (linePieces (n / 128 + 2) x n).foldl
    (fun acc p =>
      let o := p.1 % 128
      let (d, v, po) := acc.1.l2Access (winReq who owner w p.1 false 0 0 0)
      (d, acc.2.1 ++ leBytes p.2 (bits v (8 * o) (8 * p.2)), acc.2.2 || (po &&& sectorsOf ((2 ^ p.2 - 1) * 2 ^ o)) ≠ 0))
    (d, [], false)

/-- Write bytes by virtual address as an engine for an owner: every page is translated before any byte moves; a host window
sends the bytes on the posted path (R469, R476). -/
def Dev.vaWrite (d : Dev) (eng owner va : Nat) (bs : List Byte) (poison : Bool) : Dev × VRes :=
  match d.translateAll eng owner 1 (pagePieces (bs.length / 4096 + 2) va bs.length) with
  | (d, .inr (.fail f)) => (d, .fail f)
  | (d, .inr _) => (d, .wait)
  | (d, .inl ps) =>
    (ps.foldl (fun d p =>
      let chunk := (bs.drop (p.2.1 - va)).take p.2.2
      match p.1 with
      | .dev _ w x => d.winWrite (requesterOf eng) owner w x chunk poison
      | .host _ _ u pa => d.postWrite (d.via owner p.2.1 p.1) (pa.getD u) chunk poison
      | _ => d) d, .ok [] false)

/-- Read bytes of device memory by virtual address as an engine for an owner. A host window answers `wait` and sends the read
request; its user takes the data from HOST_COMPLETION. -/
def Dev.vaRead (d : Dev) (eng owner va n use arg : Nat) : Dev × VRes :=
  match d.translateAll eng owner 0 (pagePieces (n / 4096 + 2) va n) with
  | (d, .inr (.fail f)) => (d, .fail f)
  | (d, .inr _) => (d, .wait)
  | (d, .inl ps) =>
    if ps.any (fun p => match p.1 with | .host .. => true | _ => false) then
      (ps.foldl (fun d p => match p.1 with
        | .host _ _ u pa => d.hostReadReq (d.via owner p.2.1 p.1) (pa.getD u) p.2.2 use arg
        | _ => d) d, .wait)
    else
      let r := ps.foldl (fun (acc : Dev × List Byte × Bool) p =>
        match p.1 with
        | .dev _ w x =>
          let (d, b, po) := acc.1.winRead (requesterOf eng) owner w x p.2.2
          (d, acc.2.1 ++ b, acc.2.2 || po)
        | _ => acc) (d, [], false)
      (r.1, .ok r.2.1 r.2.2)

end Sys2Proof.Machine
end

