-- ==== Sys2Proof/Machine/Hbm.lean ====
section
/-! DEFINITION. Machine/Hbm.lean: the memory controllers (chapter 15): reads and writes of sectors, error classification,
column erasure, page retirement, temperature, refresh, patrol, test state and traffic generators. -/

namespace Sys2Proof.Machine

/-- The outcome of a write to an object: the device after it, or the status of Table 18.3 that refuses it. -/
abbrev WRes := Except Nat Dev

/-- RANGE (Table 18.3). -/
def stRange : Nat := 6
/-- STATE (Table 18.3). -/
def stState : Nat := 7

/-- ENGINE of the controller of a channel (Table 14.6, kind 7). -/
def memEng (ch : Nat) : Nat := 0x7000 + ch

/-- Number of sectors of one pseudo-channel (Table 15.1). -/
def Dev.pcSectors (d : Dev) : Nat := if d.oget O.VARIANT = 0 then 18874368 else 25165824

/-- The DPA of a pseudo-channel address of a channel (R705, read backwards). -/
def dpaOf (ch pc a : Nat) : Nat :=
  let die := ch / 128
  let s := ch / 32 % 4
  let j := ch % 32 / 2
  let c := ch % 2
  let hi := a / 4096
  let o := hi * 2 ^ 20 + j * 2 ^ 16 + bits a 8 4 * 2 ^ 12 + (pc ^^^ bits hi 3 1) * 2 ^ 11 + (c ^^^ bits hi 2 1) * 2 ^ 10 +
    (s ^^^ bits hi 0 2) * 2 ^ 8 + bits a 0 8
  (if die = 0 then 0 else southBase) + o

/-- The page DPA[39:16] of a tracker's row on a channel (R706). -/
def pageOfRow (ch : Nat) (t : Tracker) : Nat := dpaOf ch t.pc (t.sid * 201326592 + t.row * 16384 + t.bank * 4096) / 65536

/-- The page is in RETIRED_LIST (R716). -/
def Dev.retired (d : Dev) (page : Nat) : Bool :=
  (rangeFrom 0 (d.oget O.RETIRED_COUNT)).any fun i => bits (d.oget (O.RETIRED_LIST i)) 40 24 = page

/-- Offer a page for retirement (R716, R719, R720). -/
def Dev.retireRequest (d : Dev) (ch page cls n : Nat) : Dev :=
  if d.retired page then d
  else
    let put := fun (l : List Retire) => { d with mem := { d.mem with pending := l } }
    if d.mem.pending.any (fun r => r.page = page) then
      put (mapIf (fun r => r.page = page)
        (fun r => { r with time := d.time, cls := max r.cls cls, count := min 255 (r.count + n) }) d.mem.pending)
    else
      let r : Retire := ⟨d.time, page, cls, min 255 n, ch⟩
      let tell := fun (d : Dev) => (d.msix 0 2).notify ⟨6, 0, cls, 0, 0x6040, 0⟩
      if d.mem.pending.length < 256 then tell (put (d.mem.pending ++ [r]))
      else
        match d.mem.pending.find? fun x => x.cls < cls with
        | some x => tell (put (d.mem.pending.erase x ++ [r]))
        | none => d.oinc O.RETIRE_REQUESTS_LOST

/-- Column position of a tracker, packed: the byte position an erasure names (R717). -/
def erasureOf (pc sid bg bank burst byte : Nat) : Nat :=
  ((((pc * 4 + sid) * 4 + bg) * 4 + bank) * 32 + burst) * 64 + byte

/-- Feed a correctable error to the classifier (R715, R718). -/
def Dev.classify (d : Dev) (ch : Nat) (t : Tracker) : Dev :=
  let old := dget [] d.mem.trackers ch
  let d := if 64 ≤ old.length then d.oinc (O.CLASS_COUNTS 3) else d
  let l := (if 64 ≤ old.length then old.drop 1 else old) ++ [t]
  let col := fun (x : Tracker) => x.pc = t.pc && x.sid = t.sid && x.bg = t.bg && x.bank = t.bank && x.burst = t.burst &&
    x.bit = t.bit && decide (t.time ≤ x.time + 10000000000)
  let row := fun (x : Tracker) => x.pc = t.pc && x.sid = t.sid && x.bg = t.bg && x.bank = t.bank && x.row = t.row &&
    decide (t.time ≤ x.time + 10000000000)
  let cell := fun (x : Tracker) => x.pc = t.pc && x.sid = t.sid && x.bg = t.bg && x.bank = t.bank && x.row = t.row &&
    x.burst = t.burst && x.bit = t.bit && decide (t.time ≤ x.time + 86400000000000)
  let keep := fun (l : List Tracker) => { d with mem := { d.mem with trackers := dset [] d.mem.trackers ch l } }
  let distinct := fun (xs : List Nat) => xs.foldl (fun acc x => if acc.contains x then acc else acc ++ [x]) []
  let cs := l.filter col
  let rs := l.filter row
  let es := l.filter cell
  if 4 ≤ cs.length && 3 ≤ (distinct (cs.map (·.row))).length then
    let d := (keep (l.filter fun x => !col x)).oinc (O.CLASS_COUNTS 2)
    let er := dget [] d.mem.erasures ch
    if er.length < 8 then
      let d := { d with mem := { d.mem with
        erasures := dset [] d.mem.erasures ch (er ++ [erasureOf t.pc t.sid t.bg t.bank t.burst (t.bit / 8)]) } }
      d.oset (O.COLUMN_ERASURES ch) (er.length + 1)
    else (distinct (cs.map (pageOfRow ch))).foldl (fun d p => d.retireRequest ch p 3 (cs.filter fun x => pageOfRow ch x = p).length) d
  else if 4 ≤ (distinct (rs.map (·.burst))).length then
    ((keep (l.filter fun x => !row x)).oinc (O.CLASS_COUNTS 1)).retireRequest ch (pageOfRow ch t) 2 rs.length
  else if 2 ≤ es.length then
    ((keep (l.filter fun x => !cell x)).oinc (O.CLASS_COUNTS 0)).retireRequest ch (pageOfRow ch t) 1 es.length
  else keep l

/-- The tracker of an error at a DPA (R706, R715). -/
def trackerAt (x byte b time : Nat) : Tracker :=
  let a := pcAddr x
  ⟨pcOf x, a / 201326592, bits a 10 2, bits a 12 2, a % 201326592 / 16384, bits a 5 5, 8 * byte + b % 8, time⟩

/-- A correctable error found at a DPA (R711, R717): counted, logged, and classified unless the byte is erased. -/
def Dev.memCorrected (d : Dev) (x byte b : Nat) : Dev :=
  let ch := channelOf x
  let t := trackerAt x byte b d.time
  let d := ((d.oinc O.HBM_CORRECTED).corrected (memEng ch) (x / 32 * 32)).count 2 ch 7 1
  let times := d.time :: (dget [] d.mem.recent ch).filter fun t => d.time < t + 1000000000
  let d := { d with mem := { d.mem with recent := dset [] d.mem.recent ch times } }
  if (dget [] d.mem.erasures ch).contains (erasureOf t.pc t.sid t.bg t.bank t.burst byte) then d else d.classify ch t

/-- A command that passes command/address parity ends a run of failures on its channel (R738). -/
def Dev.parityOk (d : Dev) (x : Nat) : Dev := { d with mem := { d.mem with parityFails := mdel d.mem.parityFails (channelOf x) } }

/-- A read for an owner finds an uncorrectable error: counted, logged, and its page offered for retirement (R712). -/
def Dev.memLost (d : Dev) (x owner : Nat) : Dev :=
  ((d.oinc O.HBM_UNCORRECTED).raise { cause := 5, owner := owner, eng := memEng (channelOf x), addr := x / 32 * 32 }).retireRequest
    (channelOf x) (x / 65536) 4 1

/-- A controller reads a sector for an owner (R711 to R713). -/
def Dev.hbmRead (d : Dev) (x owner : Nat) (err : MemErr) : Dev :=
  let s := x / 32
  let d := (d.memWake x).parityOk x
  if !d.reachable x then d.emit (.memData (32 * s) 0 true)
  else
    let (v, p) := d.sector s (dget 0 d.mem.keyOf s)
    if p then d.emit (.memData (32 * s) v true)
    else
      match err with
      | .clean => d.emit (.memData (32 * s) v false)
      | .onDie => (d.oinc O.HBM_ONDIE_CORRECTED).emit (.memData (32 * s) v false)
      | .correctable byte b => (d.memCorrected x byte b).emit (.memData (32 * s) v false)
      | .uncorrectable => (d.memLost x owner).emit (.memData (32 * s) v true)

/-- The controller itself finds an error in a sector that holds no poison mark, on patrol or as it merges a write (R713, R728): an
uncorrectable one leaves the mark and is reported to no requester. -/
def Dev.memScrub (d : Dev) (x : Nat) (err : MemErr) : Dev :=
  if dget false d.mem.poison (x / 32) then d
  else
    match err with
    | .clean => d
    | .onDie => d.oinc O.HBM_ONDIE_CORRECTED
    | .correctable byte b => d.memCorrected x byte b
    | .uncorrectable =>
      let d := { d with mem := { d.mem with poison := dset false d.mem.poison (x / 32) true } }
      let d := (d.oinc O.HBM_UNCORRECTED).raise { cause := 5, eng := memEng (channelOf x), addr := x / 32 * 32 }
      d.retireRequest (channelOf x) (x / 65536) 4 1

/-- A controller writes bytes of a sector (R709, R713): a write of some of its bytes reads the sector to merge them. -/
def Dev.hbmWrite (d : Dev) (x mask data : Nat) (poison : Bool) (err : MemErr) : Dev :=
  if d.reachable x then
    let d := (d.memWake x).parityOk x
    let d := if mask = 0 || mask = 2 ^ 32 - 1 then d else d.memScrub x err
    d.storeSector (x / 32) (dget 0 d.mem.keyOf (x / 32)) mask data poison
  else d

/-- Append a page to RETIRED_LIST with the power-on hours of R1029, and drop its pending entry (R721). -/
def Dev.retireAdd (d : Dev) (v : Nat) : WRes :=
  let page := bits v 16 24
  let cls := bits v 0 8
  if v / 2 ^ 40 ≠ 0 || bits v 8 8 ≠ 0 || cls = 0 || 4 < cls || (d.homeDie (page * 65536)).isNone then .error stRange
  else
    let drop := fun (d : Dev) => { d with mem := { d.mem with pending := d.mem.pending.filter fun r => r.page ≠ page } }
    if d.retired page then .ok (drop d)
    else
      let n := d.oget O.RETIRED_COUNT
      if 8192 ≤ n then .error stState
      else
        let e := page * 2 ^ 40 + cls * 2 ^ 32 + d.oget O.POWER_ON_SECONDS / 3600 % 2 ^ 32
        let d := (d.oset (O.RETIRED_LIST n) e).oset O.RETIRED_COUNT (n + 1)
        .ok (drop { d with dict := { d.dict with commits := d.dict.commits ++ [O.RETIRED_LIST n] } })

/-- Dismiss one pending request, or all (R721). -/
def Dev.retireAck (d : Dev) (v : Nat) : WRes :=
  if v = 2 ^ 64 - 1 then .ok { d with mem := { d.mem with pending := [] } }
  else if v / 2 ^ 40 ≠ 0 || bits v 0 16 ≠ 0 then .error stRange
  else .ok { d with mem := { d.mem with pending := d.mem.pending.filter fun r => r.page ≠ bits v 16 24 } }

/-- The 16-byte record of a pending request (Table 15.6). -/
def Retire.code (r : Retire) : Nat :=
  r.channel * 2 ^ 16 + r.count * 2 ^ 24 + r.cls * 2 ^ 32 + r.page * 2 ^ 40 + r.time * 2 ^ 64

/-- Lower bound of a temperature band, degrees times 4 (Table 15.8). -/
def bandLow : Nat → Int
  | 0 => -4096
  | 1 => 340
  | 2 => 380
  | 3 => 400
  | _ => 420

/-- The band after a reading: entered at its lower bound, left 3 degrees below it (R725). -/
def nextBand (cur : Nat) (t : Int) : Nat :=
  let raw := ((rangeFrom 0 5).filter fun k => decide (bandLow k ≤ t)).length - 1
  let held := ((rangeFrom 0 (cur + 1)).filter fun k => decide (bandLow k - 12 ≤ t)).length - 1
  max raw held

/-- Report the entry into a band (Table 15.8). -/
def Dev.bandReport (d : Dev) (stack band : Nat) : Dev :=
  if band = 2 then d.noteEvent 0 0 (memEng (32 * stack))
  else if 3 ≤ band then
    (((d.raise { cause := 0x11, eng := memEng (32 * stack) }).msix 0 3).notify ⟨3, 0x11, 0, 0, 0x6020, 0⟩)
  else d

/-- A controller reads its stack's temperature (R725, R739). -/
def Dev.stackTemp (d : Dev) (stack : Nat) (t : Int) : Dev :=
  let cur := dget 0 d.mem.band stack
  let nb := nextBand cur t
  let d := d.oset (O.STACK_TEMP stack) (ofSigned 16 t)
  let d := { d with mem := { d.mem with band := dset 0 d.mem.band stack nb } }
  (rangeFrom (cur + 1) (nb - cur)).foldl (fun d b => d.bandReport stack b) d

/-- Intervals a bank's refresh is postponed, plus 8: 8 is on time, 16 is postponed by 8, 0 is pulled in by 8 (R726). -/
def Mem.lag (m : Mem) (ch bank : Nat) : Nat := dget 8 m.postponed (128 * ch + bank)

/-- Per-bank refresh (R726): 0 a refresh now, 1 an interval that passes postponed, 2 one pulled in, 3 RFM. A postponement past
8 intervals is not taken: the refresh is issued. -/
def Dev.refresh (d : Dev) (ch bank kind : Nat) : Dev :=
  let m := d.mem
  let lag := m.lag ch bank
  let issue := fun (l : Nat) => { d with mem := { m with
    postponed := dset 8 m.postponed (128 * ch + bank) l, refreshed := dset 0 m.refreshed ch (dget 0 m.refreshed ch + 1) } }
  if kind = 1 && lag < 16 then { d with mem := { m with postponed := dset 8 m.postponed (128 * ch + bank) (lag + 1) } }
  else if kind = 2 && 0 < lag then issue (lag - 1)
  else if kind = 0 && 8 < lag then issue (lag - 1)
  else issue lag

/-- Strobe realignment (after R724). -/
def Dev.strobe (d : Dev) (ch : Nat) : Dev := { d with mem := { d.mem with strobes := mset d.mem.strobes ch d.time } }

/-- The next sector of a channel's patrol (R728). -/
def Dev.patrolDpa (d : Dev) (ch : Nat) : Nat :=
  let n := dget 0 d.mem.patrolAt ch
  dpaOf ch (n / d.pcSectors) (32 * (n % d.pcSectors))

/-- Patrol reads the next sector of a channel (R728, R729). -/
def Dev.patrol (d : Dev) (ch : Nat) (err : MemErr) : Dev :=
  if d.oget (O.TG_STATUS ch) = 1 then d
  else
    let x := d.patrolDpa ch
    let n := dget 0 d.mem.patrolAt ch
    let next := if n + 1 = 2 * d.pcSectors then 0 else n + 1
    Dev.memScrub { d with mem := { d.mem with patrolAt := dset 0 d.mem.patrolAt ch next } } x err

/-- Bring a channel group OFFLINE (R740, R742): its data is lost. -/
def Dev.groupOffline (d : Dev) (g : Nat) : Dev :=
  let d := d.oset (O.MEM_GROUP_STATE g) 2
  let mine := fun (x : Nat) => groupOf x = g
  { d with mem := { d.mem with cells := mkeep (fun a => !mine a) d.mem.cells,
                               poison := mkeep (fun s => !mine (32 * s)) d.mem.poison,
                               raw := mkeep (fun s => !mine (32 * s)) d.mem.raw,
                               keyOf := mkeep (fun s => !mine (32 * s)) d.mem.keyOf } }

/-- Group of a channel (R708). -/
def groupOfChannel (ch : Nat) : Nat := 16 * (ch / 128) + ch % 32 / 2

/-- A channel becomes FAILED (R740). -/
def Dev.channelFail (d : Dev) (ch : Nat) : Dev :=
  let d := (d.oset (O.CHANNEL_STATE ch) 2).groupOffline (groupOfChannel ch)
  d.noteEvent 0x37 0 (memEng ch)

/-- A command that fails command/address parity (R738). -/
def Dev.caParity (d : Dev) (ch : Nat) (trained : Bool) : Dev :=
  let n := dget 0 d.mem.parityFails ch + 1
  let d := d.oinc O.CA_PARITY_RETRIES
  let put := fun (n : Nat) => { d with mem := { d.mem with parityFails := dset 0 d.mem.parityFails ch n } }
  if n < 4 then put n
  else if trained then put 0
  else (put 0).channelFail ch

/-- TG_CTRL 1 starts the generator only in TEST and from IDLE or DONE; otherwise TG_STATUS reads REFUSED (R730). -/
def Dev.tgStart (d : Dev) (ch : Nat) : Dev :=
  let st := d.oget (O.TG_STATUS ch)
  if d.oget (O.MEM_GROUP_STATE (groupOfChannel ch)) = 1 && (st = 0 || st = 2) then
    let d := (((d.oset (O.TG_STATUS ch) 1).oset (O.TG_ERRORS ch) 0).oset (O.TG_FIRST_ERROR ch) 0).oset (O.TG_BYTES ch) 0
    (rangeFrom 0 72).foldl (fun d i => d.oset (O.TG_LANE_ERRORS ch i) 0) d
  else d.oset (O.TG_STATUS ch) 3

/-- Taps of the RANDOM-order register of a width (Table 15.13). -/
def tgTaps : Nat → List Nat
  | 4 => [4, 3] | 5 => [5, 3] | 6 => [6, 5] | 7 => [7, 6] | 8 => [8, 6, 5, 4] | 9 => [9, 5] | 10 => [10, 7]
  | 11 => [11, 9] | 12 => [12, 6, 4, 1] | 13 => [13, 4, 3, 1] | 14 => [14, 5, 3, 1] | 15 => [15, 14]
  | 16 => [16, 15, 13, 4] | 17 => [17, 14] | 18 => [18, 11] | 19 => [19, 6, 2, 1] | 20 => [20, 17] | 21 => [21, 19]
  | 22 => [22, 21] | 23 => [23, 18] | 24 => [24, 23, 22, 17] | _ => [25, 22]

/-- One step of the RANDOM-order register (R732). -/
def tgStep (w s : Nat) : Nat :=
  let b := (tgTaps w).foldl (fun a t => a ^^^ bits s (t - 1) 1) 0
  (s * 2 ||| b) % 2 ^ w

/-- Width of the RANDOM-order register for `n` bursts (R732). -/
def tgWidth (n : Nat) : Nat := max 4 (Nat.log2 n + 1)

/-- The bursts of a pass in RANDOM order: the states from `s`, `k` steps, those that name no burst skipped (R732). -/
def tgRandom (w n : Nat) : Nat → Nat → List Nat
  | 0, _ => []
  | k + 1, s => if s - 1 < n then (s - 1) :: tgRandom w n k (tgStep w s) else tgRandom w n k (tgStep w s)

/-- The bursts of a pass of a channel's generator in order (R732). -/
def Dev.tgOrder (d : Dev) (ch : Nat) : List Nat :=
  let n := d.oget (O.TG_LENGTH ch) / 32
  if d.oget (O.TG_ADDR_ORDER ch) = 0 then rangeFrom 0 n
  else
    let w := tgWidth n
    tgRandom w n (2 ^ w - 1) (d.oget (O.TG_SEED ch) % (2 ^ w - 1) + 1)

/-- `n` bits of PRBS31 (x^31 + x^28 + 1) from a register, first bit lowest, with the register after them (Table 15.9). -/
def prbs31 : Nat → Nat → Nat → Nat → Nat × Nat
  | 0, _, acc, s => (acc, s)
  | n + 1, i, acc, s =>
    let b := bits s 30 1 ^^^ bits s 27 1
    prbs31 n (i + 1) (acc + b * 2 ^ i) ((s * 2 + b) % 2 ^ 31)

/-- Bits of a burst that a pattern drives: the data lanes, and with TG_ECC_BYPASS 1 the check lanes above them (R732). -/
def tgBits (bypass : Bool) : Nat := if bypass then 288 else 256

/-- The bits of burst `k` at pseudo-channel address `a`: data below, check bits from 256 up (Table 15.9). -/
def tgPattern (pat seed k a : Nat) (prbs : Nat) : Nat :=
  match pat with
  | 0 => (prbs31 288 0 0 prbs).1
  | 1 => 2 ^ (k % 288)
  | 2 => (rangeFrom 0 9).foldl (fun v i => v + seed % 2 ^ 32 * 2 ^ (32 * i)) 0
  | _ => (rangeFrom 0 9).foldl (fun v i => v + (a + 4 * i) % 2 ^ 32 * 2 ^ (32 * i)) 0

/-- TG_ECC_BYPASS of a channel. -/
def Dev.tgBypass (d : Dev) (ch : Nat) : Bool := d.oget (O.TG_ECC_BYPASS ch) = 1

/-- The pseudo-channels TG_PC names. -/
def tgPcs (v : Nat) : List Nat := if v = 2 then [0, 1] else [v]

/-- Write burst `k` of the pattern. -/
def Dev.tgWrite (d : Dev) (ch k prbs : Nat) : Dev :=
  let a := d.oget (O.TG_BASE ch) + 32 * k
  let v := tgPattern (d.oget (O.TG_PATTERN ch)) (d.oget (O.TG_SEED ch)) k a prbs
  (tgPcs (d.oget (O.TG_PC ch))).foldl (fun d pc =>
    let s := dpaOf ch pc a / 32
    let d := d.storeSector s 0 (2 ^ 32 - 1) (v % 2 ^ 256) false
    if d.tgBypass ch then { d with mem := { d.mem with raw := mset d.mem.raw s (bits v 256 32) } } else d) d

/-- A sector as the checker compares it: raw, with its check lanes, when the bypass is set, else as corrected. Check bits that the code
itself has written are open. -/
def Dev.tgRead (d : Dev) (s : Nat) (bypass : Bool) : Dev × Nat :=
  if !bypass then (d, (d.sector s 0).1)
  else
    let data := readLE d.mem.cells (32 * s) 32
    match mget d.mem.raw s with
    | some c => (d, data + c * 2 ^ 256)
    | none => (d.freed, data + d.freeBits 32 * 2 ^ 256)

/-- Count a miscompared burst at an address of a pseudo-channel by the bits that differ (R733). -/
def Dev.tgMiss (d : Dev) (ch pc a diff : Nat) : Dev :=
  if diff = 0 then d
  else
    let lane := fun (l : Nat) => if l < 32 then (rangeFrom 0 8).map (fun b => 32 * b + l) else (rangeFrom 0 8).map fun b => 256 + 4 * b + (l - 32)
    let lanes := (rangeFrom 0 36).map fun l => (lane l).foldl (fun n b => n + bits diff b 1) 0
    let low := (lanes.findIdx? fun n => n ≠ 0).getD 0
    let d := if d.oget (O.TG_ERRORS ch) = 0 then d.oset (O.TG_FIRST_ERROR ch) (a + pc * 2 ^ 32 + low * 2 ^ 40) else d
    let d := d.oinc (O.TG_ERRORS ch)
    (rangeFrom 0 36).foldl (fun d l => d.oadd (O.TG_LANE_ERRORS ch (36 * pc + l)) (lanes.getD l 0)) d

/-- The bytes of a burst, data and check, that an error changes. -/
def tgBytes (diff : Nat) : List Nat := (rangeFrom 0 36).filter fun b => bits diff (8 * b) 8 ≠ 0

/-- Compare burst `k` with the pattern and count what differs (R732, R733). With the bypass the burst is compared raw, as the channel
delivers it; without it one wrong byte is corrected and counted as a correction, and more are uncorrectable (R710 to R712). -/
def Dev.tgCheck (d : Dev) (ch k prbs : Nat) (errs : List TgErr) : Dev :=
  let a := d.oget (O.TG_BASE ch) + 32 * k
  let v := tgPattern (d.oget (O.TG_PATTERN ch)) (d.oget (O.TG_SEED ch)) k a prbs
  (tgPcs (d.oget (O.TG_PC ch))).foldl (fun d pc =>
    let raw := d.tgBypass ch
    let x := dpaOf ch pc a
    let (d, got) := d.tgRead (x / 32) raw
    let diff := got ^^^ (v % 2 ^ tgBits raw)
    let e := ((errs.find? fun e => e.burst = k && e.pc = pc).map (·.diff)).getD 0
    if raw then d.tgMiss ch pc a (diff ^^^ e)
    else
      match tgBytes e with
      | [] => d.tgMiss ch pc a diff
      | [b] => (d.memCorrected x b (Nat.log2 (bits e (8 * b) 8))).tgMiss ch pc a diff
      | _ => (d.memLost x 0x1FF).tgMiss ch pc a (diff ^^^ (e % 2 ^ 256))) d

/-- The bursts of a pass, written or compared, the PRBS register continuing across them. -/
def Dev.tgPass (d : Dev) (ch : Nat) (write check : Bool) (errs : List TgErr) : List Nat → Nat → Dev
  | [], _ => d
  | k :: ks, s =>
    let share := d.oget (O.TG_READ_PERCENT ch)
    let gen := d.oget (O.TG_MODE ch) = 0
    let reads := gen && decide (Config.freeValue d.free % 100 < share)
    let d := if gen then d.freed else d
    let d := if write && !reads then d.tgWrite ch k s else d
    let d := if check then d.tgCheck ch k s errs else d
    Dev.tgPass (d.oadd (O.TG_BYTES ch) (32 * (tgPcs (d.oget (O.TG_PC ch))).length)) ch write check errs ks
      (prbs31 (tgBits (d.tgBypass ch)) 0 0 s).2

/-- The first `n` bursts of the work of one pass in its mode (R731): GENERATE_CHECK writes its range, then reads it. -/
def Dev.tgOne (d : Dev) (ch n : Nat) (errs : List TgErr) : Dev :=
  let order := d.tgOrder ch
  let seed := max 1 (d.oget (O.TG_SEED ch) % 2 ^ 31)
  match d.oget (O.TG_MODE ch) with
  | 0 => d.tgPass ch true false errs (order.take n) seed
  | 1 => d.tgPass ch false true errs (order.take n) seed
  | _ => (d.tgPass ch true false errs (order.take n) seed).tgPass ch false true errs (order.take (n - order.length)) seed

/-- Bursts of the work of one pass. -/
def Dev.tgWork (d : Dev) (ch : Nat) : Nat := (d.oget (O.TG_LENGTH ch) / 32) * (if d.oget (O.TG_MODE ch) = 2 then 2 else 1)

/-- A loopback mode: the bursts loop with no memory touched, as many as no rule says, and what returns wrong is counted per lane; the
address of the first is open, since the range is ignored (R731). -/
def Dev.tgLoop (d : Dev) (ch : Nat) (errs : List TgErr) : Dev :=
  let d := Dev.freed (d.oadd (O.TG_BYTES ch) (32 * Config.freeValue d.free))
  let a := d.freeBits 32
  (errs.filter fun e => (tgPcs (d.oget (O.TG_PC ch))).contains e.pc).foldl (fun d e => d.tgMiss ch e.pc a e.diff) d.freed

/-- Carry out `n` bursts of a generator's work: whole passes, and the part of one more. -/
def Dev.tgCarry (d : Dev) (ch n : Nat) (errs : List TgErr) : Dev :=
  let m := d.tgWork ch
  let of := fun (p : Nat) => errs.filter fun e => e.pass = p
  let d := (rangeFrom 0 (n / m)).foldl (fun d p => d.tgOne ch m (of p)) d
  d.tgOne ch (n % m) (of (n / m))

/-- A generator completes its passes (R731, R733), or one more of them where it runs until STOP. Passes after the first write and read
the same range with the same pattern. -/
def Dev.tgDone (d : Dev) (ch : Nat) (errs : List TgErr) : Dev :=
  if d.oget (O.TG_STATUS ch) ≠ 1 then d
  else
    let passes := d.oget (O.TG_PASSES ch)
    let d := if 3 ≤ d.oget (O.TG_MODE ch) then d.tgLoop ch errs else d.tgCarry ch (max 1 passes * d.tgWork ch) errs
    if passes = 0 then d else d.oset (O.TG_STATUS ch) 2

/-- Stop a channel's generator, leaving DONE (R730). A running one has carried out some of its bursts, as many as no rule says. -/
def Dev.tgStop (d : Dev) (ch : Nat) : Dev :=
  let d :=
    if d.oget (O.TG_STATUS ch) ≠ 1 then d
    else if 3 ≤ d.oget (O.TG_MODE ch) then d.tgLoop ch []
    else
      let n := Config.freeValue d.free
      let passes := d.oget (O.TG_PASSES ch)
      d.freed.tgCarry ch (if passes = 0 then n else n % (passes * d.tgWork ch + 1)) []
  d.oset (O.TG_STATUS ch) 2

/-- Channels of a group (R708). -/
def channelsOf (g : Nat) : List Nat :=
  (rangeFrom 0 8).map fun i => 128 * (g / 16) + 32 * (i / 2) + 2 * (g % 16) + i % 2

/-- MEM_GROUP_CTRL (R729): ENTER_TEST takes effect once every request accepted for the group has completed. -/
def Dev.groupCtrl (d : Dev) (v : Nat) : WRes :=
  let g := bits v 0 5
  let op := v / 256
  if bits v 5 3 ≠ 0 || (op ≠ 1 && op ≠ 2) then .error stRange
  else if op = 1 then
    if d.oget (O.MEM_GROUP_STATE g) = 2 then .error stState
    else .ok ((d.l2Finish fun a => groupOf (128 * a) = g).oset (O.MEM_GROUP_STATE g) 1)
  else if d.oget (O.MEM_GROUP_STATE g) ≠ 1 then .error stState
  else .ok (((channelsOf g).foldl (fun d c => if d.oget (O.TG_STATUS c) = 1 then d.tgStop c else d) d).oset (O.MEM_GROUP_STATE g) 0)

end Sys2Proof.Machine
end

