-- ==== Sys2Proof/Machine/Fp.lean ====
section
/-! DEFINITION. Machine/Fp.lean: number formats, rounding and flags (chapter 5). A floating-point operation computes its exact
result as a sign, a natural significand and an exponent, and rounds once (R229). -/

namespace Sys2Proof.Machine

/-! ### Formats -/

/-- Width of a format code in bits (Tables 5.1, 5.2). -/
def fmtWidth : Nat → Nat
  | 0 | 1 | 5 => 32
  | 2 | 3 | 4 => 64
  | 6 | 7 => 16
  | 8 | 9 | 11 => 8
  | _ => 4

/-- Exponent bits, fraction bits and bias of a floating-point format (Table 5.1). -/
def fmtShape : Nat → Nat × Nat × Nat
  | 4 => (11, 52, 1023)
  | 5 => (8, 23, 127)
  | 6 => (5, 10, 15)
  | 7 => (8, 7, 127)
  | 8 => (4, 3, 7)
  | 9 => (5, 2, 15)
  | _ => (2, 1, 1)

/-- L, the largest finite value (Table 5.1). -/
def fmtMax : Nat → Nat
  | 4 => 0x7FEFFFFFFFFFFFFF
  | 5 => 0x7F7FFFFF
  | 6 => 0x7BFF
  | 7 => 0x7F7F
  | 8 => 0x7E
  | 9 => 0x7B
  | _ => 7

/-- The canonical NaN (Table 5.1); E2M1 has none and gives +0 (Table 5.3). -/
def fmtNan : Nat → Nat
  | 4 => 0x7FF8000000000000
  | 5 => 0x7FC00000
  | 6 => 0x7E00
  | 7 => 0x7FC0
  | 8 => 0x7F
  | 9 => 0x7E
  | _ => 0

/-- Invalid operation, the flag NV of SR_FLAGS. -/
def fNV : Nat := 16
/-- Division by zero. -/
def fDZ : Nat := 8
/-- Overflow. -/
def fOF : Nat := 4
/-- Underflow. -/
def fUF : Nat := 2
/-- Inexact. -/
def fNX : Nat := 1

/-- The sign bit of a format, for a negative value. -/
def signBit (f : Nat) (neg : Bool) : Nat := if neg then 2 ^ (fmtWidth f - 1) else 0

/-- A decoded value: NaN (signaling or not), an infinity, or (−1)^neg · m · 2^e. -/
inductive FVal where
  | nan (sig : Bool)
  | inf (neg : Bool)
  | fin (neg : Bool) (m : Nat) (e : Int)
  deriving DecidableEq, Repr

/-- A result with its flags. -/
structure FRes where
  bits : Nat
  flags : Nat
  deriving DecidableEq, Repr

/-- The value a bit pattern encodes (R221 to R223). -/
def fpDecode (f x : Nat) : FVal :=
  let (eb, fb, bias) := fmtShape f
  let neg := bit x (eb + fb)
  let ex := bits x fb eb
  let fr := bits x 0 fb
  if f = 8 && ex = 15 && fr = 7 then .nan false
  else if f ≠ 8 && f ≠ 10 && ex = 2 ^ eb - 1 then
    if fr = 0 then .inf neg else .nan (!bit fr (fb - 1))
  else if ex = 0 then .fin neg fr (1 - (bias : Int) - fb)
  else .fin neg (2 ^ fb + fr) ((ex : Int) - bias - fb)

/-- A pattern is a nonzero subnormal. -/
def fpSubnormal (f x : Nat) : Bool :=
  let (eb, fb, _) := fmtShape f
  bits x fb eb = 0 && bits x 0 fb ≠ 0

/-- A 16-bit source under FTZ16: a subnormal reads as zero of its sign (R236). -/
def ftzIn (ftz : Bool) (f x : Nat) : Nat :=
  if ftz && (f = 6 || f = 7) && fpSubnormal f x then x / 2 ^ 15 % 2 * 2 ^ 15 else x

/-! ### Rounding -/

/-- Rounding directions: 0 nearest even, 1 toward zero, 2 toward +∞, 3 toward −∞. Round `m · 2^e` to a multiple of `2^q`: the
multiple, and whether it is inexact. -/
def roundQ (rm : Nat) (neg : Bool) (m : Nat) (e q : Int) : Nat × Bool :=
  if q ≤ e then (m * 2 ^ (e - q).toNat, false)
  else
    let k := (q - e).toNat
    let r := m / 2 ^ k
    let rem := m % 2 ^ k
    let up :=
      match rm with
      | 0 => decide (2 ^ k < 2 * rem) || (2 * rem = 2 ^ k && r % 2 = 1)
      | 1 => false
      | 2 => decide (rem ≠ 0) && !neg
      | _ => decide (rem ≠ 0) && neg
    (if up then r + 1 else r, decide (rem ≠ 0))

/-- IEEE 754 gives an infinity on overflow in this direction (R231). -/
def overflowAway (rm : Nat) (neg : Bool) : Bool := rm = 0 || (rm = 2 && !neg) || (rm = 3 && neg)

/-- The result of an overflow (Table 5.3). -/
def fpOverflow (f rm : Nat) (sat neg : Bool) : FRes :=
  let s := signBit f neg
  let r :=
    if f = 10 then s + fmtMax f
    else if f = 8 then if sat || !overflowAway rm neg then s + fmtMax f else fmtNan f
    else if overflowAway rm neg then s + fmtMax f + 1 else s + fmtMax f
  ⟨r, fOF + fNX⟩

/-- Round the exact value (−1)^neg · m · 2^e into a format (R229 to R231, R235, R236). -/
def fpRound (f rm : Nat) (sat ftz neg : Bool) (m : Nat) (e : Int) : FRes :=
  let (_, fb, bias) := fmtShape f
  if m = 0 then ⟨signBit f neg, 0⟩
  else
    let top := e + Nat.log2 m
    let emin := 1 - (bias : Int)
    let u := (roundQ rm neg m e (top - fb)).1
    let tiny := decide (top - fb + Nat.log2 u < emin)
    let q := max top emin - fb
    let r := roundQ rm neg m e q
    if ftz && (f = 6 || f = 7) && tiny then ⟨signBit f neg, fUF + fNX⟩
    else
      let b := (q + fb + bias - 1).toNat * 2 ^ fb + r.1
      if fmtMax f < b then fpOverflow f rm sat neg
      else ⟨signBit f neg + b, (if r.2 then fNX else 0) + (if r.2 && tiny then fUF else 0)⟩

/-- An infinity of a format, for arithmetic results. -/
def fpInf (f : Nat) (neg : Bool) : Nat := signBit f neg + fmtMax f + 1

/-! ### Arithmetic on voices -/

/-- Sum of two dyadic numbers: integer significand and exponent. -/
def dyAdd (a b : Int × Int) : Int × Int :=
  if a.2 ≤ b.2 then (a.1 + b.1 * 2 ^ (b.2 - a.2).toNat, a.2) else (a.1 * 2 ^ (a.2 - b.2).toNat + b.1, b.2)

/-- A signed significand. -/
def signedM (neg : Bool) (m : Nat) : Int := if neg then -(m : Int) else m

/-- A value is a signaling NaN. -/
def FVal.isSig : FVal → Bool
  | .nan s => s
  | _ => false

/-- A value is a NaN. -/
def FVal.isNan : FVal → Bool
  | .nan _ => true
  | _ => false

/-- A value is zero. -/
def FVal.isZero : FVal → Bool
  | .fin _ m _ => m = 0
  | _ => false

/-- The sign of a value. -/
def FVal.sign : FVal → Bool
  | .nan _ => false
  | .inf n => n
  | .fin n _ _ => n

/-- NV for a signaling operand. -/
def sigFlag (l : List FVal) : Nat := if l.any FVal.isSig then fNV else 0

/-- Fused multiply-add a·b + c on decoded values, rounded once (R229, R238, R239, R241). -/
def fpFmaV (f rm : Nat) (ftz : Bool) (a b c : FVal) : FRes :=
  let invalid := match a, b with
    | .inf _, y => y.isZero
    | x, .inf _ => x.isZero
    | _, _ => false
  if invalid then ⟨fmtNan f, fNV⟩
  else if a.isNan || b.isNan || c.isNan then ⟨fmtNan f, sigFlag [a, b, c]⟩
  else
    let sp := xor a.sign b.sign
    match a, b, c with
    | .fin _ ma ea, .fin _ mb eb, .fin nc mc ec =>
      let s := dyAdd (signedM sp (ma * mb), ea + eb) (signedM nc mc, ec)
      if s.1 = 0 then ⟨signBit f (if sp = nc then sp else decide (rm = 3)), 0⟩
      else fpRound f rm false ftz (decide (s.1 < 0)) s.1.natAbs s.2
    | .fin _ _ _, .fin _ _ _, .inf nc => ⟨fpInf f nc, 0⟩
    | _, _, .inf nc => if nc = sp then ⟨fpInf f sp, 0⟩ else ⟨fmtNan f, fNV⟩
    | _, _, _ => ⟨fpInf f sp, 0⟩

/-- Add: the fused operation with factor one. -/
def fpAdd (f rm : Nat) (ftz : Bool) (a b : Nat) : FRes :=
  fpFmaV f rm ftz (fpDecode f (ftzIn ftz f a)) (.fin false 1 0) (fpDecode f (ftzIn ftz f b))

/-- Multiply: the fused operation with a zero of the product's sign. -/
def fpMul (f rm : Nat) (ftz : Bool) (a b : Nat) : FRes :=
  let x := fpDecode f (ftzIn ftz f a)
  let y := fpDecode f (ftzIn ftz f b)
  fpFmaV f rm ftz x y (.fin (xor x.sign y.sign) 0 0)

/-- Fused multiply-add. -/
def fpFma (f rm : Nat) (ftz : Bool) (a b c : Nat) : FRes :=
  fpFmaV f rm ftz (fpDecode f (ftzIn ftz f a)) (fpDecode f (ftzIn ftz f b)) (fpDecode f (ftzIn ftz f c))

/-- Divide (R229, Table 5.4): the quotient is taken to more bits than the format holds, with a sticky bit. -/
def fpDiv (f rm : Nat) (ftz : Bool) (a b : Nat) : FRes :=
  let x := fpDecode f (ftzIn ftz f a)
  let y := fpDecode f (ftzIn ftz f b)
  let s := xor x.sign y.sign
  match x, y with
  | .nan _, _ | _, .nan _ => ⟨fmtNan f, sigFlag [x, y]⟩
  | .inf _, .inf _ => ⟨fmtNan f, fNV⟩
  | .inf _, .fin _ _ _ => ⟨fpInf f s, 0⟩
  | .fin _ _ _, .inf _ => ⟨signBit f s, 0⟩
  | .fin _ ma ea, .fin _ mb eb =>
    if mb = 0 then if ma = 0 then ⟨fmtNan f, fNV⟩ else ⟨fpInf f s, fDZ⟩
    else if ma = 0 then ⟨signBit f s, 0⟩
    else
      let k := Nat.log2 mb + 60
      let n := ma * 2 ^ k
      fpRound f rm false ftz s (2 * (n / mb) + b2n (n % mb ≠ 0)) (ea - eb - k - 1)

/-- Integer square root by bits, from bit `n` downward. -/
def isqrtFrom (x : Nat) : Nat → Nat → Nat
  | 0, r => r
  | n + 1, r => if (r + 2 ^ n) * (r + 2 ^ n) ≤ x then isqrtFrom x n (r + 2 ^ n) else isqrtFrom x n r

/-- Square root (R229, R238, Table 5.4). -/
def fpSqrt (f rm : Nat) (ftz : Bool) (a : Nat) : FRes :=
  let x := fpDecode f (ftzIn ftz f a)
  match x with
  | .nan s => ⟨fmtNan f, if s then fNV else 0⟩
  | .inf n => if n then ⟨fmtNan f, fNV⟩ else ⟨fpInf f false, 0⟩
  | .fin n m e =>
    if m = 0 then ⟨signBit f n, 0⟩
    else if n then ⟨fmtNan f, fNV⟩
    else
      let k := 124 + (e % 2).toNat
      let y := m * 2 ^ k
      let r := isqrtFrom y (Nat.log2 y / 2 + 1) 0
      fpRound f rm false ftz false (2 * r + b2n (r * r ≠ y)) ((e - k) / 2 - 1)

/-- An order key for non-NaN values, −0 below +0 (R242). -/
def fpKey (f x : Nat) : Int :=
  let w := fmtWidth f
  if bit x (w - 1) then -(bits x 0 (w - 1) : Int) - 1 else bits x 0 (w - 1)

/-- minimumNumber (maximumNumber when `mx`) (R242). -/
def fpMinMax (f : Nat) (mx ftz : Bool) (a b : Nat) : FRes :=
  let a := ftzIn ftz f a
  let b := ftzIn ftz f b
  let x := fpDecode f a
  let y := fpDecode f b
  let fl := sigFlag [x, y]
  if x.isNan && y.isNan then ⟨fmtNan f, fl⟩
  else if x.isNan then ⟨b, fl⟩
  else if y.isNan then ⟨a, fl⟩
  else if decide (fpKey f a ≤ fpKey f b) = !mx then ⟨a, fl⟩ else ⟨b, fl⟩

/-- Three-way order of non-NaN values with −0 = +0: negative, zero or positive. -/
def fpOrder (f a b : Nat) : Int :=
  let k := fun x => if (fpDecode f x).isZero then 0 else if 0 ≤ fpKey f x then fpKey f x else fpKey f x + 1
  k a - k b

/-- A comparison of R124: 0 EQ, 1 NE, 2 LT, 3 LE, 4 GT, 5 GE, 6 UNORD, 7 ORD, on an order. -/
def cmpOrder (c : Nat) (o : Int) : Bool :=
  match c with
  | 0 => o = 0
  | 1 => o ≠ 0
  | 2 => o < 0
  | 3 => o ≤ 0
  | 4 => 0 < o
  | 5 => 0 ≤ o
  | 6 => false
  | _ => true

/-- Floating-point comparison with its flags (R243, Table 5.5). -/
def fpCompare (f c : Nat) (ftz : Bool) (a b : Nat) : Bool × Nat :=
  let a := ftzIn ftz f a
  let b := ftzIn ftz f b
  let x := fpDecode f a
  let y := fpDecode f b
  if x.isNan || y.isNan then
    (c = 1 || c = 6, if 2 ≤ c && c ≤ 5 then fNV else sigFlag [x, y])
  else (cmpOrder c (fpOrder f a b), 0)

/-! ### Conversions -/

/-- A format code names an integer format. -/
def isIntFmt (f : Nat) : Bool := f ≤ 3 || f = 11

/-- Least and greatest value of an integer format (Table 5.2). -/
def intRange : Nat → Int × Int
  | 0 => (-2147483648, 2147483647)
  | 1 => (0, 4294967295)
  | 2 => (-9223372036854775808, 9223372036854775807)
  | 3 => (0, 18446744073709551615)
  | _ => (-128, 127)

/-- The integer a pattern of an integer format encodes. -/
def intDecode (f x : Nat) : Int :=
  match f with
  | 0 => toSigned 32 x
  | 1 => (x % 2 ^ 32 : Nat)
  | 2 => toSigned 64 x
  | 3 => (x % 2 ^ 64 : Nat)
  | _ => toSigned 8 x

/-- Clamp an integer into an integer format; NV when it lies outside (R245, R247). -/
def intClamp (f : Nat) (x : Int) (nx : Bool) : FRes :=
  let r := intRange f
  let w := fmtWidth f
  if x < r.1 then ⟨ofSigned w r.1, fNV⟩
  else if r.2 < x then ⟨ofSigned w r.2, fNV⟩
  else ⟨ofSigned w x, if nx then fNX else 0⟩

/-- Floating point to integer (R245). -/
def cvtToInt (src dst rm x : Nat) : FRes :=
  match fpDecode src x with
  | .nan _ => ⟨0, fNV⟩
  | .inf n => ⟨ofSigned (fmtWidth dst) (if n then (intRange dst).1 else (intRange dst).2), fNV⟩
  | .fin n m e =>
    let r := roundQ rm n m e 0
    intClamp dst (signedM n r.1) r.2

/-- Floating point to floating point (R244, R248, Table 5.3). -/
def cvtFp (src dst rm : Nat) (sat ftz : Bool) (x : Nat) : FRes :=
  match fpDecode src x with
  | .nan s => if dst = 10 then ⟨0, fNV⟩ else ⟨fmtNan dst, if s then fNV else 0⟩
  | .inf n =>
    if dst = 10 then ⟨signBit 10 n + fmtMax 10, fOF + fNX⟩
    else if dst = 8 then if sat then ⟨signBit 8 n + fmtMax 8, fOF + fNX⟩ else ⟨fmtNan 8, fNV⟩
    else ⟨fpInf dst n, 0⟩
  | .fin n m e => if src = dst then ⟨x % 2 ^ fmtWidth dst, 0⟩ else fpRound dst rm sat ftz n m e

/-- CVT (R244 to R248) of a source pattern. -/
def cvt (src dst rm : Nat) (sat ftz : Bool) (x : Nat) : FRes :=
  let x := x % 2 ^ fmtWidth src
  match isIntFmt src, isIntFmt dst with
  | true, true => intClamp dst (intDecode src x) false
  | true, false =>
    let v := intDecode src x
    fpRound dst rm sat ftz (decide (v < 0)) v.natAbs 0
  | false, true => cvtToInt src dst rm (ftzIn ftz src x)
  | false, false => cvtFp src dst rm sat ftz (ftzIn ftz src x)

/-! ### Matrix steps -/

/-- Product of two decoded elements: a NaN, an infinity, an invalid ∞ × 0 (a NaN with NV), or a finite value. -/
def fpProd (a b : FVal) : FVal × Nat :=
  if a.isNan || b.isNan then (.nan false, sigFlag [a, b])
  else
    let s := xor a.sign b.sign
    match a, b with
    | .fin _ ma ea, .fin _ mb eb => (.fin s (ma * mb) (ea + eb), 0)
    | x, y => if x.isZero || y.isZero then (.nan false, fNV) else (.inf s, 0)

/-- Exact sum of finite values, and whether every term is negative. -/
def dySum (l : List FVal) : Int × Int :=
  l.foldl (fun acc v => match v with
    | .fin n m e => if m = 0 then acc else dyAdd acc (signedM n m, e)
    | _ => acc) (0, 0)

/-- One accumulate step into a format (R249, R250): the accumulator plus 2^sc times the exact sum of the products, rounded to
nearest even; infinities of opposite sign are invalid beside a NaN too (R250). With no product the accumulator keeps its value. -/
def matStep (f : Nat) (c : Nat) (prods : List (FVal × Nat)) (sc : Int) : FRes :=
  if prods.isEmpty then ⟨c, 0⟩
  else
    let vc := fpDecode f c
    let vs := prods.map (·.1)
    let fl := prods.foldl (fun a p => a ||| p.2) 0 ||| sigFlag [vc]
    let infs := (vc :: vs).filter fun v => match v with | .inf _ => true | _ => false
    let clash := infs.any (·.sign) && infs.any fun v => !v.sign
    if clash then ⟨fmtNan f, fl ||| fNV⟩
    else if vc.isNan || vs.any FVal.isNan then ⟨fmtNan f, fl⟩
    else
      match infs with
      | v :: _ => ⟨fpInf f v.sign, 0⟩
      | [] =>
        let p : Int × Int := dySum vs
        let np := if p.1 = 0 then vs.all FVal.sign else decide (p.1 < 0)
        let s : Int × Int := match vc with
          | .fin n m e => dyAdd (signedM n m, e) (p.1, p.2 + sc)
          | _ => p
        if s.1 = 0 then ⟨signBit f (np && vc.sign), 0⟩
        else fpRound f 0 false false (decide (s.1 < 0)) s.1.natAbs s.2

/-- Round `m · 2^e` of a sign to an integer, ties to even. -/
def rintScaled (x : Int) (e : Int) : Int :=
  signedM (decide (x < 0)) (roundQ 0 (decide (x < 0)) x.natAbs e 0).1

end Sys2Proof.Machine
end

