-- ==== Sys2Proof/Machine/NaveCore.lean ====
section
/-! DEFINITION. Machine/NaveCore.lean: cores, choirs and their registers; exceptions; LM; waking of blocked choirs; arrival
counters and barriers (chapter 2). -/

namespace Sys2Proof.Machine

/-! ### Cores -/

/-- A core in its reset state: IDLE, with no task. -/
def Core.reset : Core :=
  { state := 0, task := none, started := false, boot := 0, next := none, lastOwner := 0x1FF, scrubbed := true, choirs := [], lm := [], lmp := [],
    l1 := [], l1order := [], mshrs := [], sb := [], icache := [], acts := [], bars := [], gbar := [], acopies := [], streams := [], reads := [], served := 16,
    mmq := [], mmIssued := 0, mmDone := 0, mmFlags := [], tiles := [], exc := none, resp := [], sig := 0, sigRef := 0, sigQ := [], writers := [], steer := [], spareUse := [],
    last := [], quietFor := 0 }

/-- Core `n`. -/
def Dev.core (d : Dev) (n : Nat) : Core := dget Core.reset d.nave.cores n

/-- Set core `n`. -/
def Dev.setCore (d : Dev) (n : Nat) (c : Core) : Dev :=
  { d with nave := { d.nave with cores := dset Core.reset d.nave.cores n c } }

/-- Change core `n`. -/
def Dev.onCore (d : Dev) (n : Nat) (f : Core → Core) : Dev := d.setCore n (f (d.core n))

/-- A choir as it stands in a slot that holds none. -/
def Choir.absent : Choir := ⟨0, 0, none, [], [], [], [], [], [], [], 0, 0, .none, none⟩

/-- The choir in a slot. -/
def Core.choir (c : Core) (slot : Nat) : Choir := (mget c.choirs slot).getD Choir.absent

/-- Set the choir in a slot. -/
def Core.setChoir (c : Core) (slot : Nat) (h : Choir) : Core := { c with choirs := mset c.choirs slot h }

/-- Change the choir in a slot of core `n`. -/
def Dev.onChoir (d : Dev) (n slot : Nat) (f : Choir → Choir) : Dev :=
  d.onCore n fun c => c.setChoir slot (f (c.choir slot))

/-- A choir has ended: every voice has exited (R45). -/
def Choir.ended (h : Choir) : Bool := h.mask = 0 && h.dstack.isEmpty

/-- The cores of a gang (R65): `size` cores from `first`. -/
def gangCores (first size : Nat) : List Nat := rangeFrom first size

/-- The cores of the task on core `n`; the core alone when it holds none. -/
def Dev.gangOf (d : Dev) (n : Nat) : List Nat :=
  match (d.core n).task with
  | some t => gangCores t.first t.gang
  | none => [n]

/-- The core holds no task any more. -/
def Core.idle (c : Core) : Core :=
  { c with state := 0, task := none, started := false, boot := 0, choirs := [], l1 := [], l1order := [], mshrs := [], sb := [], acts := [], bars := [],
           gbar := [], acopies := [], streams := [], reads := [], served := 16, mmq := [], mmIssued := 0, mmDone := 0, mmFlags := [],
           tiles := [], exc := none, resp := [], sig := 0, sigRef := 0, sigQ := [], writers := [], last := [], quietFor := 0 }

/-- The core gives its task up and takes the dispatch it holds, if any (R632). -/
def Core.release (c : Core) : Core := { c.idle with task := c.next, state := b2n c.next.isSome, next := none }

/-- The core has completed its part of the task that it still holds; its streams go on until the task ends (R383). -/
def Core.finished (c : Core) : Core :=
  { c.idle with state := 1, task := c.task, started := true, boot := 2, acts := c.acts, streams := c.streams, reads := c.reads,
                served := c.served, resp := c.resp, exc := c.exc }

/-- The core has completed its part: it holds a started task and no choir. -/
def Core.isDone (c : Core) : Bool := c.task.isSome && c.started && c.choirs.isEmpty

/-- Die of a core (R23). -/
def dieOfCore (n : Nat) : Nat := n / 128

/-- Row and column of a core on its die (R24). -/
def corePlace (n : Nat) : Nat × Nat :=
  let c := n % 4
  let q := n / 4 % 4
  let u := n / 16 % 4
  let l := n / 64 % 2
  (c / 2 + 2 * (q / 2) + 4 * (u / 2), c % 2 + 2 * (q % 2) + 4 * (u % 2) + 8 * l)

/-! ### Registers -/

/-- Voice register `r` of voice `v`, a word, with its poison. -/
def Choir.vget (h : Choir) (r v : Nat) : Nat × Bool := (dget 0 h.v (32 * r + v) % 2 ^ 32, dget false h.vp (32 * r + v))

/-- Write voice register `r` of voice `v`. -/
def Choir.vset (h : Choir) (r v x : Nat) (p : Bool) : Choir :=
  { h with v := dset 0 h.v (32 * r + v) (x % 2 ^ 32), vp := dset false h.vp (32 * r + v) p }

/-- Uniform register `r`, a word, with its poison. -/
def Choir.uget (h : Choir) (r : Nat) : Nat × Bool := (dget 0 h.u r % 2 ^ 32, dget false h.up r)

/-- Write uniform register `r`. -/
def Choir.uset (h : Choir) (r x : Nat) (p : Bool) : Choir :=
  { h with u := dset 0 h.u r (x % 2 ^ 32), up := dset false h.up r p }

/-- Predicate `i` of all voices, bit v for voice v: P0 reads true (R31). -/
def Choir.pred (h : Choir) (i : Nat) : Nat := if i = 0 then 2 ^ 32 - 1 else dget 0 h.p i % 2 ^ 32

/-- Write predicate `i` of the voices in `mask`; a write to P0 is ignored (R31). -/
def Choir.setPred (h : Choir) (i mask vals : Nat) : Choir :=
  if i = 0 then h
  else
    let old := h.pred i
    { h with p := dset 0 h.p i (((old &&& ((2 ^ 32 - 1) ^^^ mask)) ||| (vals &&& mask))) }

/-- A value of `w` registers of 32 bits from voice registers (Table 3.2): pairs and quads hold their low part first. -/
def Choir.vwide (h : Choir) (r v w : Nat) : Nat × Bool :=
  (rangeFrom 0 w).foldl (fun acc i => let x := h.vget (r + i) v; (acc.1 + x.1 * 2 ^ (32 * i), acc.2 || x.2)) (0, false)

/-- The same from uniform registers. -/
def Choir.uwide (h : Choir) (r w : Nat) : Nat × Bool :=
  (rangeFrom 0 w).foldl (fun acc i => let x := h.uget (r + i); (acc.1 + x.1 * 2 ^ (32 * i), acc.2 || x.2)) (0, false)

/-- Write `w` voice registers. -/
def Choir.vputWide (h : Choir) (r v w x : Nat) (p : Bool) : Choir :=
  (rangeFrom 0 w).foldl (fun h i => h.vset (r + i) v (x / 2 ^ (32 * i)) p) h

/-- Write `w` uniform registers. -/
def Choir.uputWide (h : Choir) (r w x : Nat) (p : Bool) : Choir :=
  (rangeFrom 0 w).foldl (fun h i => h.uset (r + i) (x / 2 ^ (32 * i)) p) h

/-- The voices of a mask, ascending. -/
def voicesOf (mask : Nat) : List Nat := (rangeFrom 0 32).filter fun v => bit mask v

/-- The mask of a list of voices. -/
def maskOf (l : List Nat) : Nat := l.foldl (fun a v => a ||| 2 ^ v) 0

/-! ### Core clocks and exceptions (R73, R142 to R147, R406) -/

/-- The open core clock of the cloister of core `n`. -/
def Dev.clockOf (d : Dev) (n : Nat) : Option Clock := mget d.nave.clocks (n / 4)

/-- More commands of the present core clock of core `n` are awaited. -/
def Dev.clocked (d : Dev) (n : Nat) : Bool := (d.clockOf n).isSome

/-- Set or close the open core clock of the cloister of core `n`. -/
def Dev.setClock (d : Dev) (n : Nat) (k : Option Clock) : Dev :=
  { d with nave := { d.nave with clocks := match k with
    | some k => mset d.nave.clocks (n / 4) k
    | none => mdel d.nave.clocks (n / 4) } }

/-- The exception of core `n` arose in the core clock that is still open. -/
def Dev.excNow (d : Dev) (n : Nat) : Bool :=
  match d.clockOf n with
  | some k => k.excs.any fun x => x.1 = n
  | none => false

/-- The cause is a batch cause, whose exception carries fault records (R143). -/
def Exc.batch (e : Exc) : Bool := !e.recs.isEmpty

/-- The cause forbids retry: it is no batch cause, no re-dispatch cause (R143), and not the mark of an abort that the precentor
or the task's gang brings. -/
def Exc.forbids (e : Exc) : Bool := !e.batch && e.cause ≠ 0 && e.cause ≠ 5 && e.cause ≠ 0x0D

/-- Add an exception of a stall in stall order. -/
def insertStall (e : Nat × Exc) : List (Nat × Exc) → List (Nat × Exc)
  | [] => [e]
  | x :: xs => if e.1 < x.1 then e :: x :: xs else x :: insertStall e xs

/-- What the exceptions of one core clock come to, in stall order (R144): one that forbids retry wins, of these the lowest stall's,
and no record is written; batch causes alone each write their records; otherwise the lowest stall's (assumption 66). -/
def resolveExc (l : List (Nat × Exc)) : Option Exc :=
  match l.find? fun e => e.2.forbids with
  | some e => some e.2
  | none =>
    match l with
    | [] => none
    | e :: _ => some (if l.all fun x => x.2.batch then { e.2 with recs := l.flatMap fun x => x.2.recs } else e.2)

/-- Raise a cause on a core as of a stall: the first exception of a task stops issue and is kept for the abort; the others of its
core clock meet it under R144, and later ones are discarded until the abort has completed (R101 step 1, R145). -/
def Dev.coreExcAt (d : Dev) (n stall : Nat) (e : Exc) : Dev :=
  let c := d.core n
  if c.task.isNone then d
  else
    match d.clockOf n with
    | none => if c.exc.isSome then d else d.setCore n { c with exc := some e, state := 2 }
    | some k =>
      let mine := if c.exc.isSome then k.excs.filter fun x => x.1 = n else []
      if c.exc.isSome && mine.isEmpty then d
      else
        let l := insertStall (stall, e) (mine.map (·.2))
        (d.setClock n (some { k with excs := k.excs.filter (fun x => x.1 ≠ n) ++ l.map fun x => (n, x) })).setCore n
          { c with exc := resolveExc l, state := 2 }

/-- Raise a cause on a core as of the stall of its choir. -/
def Dev.coreExc (d : Dev) (n : Nat) (e : Exc) : Dev := d.coreExcAt n (e.slot % 4) e

/-! ### Signatures of tandem pairs (R684) -/

/-- Fold a write of `n` bytes of `x` at `a` in a space, split into aligned 16-byte units in ascending address. -/
def sigWrite (space : Nat) : Nat → Nat → Nat → Nat → Nat → Nat
  | 0, s, _, _, _ => s
  | f + 1, s, a, n, x =>
    if n = 0 then s
    else
      let o := a % 16
      let k := min n (16 - o)
      let unit := a - o
      let rec32 := leBytes 8 (unit + space * 2 ^ 60) ++ leBytes 16 (x % 2 ^ (8 * k) * 2 ^ (8 * o)) ++
        leBytes 2 ((2 ^ k - 1) * 2 ^ o) ++ leBytes 6 0
      sigWrite space f (crc64 s rec32) (a + k) (n - k) (x / 2 ^ (8 * k))

/-- A new signature of a core of a tandem pair: the leading core queues it for the trailing core, which takes the one at its own
point of the sequence. -/
def Dev.setSig (d : Dev) (n s : Nat) : Dev :=
  match ((d.core n).task.map (·.tandem)).getD 0 with
  | 1 => d.onCore n fun c => { c with sig := s, sigQ := c.sigQ ++ [s] }
  | 2 =>
    let lead := d.core (n - 1)
    (d.onCore n fun c => { c with sig := s, sigRef := lead.sigQ.headD s }).onCore (n - 1) fun c => { c with sigQ := c.sigQ.drop 1 }
  | _ => d

/-- Fold a write of a core: spaces 0 own LM, 1 cloister LM, 2 global, 3 Lark OUT. -/
def Dev.fold (d : Dev) (n space a len x : Nat) : Dev :=
  if ((d.core n).task.map (·.tandem)).getD 0 = 0 then d
  else d.setSig n (sigWrite space (len / 16 + 2) (d.core n).sig a len x)

/-- The task on a core runs as the trailing half of a tandem pair. -/
def Dev.trails (d : Dev) (n : Nat) : Bool := ((d.core n).task.map (·.tandem)).getD 0 = 2

/-- The leading core keeps a response for the trailing core (R683). -/
def Dev.respPush (d : Dev) (n slot : Nat) (l : List (Nat × Nat × Bool)) : Dev :=
  if ((d.core n).task.map (·.tandem)).getD 0 = 1 then d.onCore n fun c => { c with resp := c.resp ++ [(slot, l)] } else d

/-- The trailing core takes the leading core's oldest response for a slot. -/
def Dev.respPop (d : Dev) (n slot : Nat) : Dev × Option (List (Nat × Nat × Bool)) :=
  match (d.core (n - 1)).resp.find? fun e => e.1 = slot with
  | some e => (d.onCore (n - 1) fun c => { c with resp := c.resp.eraseP fun x => x.1 = slot }, some e.2)
  | none => (d, none)

/-! ### LM -/

/-- Bytes of LM. -/
def lmSize : Nat := 0x80000

/-- Read `n` bytes of LM at `a`, with poison when any bank word touched is poisoned (R103). -/
def Core.lmRead (c : Core) (a n : Nat) : Nat × Bool :=
  (readLE c.lm a n, (rangeFrom (a / 8) ((a + n + 7) / 8 - a / 8)).any fun w => dget false c.lmp w)

/-- Poison marks of the bank words that `n` bytes at `a` touch after a write: poisoned data marks them; clean data clears a word
it covers whole and leaves the mark of one it covers in part. -/
def lmPoison (p : List (Nat × Bool)) (a n : Nat) (poison : Bool) : List (Nat × Bool) :=
  (rangeFrom (a / 8) ((a + n + 7) / 8 - a / 8)).foldl
    (fun p w => if poison then dset false p w true else if a ≤ 8 * w && 8 * w + 8 ≤ a + n then dset false p w false else p) p

/-- Write the low `n` bytes of `x` to LM at `a`. -/
def Core.lmWrite (c : Core) (a n x : Nat) (poison : Bool) : Core :=
  { c with lm := putMasked c.lm a n (2 ^ n - 1) x, lmp := lmPoison c.lmp a n poison }

/-- Write bytes to LM at `a`. -/
def Core.lmPut (c : Core) (a : Nat) (bs : List Byte) (poison : Bool) : Core :=
  { c with lm := putBytes c.lm a bs, lmp := lmPoison c.lmp a bs.length poison }

/-! ### Waits -/

/-- A counter at task start. -/
def Act.zero : Act := ⟨0, 0, 0, 0, 0, 0, 0, 0⟩

/-- A barrier at task start. -/
def Bar.zero : Bar := ⟨0, 0, 0, 0⟩

/-- Arrival counter `n` (R76: at task start every field is 0). -/
def Core.act (c : Core) (n : Nat) : Act := dget Act.zero c.acts n

/-- A CWAIT comparison (R131): 0 EQ, 1 NE, 2 GE unsigned, 3 LT unsigned. -/
def cwaitHolds (op x value : Nat) : Bool :=
  match op with
  | 0 => x = value
  | 1 => x ≠ value
  | 2 => value ≤ x
  | _ => x < value

/-- A blocked choir's condition holds (R72, R80, R177); barriers and buffers release their waiters themselves. -/
def Dev.waitOver (d : Dev) (n : Nat) : Wait → Bool
  | .act i p => ((d.core n).act i).phase ≠ p
  | .cwait core a op value _ => ((d.core core).lmRead a 8).2 || cwaitHolds op ((d.core core).lmRead a 8).1 value
  | .token t => t ≤ (d.core n).mmDone
  | .flags t _ => t ≤ (d.core n).mmDone
  | _ => false

/-- The flag summary of a completed token: STALE when it is no longer held (R178). -/
def Core.summary (c : Core) (t : Nat) : Nat := (mget c.mmFlags t).getD (2 ^ 31)

/-- Release the choir in a slot when its condition holds; MFLAGS then writes its summary. A CWAIT that finds its doubleword poisoned
consumes it as its operand (R659). -/
def Dev.wakeChoir (d : Dev) (n slot : Nat) : Dev :=
  let h := (d.core n).choir slot
  if !d.waitOver n h.wait then d
  else
    match h.wait with
    | .flags t dst => d.onChoir n slot fun h => { (h.uset dst ((d.core n).summary t) false) with wait := .none }
    | .cwait core a _ _ m =>
      if ((d.core core).lmRead a 8).2 then d.coreExc n ⟨6, 0, h.pc - 16, slot, m, 0, core % 4 * 2 ^ 19 + a, []⟩
      else d.onChoir n slot fun h => { h with wait := .none }
    | _ => d.onChoir n slot fun h => { h with wait := .none }

/-- Release the choirs of a cloister whose conditions hold after a change on core `n`; in an open core clock this awaits the end of
the clock (R73, R89). -/
def Dev.wake (d : Dev) (n : Nat) : Dev :=
  if d.clocked n then d
  else (rangeFrom (n / 4 * 4) 4).foldl (fun d m => (d.core m).choirs.foldl (fun d e => d.wakeChoir m e.1) d) d

/-- A CWAIT is pending on the doubleword at `a` of core `n`. -/
def Dev.cwaited (d : Dev) (n a : Nat) : Bool :=
  (rangeFrom (n / 4 * 4) 4).any fun m => (d.core m).choirs.any fun e =>
    match e.2.wait with
    | .cwait core x _ _ _ => core = n && x / 8 = a / 8
    | _ => false

/-- Note the last writer of the doublewords that `n` bytes at `a` touch and a CWAIT awaits (after R980). -/
def Dev.noteWriter (d : Dev) (core a n who : Nat) : Dev :=
  (rangeFrom (a / 8) ((a + n + 7) / 8 - a / 8)).foldl
    (fun d w => if d.cwaited core (8 * w) then d.onCore core fun c => { c with writers := dset 0 c.writers (8 * w) who } else d) d

/-- Write the low `n` bytes of `x` to LM of a core; `who` is the writing choir, 0 for another requester. -/
def Dev.lmSet (d : Dev) (core a n x : Nat) (poison : Bool) (who : Nat) : Dev :=
  (d.noteWriter core a n who).onCore core fun c => c.lmWrite a n x poison

/-- Write the low `n` bytes of `x` to LM of a core and release the waits this satisfies. -/
def Dev.lmWrite (d : Dev) (core a n x : Nat) (poison : Bool) (who : Nat) : Dev := (d.lmSet core a n x poison who).wake core

/-- Write bytes to LM of a core and release the waits this satisfies. -/
def Dev.lmPut (d : Dev) (core a : Nat) (bs : List Byte) (poison : Bool) : Dev :=
  ((d.noteWriter core a bs.length 0).onCore core fun c => c.lmPut a bs poison).wake core

/-- A choir as a writer. -/
def writerOf (core slot : Nat) : Nat := core + 256 * slot + 2 ^ 14

/-! ### Arrival counters (R68 to R75) -/

/-- Complete the phase when nothing is awaited (R71). -/
def Act.settle (a : Act) : Act :=
  if a.pending = 0 && a.bytes = 0 && a.expect ≠ 0 then 
    { a with phase := 1 - a.phase, pending := a.expect, prev := a.cur, cur := 0, farPrev := a.farCur, farCur := 0 }
  else a

/-- BYTES lies in its range (Table 2.5). -/
def bytesFit (b : Int) : Bool := -1073741824 ≤ b && b ≤ 1073741823

/-- ARRIVE and ARRIVE.EXPECT (R69) of a slot of the counter's core, or of another core of the cloister; none is an overflow
(R75). -/
def Act.arrive (a : Act) (b slot far : Nat) : Option Act :=
  if a.pending = 0 || !bytesFit (a.bytes + b) then none
  else some (Act.settle { a with pending := a.pending - 1, bytes := a.bytes + b, cur := a.cur ||| slot, farCur := a.farCur ||| far })

/-- A completed transfer of `len` bytes (R70). -/
def Act.landed (a : Act) (len : Nat) : Option Act :=
  if !bytesFit (a.bytes - len) then none else some (Act.settle { a with bytes := a.bytes - len })

/-- ACT_INIT (R68). -/
def Act.init (a : Act) (e : Nat) : Option Act :=
  if e = 0 then none else some { a with expect := e, pending := e, bytes := 0 }

/-- The state word of a counter (Table 2.5). -/
def Act.word (a : Act) : Nat := a.phase + ofSigned 31 a.bytes * 2 + a.pending * 2 ^ 32 + a.expect * 2 ^ 48

/-- What an update makes of a counter; none is an overflow (R75). -/
def ActOp.run (o : ActOp) (a : Act) : Option Act :=
  match o with
  | .init e => a.init e
  | .arrive b slot far => a.arrive b slot far
  | .landed len => a.landed len

/-- Set a counter of a core and release its waiters. -/
def Dev.setAct (d : Dev) (n i : Nat) (a : Act) : Dev :=
  (d.onCore n fun c => { c with acts := dset Act.zero c.acts i a }).wake n

/-- An update of a counter of core `m`: it takes effect, or raises the exception of the core whose it is. In an open core clock it
awaits the end of the clock (R73). -/
def Dev.actUpdate (d : Dev) (u : ActUpd) : Dev :=
  match d.clockOf u.core with
  | some k => d.setClock u.core (some { k with upds := k.upds ++ [u] })
  | none =>
    match u.op.run ((d.core u.core).act u.idx) with
    | some a => d.setAct u.core u.idx a
    | none => d.coreExcAt u.src (if u.rank = 0 then 4 else u.exc.slot % 4) u.exc

/-- Add an update in the order of R73. -/
def insertUpd (u : ActUpd) : List ActUpd → List ActUpd
  | [] => [u]
  | x :: xs => if u.rank < x.rank then u :: x :: xs else x :: insertUpd u xs

/-- The open core clock of a cloister ends: the counter updates take effect one at a time in the order of R73, and then the blocked
choirs look at their conditions (R73, R87, R89). -/
def Dev.clockClose (d : Dev) (n : Nat) : Dev :=
  match d.clockOf n with
  | none => d
  | some k =>
    let d := (k.upds.foldl (fun l u => insertUpd u l) []).foldl (fun d u =>
      match u.op.run ((d.core u.core).act u.idx) with
      | some a => d.onCore u.core fun c => { c with acts := dset Act.zero c.acts u.idx a }
      | none => d.coreExcAt u.src (if u.rank = 0 then 4 else u.exc.slot % 4) u.exc) d
    (d.setClock n none).wake n

/-- Every core clock still open ends, as time passes. -/
def Dev.clocksClose (d : Dev) : Dev := d.nave.clocks.foldl (fun d e => d.clockClose (4 * e.1)) d

/-- The core clock of a command begins: a stall issues once a clock (R34), so that one which has issued belongs to the next; with
more to follow the clock stays open. -/
def Dev.clockBegin (d : Dev) (c : ChoirRef) : Dev :=
  let d := match d.clockOf c.core with
    | some k => if k.issued.contains (4 * c.core + c.slot % 4) then d.clockClose c.core else d
    | none => d
  match d.clockOf c.core with
  | some k => d.setClock c.core (some { k with issued := (4 * c.core + c.slot % 4) :: k.issued })
  | none => if c.more then d.setClock c.core (some ⟨[4 * c.core + c.slot % 4], [], []⟩) else d

/-- The cores a task occupies: its gang, or the two cores of its tandem pair. -/
def TaskRun.cores (t : TaskRun) : List Nat :=
  match t.tandem with
  | 1 => [t.first, t.first + 1]
  | 2 => [t.first - 1, t.first]
  | _ => gangCores t.first t.gang

/-- When a task of an URGENT entry has issued its first instruction on every core of its gang, URGENT_START_MAX takes the time since T
(R633, R646). -/
def Dev.firstIssues (d : Dev) (n : Nat) : Dev :=
  match (d.core n).task with
  | some t =>
    match t.urgent with
    | some s =>
      if t.cores.all fun m => !(d.core m).last.isEmpty then
        let d := t.cores.foldl (fun d m => d.onCore m fun c => { c with task := c.task.map fun x => { x with urgent := none } }) d
        d.oset O.URGENT_START_MAX (max (d.oget O.URGENT_START_MAX) (d.time - s))
      else d
    | none => d
  | none => d

/-- The command's core clock ends unless more follow. -/
def Dev.clockEnd (d : Dev) (c : ChoirRef) : Dev :=
  let d := d.firstIssues c.core
  if c.more then d else d.clockClose c.core

/-! ### Barriers (R77 to R79) -/

/-- An arrival at a named barrier with count `k`; the last one releases the waiters and starts a new phase. -/
def Core.barArrive (c : Core) (slot i k : Nat) : Core :=
  let b := dget Bar.zero c.bars i
  if k ≤ b.n + 1 then
    { c with bars := dset Bar.zero c.bars i ⟨0, 0, 0, b.cur ||| 2 ^ slot⟩,
             choirs := c.choirs.map fun e => if e.2.wait = .bar i then (e.1, { e.2 with wait := .none }) else e }
  else { c with bars := dset Bar.zero c.bars i ⟨k, b.n + 1, b.cur ||| 2 ^ slot, b.prev⟩ }

/-- The count of a barrier instruction is legal (R78): from 1 to the choirs per core, and the one in force. -/
def Core.barLegal (c : Core) (i k : Nat) : Bool :=
  let b := dget Bar.zero c.bars i
  let n := (c.task.map (·.choirs)).getD 0
  1 ≤ k && k ≤ n && (b.k = 0 || b.k = k)

/-- Every choir of the core has arrived at the gang barrier or ended. -/
def Core.gbarFull (c : Core) : Bool :=
  c.started && (rangeFrom 0 ((c.task.map (·.choirs)).getD 0)).all fun s => c.gbar.contains s || (c.choir s).ended

/-- Release the gang barrier when every choir of the gang has arrived (R79). -/
def Dev.gbarCheck (d : Dev) (n : Nat) : Dev :=
  let g := d.gangOf n
  if g.all (fun m => (d.core m).gbarFull) && g.any (fun m => !(d.core m).gbar.isEmpty) then
    g.foldl (fun d m => d.onCore m fun c =>
      { c with gbar := [], choirs := c.choirs.map fun e => if e.2.wait = .gbar then (e.1, { e.2 with wait := .none }) else e }) d
  else d

end Sys2Proof.Machine
end

