-- ==== Sys2Proof/Machine/NaveMem.lean ====
section
/-! DEFINITION. Machine/NaveMem.lean: the L1 data cache, the store buffer and global accesses of a core (chapters 2, 6 and 7). -/

namespace Sys2Proof.Machine

/-! ### Faults of batch causes -/

/-- ENGINE of a core's choirs and of its Lark (Table 10.2). -/
def larkEng (n : Nat) : Nat := 0x1000 + n

/-- The fault record of a failed access of a task (Table 10.9); SEQ, FTIME and PRI are set when it is written. -/
def faultRec (t : TaskRun) (eng access va : Nat) (f : TFail) : FaultRec :=
  { ftime := 0, node := t.node, seq := 0, graph := t.graph, queue := t.queue, owner := t.owner, window := f.win,
    windowValid := f.winValid, level := f.level, cause := f.cause, detail := f.detail, engine := eng, access := access,
    pri := false, truncated := false, host := f.host, restartable := t.restartable, dispatches := min 65535 t.dispatch,
    va := va, entry := f.entry }

/-- The page a record names: 4 KiB of a HOST window, else 64 KiB. -/
def FaultRec.page (r : FaultRec) : Nat := if r.host then r.va / 4096 * 4096 else r.va / 65536 * 65536

/-- Insert a record in ascending address, one per page with its lowest address (R479, R480). -/
def insertRec (r : FaultRec) : List FaultRec → List FaultRec
  | [] => [r]
  | x :: xs =>
    if r.page = x.page then (if r.va < x.va then r else x) :: xs
    else if r.va < x.va then r :: x :: xs
    else x :: insertRec r xs

/-- The records of one abort: at most 32, the last TRUNCATED when there are more (R480). -/
def batchRecs (l : List FaultRec) : List FaultRec :=
  let s := l.foldl (fun acc r => insertRec r acc) []
  if s.length ≤ 32 then s
  else
    let t := s.take 32
    t.take 31 ++ (t.drop 31).map fun r => { r with truncated := true }

/-! ### L1 (R305 to R317) -/

/-- The set of a line (R306). -/
def l1Set (line : Nat) : Nat := line % 256

/-- Ages of the ways of an L1 set, most recent first. -/
def Core.l1Ages (c : Core) (set : Nat) : List Nat := dget (rangeFrom 0 4) c.l1order set

/-- Make a way most recent, or least recent. -/
def Core.l1Touch (c : Core) (set way : Nat) (recent : Bool) : Core :=
  let r := (c.l1Ages set).filter (· ≠ way)
  { c with l1order := dset (rangeFrom 0 4) c.l1order set (if recent then way :: r else r ++ [way]) }

/-- The victim way of a set: the lowest invalid, else the least recent whose line has no outstanding MSHR (R315). -/
def Core.l1Victim (c : Core) (set : Nat) : Option Nat :=
  let used := fun w => c.l1.any fun e => l1Set e.1 = set && e.2.way = w
  let open' := fun w => c.l1.any fun e => l1Set e.1 = set && e.2.way = w && c.mshrs.any fun m => m.req.dpa = 128 * e.1
  match (rangeFrom 0 4).find? fun w => !used w with
  | some w => some w
  | none => (c.l1Ages set).reverse.find? fun w => !open' w

/-- The line a way of a set holds. -/
def Core.l1InWay (c : Core) (set way : Nat) : Option Nat :=
  (c.l1.find? fun e => l1Set e.1 = set && e.2.way = way).map (·.1)

/-- A request of core `n` to the home slice carrying the attributes of a line. -/
def lineReq (n : Nat) (line : Nat) (l : L1Line) (write : Bool) (mask data poison : Nat) : L2Req :=
  ⟨n, l.owner, 128 * line, write, mask, data, poison, l.policy, l.l2p, l.key⟩

/-- The access of a core to device memory finds its channel group unreachable (R729, R741). -/
def Dev.lost (d : Dev) (x : Nat) : Bool := !d.reachable x && (mget d.l2.lines (x / 128)).isNone

/-- Write back the dirty bytes of a line as one masked write; they become clean (R267, R315). One that no channel group takes is an
error of the core's task (R301). -/
def Dev.l1WriteBack (d : Dev) (n line : Nat) : Dev :=
  match mget (d.core n).l1 line with
  | none => d
  | some l =>
    if l.dirty = 0 then d
    else
      let bad := d.lost (128 * line)
      let d := (d.l2Access (lineReq n line l true l.dirty l.data (l.poison &&& sectorsOf l.dirty))).1
      let d := d.onCore n fun c => { c with l1 := mset c.l1 line { l with dirty := 0 } }
      if bad then d.coreExc n ⟨0x37, 0, 0, 0, 0, 0, 128 * line, []⟩ else d

/-- Write back a line and remove it. -/
def Dev.l1Evict (d : Dev) (n line : Nat) : Dev :=
  (d.l1WriteBack n line).onCore n fun c => { c with l1 := mdel c.l1 line }

/-- Put a line into a way. -/
def Dev.l1Place (d : Dev) (n line way : Nat) (l : L1Line) (recent : Bool) : Dev :=
  let set := l1Set line
  let d := match (d.core n).l1InWay set way with
    | some v => d.l1Evict n v
    | none => d
  d.onCore n fun c => ({ c with l1 := mset c.l1 line { l with way := way } }).l1Touch set way recent

/-- Every dirty line of a core, ascending. -/
def Core.dirtyLines (c : Core) : List Nat := (c.l1.filter fun e => e.2.dirty ≠ 0).map (·.1)

/-- Write back every dirty byte of a core's L1 (R290). -/
def Dev.l1Flush (d : Dev) (n : Nat) : Dev := (d.core n).dirtyLines.foldl (fun d a => d.l1WriteBack n a) d

/-- Write back every dirty byte of a core's L1 for a release, which counts the lines (R279, R283). -/
def Dev.l1Clean (d : Dev) (n : Nat) : Dev :=
  (d.l1Flush n).oadd O.RELEASE_WRITEBACK_LINES (d.core n).dirtyLines.length

/-- Invalidate every clean line of a core's L1; dirty bytes survive (R278). -/
def Core.l1Acquire (c : Core) : Core :=
  { c with l1 := (c.l1.filter fun e => e.2.dirty ≠ 0).map fun e => (e.1, { e.2 with valid := e.2.dirty }) }

/-- A line as 128 bytes with poison per sector. -/
abbrev LineImg := Nat × Nat

/-- A load is served from the home slice and leaves nothing in L1: its scope is cloister or wider, or its hint NO_L1 (R275, R316, R129). -/
def pastL1 (scope hint : Nat) : Bool := decide (3 ≤ scope) || hint = 2

/-- Bytes of a line that L1 gives a load which wants the bytes of `need` (R313). -/
def Core.l1Hit (c : Core) (line need scope hint : Nat) : Option LineImg :=
  if pastL1 scope hint then none
  else match mget c.l1 line with
    | some l => if l.valid &&& need = need then some (l.data, l.poison) else none
    | none => none

/-- A line that a slice returned reaches L1 (R313 to R316, R129). `fills` is whether a load that it serves fills L1, `hint` the first
one's hint, `wide` whether all are of cloister scope or wider under another hint than NO_L1. A held line keeps its dirty bytes; with
every way held by an MSHR the line serves its loads only. Answers the bytes a load of L1 sees. -/
def Dev.l1Take (d : Dev) (n : Nat) (r : L2Req) (fills wide : Bool) (hint : Nat) (f : LineImg) : Dev × LineImg :=
  let line := r.dpa / 128
  let set := l1Set line
  match mget (d.core n).l1 line with
  | some l =>
    let (v, p) := mergeLine l.dirty l.data (l.poison &&& sectorsOf l.dirty) f.1 f.2
    if fills || wide then
      (d.onCore n fun c => ({ c with l1 := mset c.l1 line { l with valid := 2 ^ 128 - 1, data := v, poison := p } }).l1Touch set l.way
        (wide || hint ≠ 1), v, p)
    else (d, v, p)
  | none =>
    match if fills then (d.core n).l1Victim set else none with
    | some w => (d.l1Place n line w ⟨w, 2 ^ 128 - 1, 0, f.1, f.2, r.owner, r.policy, r.l2p, r.key⟩ (hint ≠ 1), f)
    | none => (d, f)

/-! ### Responses of a tandem pair, orders -/

/-- The acquire work at a scope. -/
def Dev.acquire (d : Dev) (n scope : Nat) : Dev := if scope < 3 then d else d.onCore n Core.l1Acquire

/-- The acquire part of an order after an access: acquire, acq_rel and seq_cst. A store has none. -/
def orderAcquires (order : Nat) (store : Bool) : Bool := !store && (order = 1 || order = 3 || order = 4)

/-- Work after an ordered access. -/
def Dev.orderAfter (d : Dev) (n order scope : Nat) (store : Bool) : Dev :=
  if orderAcquires order store then d.acquire n scope else d

/-! ### Loads from global memory in progress (R48, R268, R336, R337) -/

/-- A loaded value as SEXT extends it from `size` bytes (R128). -/
def extendTo (sext : Bool) (size x : Nat) : Nat := if sext then ofSigned 32 (toSigned (8 * size) x) else x

/-- Write the values of a load into its registers. -/
def Choir.putLoad (h : Choir) (l : LoadWait) : Choir :=
  let parts := if l.size ≤ 4 then 1 else l.size / 4
  l.vals.foldl (fun h r =>
    if l.uni then h.uputWide l.dst parts (extendTo l.sext l.size r.2.1) r.2.2
    else h.vputWide l.dst r.1 parts (extendTo l.sext l.size r.2.1) r.2.2) h

/-- Nothing is awaited any more. -/
def LoadWait.over (l : LoadWait) : Bool := l.todo.isEmpty && l.lines.isEmpty && l.await.isEmpty

/-- A load goes on: when every line has come it writes its registers and the choir is ready again; else it waits. -/
def Dev.loadStep (d : Dev) (n slot : Nat) (l : LoadWait) : Dev :=
  if l.over then
    let d := d.onChoir n slot fun h => { h.putLoad l with wait := .none, load := none }
    (d.respPush n slot l.vals).orderAfter n l.order l.scope false
  else d.onChoir n slot fun h => { h with wait := .load, load := some l }

/-- The voices of a load that take bytes of a line. -/
def LoadWait.on (l : LoadWait) (host : Bool) (line : Nat) : List (Nat × Bool × Nat × Nat) :=
  l.voices.filter fun e => e.2.1 = host && e.2.2.1 / 128 = line

/-- Byte mask of a line that a load wants. -/
def LoadWait.need (l : LoadWait) (line : Nat) : Nat :=
  (l.on false line).foldl (fun m e => m ||| ((2 ^ l.size - 1) * 2 ^ (e.2.2.1 % 128))) 0

/-- The values that a line gives a load. -/
def LoadWait.take (l : LoadWait) (host : Bool) (line : Nat) (f : LineImg) : LoadWait :=
  { l with vals := l.vals ++ (l.on host line).map fun e =>
      let o := e.2.2.1 % 128
      (e.1, bits f.1 (8 * o) (8 * l.size), decide (f.2 &&& sectorsOf ((2 ^ l.size - 1) * 2 ^ o) ≠ 0)) }

/-- Voices to name in a report: all the executing ones when the access is uniform. -/
def LoadWait.blame (l : LoadWait) (vs : List Nat) : Nat := if l.uni then l.ex else maskOf vs

/-- A line reaches a load; one that no channel group gave is ERR_MEM_UNREACHABLE of the instruction (R143, R729). -/
def Dev.loadLine (d : Dev) (n slot pc line : Nat) (l : LoadWait) (bad : Bool) (f : LineImg) : Dev × LoadWait :=
  let l' := { l.take false line f with lines := l.lines.erase line }
  if bad then
    (d.coreExc n ⟨0x37, 0, pc, slot, l.blame ((l.on false line).map (·.1)), 0, ((l.on false line).head?.map (·.2.2.2)).getD 0, []⟩, l')
  else (d, l')

/-- One line request of a load at L1 (R313, R336, R337): served, waiting in an MSHR, or not taken. -/
def Dev.l1Ask (d : Dev) (n slot pc : Nat) (l : LoadWait) (r : L2Req) : Dev × LoadWait × Bool :=
  let line := r.dpa / 128
  let past := pastL1 l.scope l.hint
  let count := fun (d : Dev) w => if past then d else d.count 0 n w 1
  match (d.core n).l1Hit line (l.need line) l.scope l.hint with
  | some f =>
    let d := count d 4
    let d := match mget (d.core n).l1 line with
      | some x => if l.hint = 1 then d else d.onCore n fun c => c.l1Touch (l1Set line) x.way true
      | none => d
    (d, l.take false line f, true)
  | none =>
    let wait := { l with lines := l.lines ++ [line] }
    match (d.core n).mshrs.find? fun m => m.req.dpa = r.dpa with
    | some m =>
      if 9 ≤ m.slots.length then (d, l, false)
      else
        ((count d 5).onCore n fun c =>
          { c with mshrs := mapIf (fun x => x.req.dpa = r.dpa) (fun x => { x with slots := x.slots ++ [slot] }) c.mshrs }, wait, true)
    | none =>
      if 64 ≤ (d.core n).mshrs.length then (d, l, false)
      else
        let d := count (if past then d.l1WriteBack n line else d) 5
        let bad := d.lost r.dpa
        match d.l2Offer r true with
        | (d, .data v p) =>
          let (d, f) := d.l1Take n r (!past) (decide (3 ≤ l.scope) && l.hint ≠ 2) l.hint (v, p)
          let (d, l) := d.loadLine n slot pc line l bad (if past then (v, p) else f)
          (d, l, true)
        | (d, _) => (d.onCore n fun c => { c with mshrs := c.mshrs ++ [⟨r, [slot]⟩] }, wait, true)

/-- The line requests of a load go to L1 in ascending line address until one is not taken (R48, R337). -/
def Dev.loadAsk (d : Dev) (n slot pc : Nat) (l : LoadWait) : List L2Req → Dev × LoadWait
  | [] => (d, { l with todo := [] })
  | r :: rs =>
    match d.l1Ask n slot pc l r with
    | (d, l, true) => Dev.loadAsk d n slot pc l rs
    | (d, l, false) => (d, { l with todo := r :: rs })

/-- The loads of a core that L1 made wait ask again, in ascending slot (assumption 69). -/
def Dev.loadsGo (d : Dev) (n : Nat) : Dev :=
  (d.core n).choirs.foldl (fun d e =>
    match ((d.core n).choir e.1).load with
    | some l =>
      if l.todo.isEmpty then d
      else
        let (d, l) := d.loadAsk n e.1 (((d.core n).choir e.1).pc - 16) l l.todo
        d.loadStep n e.1 l
    | none => d) d

/-- A line that an L1 MSHR awaits has come (R336): it is filled, and serves the primary miss and then the secondary misses. -/
def Dev.l1Fill (d : Dev) (n : Nat) (r : L2Req) (f : LineImg) : Dev :=
  match (d.core n).mshrs.find? fun m => m.req.dpa = r.dpa with
  | none => d
  | some m =>
    let line := r.dpa / 128
    let bad := d.lost r.dpa
    let d := d.onCore n fun c => { c with mshrs := c.mshrs.filter fun x => x.req.dpa ≠ r.dpa }
    let ls := m.slots.filterMap fun s => ((d.core n).choir s).load
    let fills := ls.any fun l => !pastL1 l.scope l.hint
    let wide := ls.any fun l => decide (3 ≤ l.scope) && l.hint ≠ 2
    let (d, g) := d.l1Take n r fills wide ((ls.head?.map (·.hint)).getD 0) f
    let d := m.slots.foldl (fun d s =>
      match ((d.core n).choir s).load with
      | none => d
      | some l =>
        let (d, l) := d.loadLine n s (((d.core n).choir s).pc - 16) line l bad (if pastL1 l.scope l.hint then f else g)
        d.loadStep n s l) d
    d.loadsGo n

/-- Nothing of the L2 awaits the L1 MSHRs of core `n` that satisfy `p` any more. -/
def Dev.l1Forget (d : Dev) (n : Nat) (p : L2Req → Bool) : Dev :=
  let mine := fun (r : L2Req) (l1 : Bool) => l1 && r.requester = n && p r
  { d with l2 := { d.l2 with
      mshrs := d.l2.mshrs.map fun m => { m with reqs := m.reqs.filter fun e => !mine e.1 e.2 },
      held := d.l2.held.filter fun e => !mine e.1 e.2,
      resps := d.l2.resps.filter fun e => !mine e.req e.l1 } }

/-- The fill of a line comes before the next step of its core: a way that it holds is wanted. -/
def Dev.l1Await (d : Dev) (n line : Nat) : Dev :=
  match (d.core n).mshrs.find? fun m => m.req.dpa = 128 * line with
  | none => d
  | some m =>
    match d.l2.resps.find? fun x => x.l1 && x.req.requester = n && x.req.dpa = m.req.dpa with
    | some x => (d.l1Forget n fun r => r.dpa = m.req.dpa).l1Fill n m.req (x.data, x.poison)
    | none =>
      let (d, v, p) := (d.l1Forget n fun r => r.dpa = m.req.dpa).l2Access m.req
      d.l1Fill n m.req (v, p)

/-- The way that a store's line takes; when an MSHR holds the line of every way, the least recent one's fill is awaited (R314, R315). -/
def Dev.l1Way (d : Dev) (n line : Nat) : Dev × Nat :=
  let set := l1Set line
  match (d.core n).l1Victim set with
  | some w => (d, w)
  | none =>
    let w := ((d.core n).l1Ages set).getLastD 0
    match (d.core n).l1InWay set w with
    | some v => (d.l1Await n v, w)
    | none => (d, w)

/-- Put a line into a victim way. -/
def Dev.l1Install (d : Dev) (n line : Nat) (l : L1Line) (recent : Bool) : Dev :=
  let (d, w) := d.l1Way n line
  d.l1Place n line w l recent

/-- A host line of a load arrives (use code 1). -/
def Dev.loadHost (d : Dev) (n slot line v : Nat) (poison : Bool) : Dev :=
  match ((d.core n).choir slot).load with
  | none => d
  | some l =>
    if !l.await.contains line then d
    else d.loadStep n slot { l.take true line (v, if poison then 15 else 0) with await := l.await.erase line }

/-! ### The store buffer (R56 to R62) -/

/-- Contiguous runs of set bits of a 32-bit mask: first byte and length. -/
def maskRuns : Nat → Nat → Nat → List (Nat × Nat) → List (Nat × Nat)
  | 0, _, _, acc => acc
  | f + 1, i, m, acc =>
    if m % 2 = 0 then maskRuns f (i + 1) (m / 2) acc
    else
      match acc.getLast? with
      | some (a, k) => if a + k = i then maskRuns f (i + 1) (m / 2) (acc.dropLast ++ [(a, k + 1)]) else maskRuns f (i + 1) (m / 2) (acc ++ [(i, 1)])
      | none => maskRuns f (i + 1) (m / 2) [(i, 1)]

/-- How the first store of an entry came by its sector. -/
def SbEntry.via (e : SbEntry) : Via := e.vias.headD .ring

/-- An entry drains: to the host as posted writes, or through L1, and to the home slice when its scope is cloister or wider
(R59, R268, R276, R314). EVICT_FIRST makes its line least recent; NO_L1 leaves the ages alone and does not place an absent line
(R129; assumption 68). -/
def Dev.drainEntry (d : Dev) (n : Nat) (e : SbEntry) : Dev :=
  let owner := (((d.core n).task.map (·.owner)).getD 256)
  if d.trails n then d
  else if e.host then
    (maskRuns 32 0 e.mask []).foldl (fun d r =>
      d.postWrite (e.via.plus r.1) (32 * e.sector + r.1) (leBytes r.2 (e.data / 2 ^ (8 * r.1))) e.poison) d
  else
    let line := e.sector / 4
    let sh := e.sector % 4 * 32
    let m := e.mask * 2 ^ sh
    let v := e.data * 2 ^ (8 * sh)
    let p := if e.poison then 15 else 0
    let set := l1Set line
    let touch := fun (c : Core) way => if e.hint = 2 then c else c.l1Touch set way (e.hint ≠ 1)
    let home := fun (d : Dev) =>
      let bad := d.lost (128 * line)
      let d := (d.l2Access ⟨n, owner, 128 * line, true, m, v, p &&& sectorsOf m, e.policy, e.l2p, e.key⟩).1
      if bad then d.coreExc n ⟨0x37, 0, e.pc, e.slot, e.voices, 0, e.va, []⟩ else d
    match mget (d.core n).l1 line with
    | some l =>
      let (v, p) := mergeLine m v p l.data l.poison
      if e.scope < 3 then
        d.onCore n fun c => touch { c with l1 := mset c.l1 line { l with valid := l.valid ||| m, dirty := l.dirty ||| m, data := v, poison := p } } l.way
      else
        home (d.onCore n fun c =>
          { c with l1 := mset c.l1 line { l with valid := l.valid ||| m, dirty := l.dirty &&& ((2 ^ 128 - 1) ^^^ m), data := v, poison := p } })
    | none =>
      if e.scope < 3 && e.hint ≠ 2 then d.l1Install n line ⟨0, m, m, v, p &&& sectorsOf m, owner, e.policy, e.l2p, e.key⟩ (e.hint ≠ 1)
      else home d

/-- Merge a later store of the same choir and sector into an entry (R57). -/
def SbEntry.merge (x e : SbEntry) : SbEntry :=
  { e with mask := x.mask ||| e.mask, data := mergeBytes 32 e.mask e.data x.data, poison := x.poison || e.poison, scope := max x.scope e.scope,
           voices := if x.pc = e.pc then x.voices ||| e.voices else e.voices,
           vias := x.vias ++ e.vias.filter fun v => !x.vias.contains v }

/-- An entry holds a choir's sector; translated and untranslated host addresses are apart. -/
def SbEntry.takes (x e : SbEntry) : Bool := x.host = e.host && x.sector = e.sector && x.via.cached = e.via.cached

/-- Merge an entry into the youngest of its choir, if that holds the same sector (R57); none when a new entry is needed. The list is
newest first. -/
def sbMerge (e : SbEntry) : List SbEntry → Option (List SbEntry)
  | [] => none
  | x :: xs =>
    if x.slot = e.slot then (if x.takes e then some (x.merge e :: xs) else none)
    else (sbMerge e xs).map (x :: ·)

/-- Place an entry: merge it into the choir's youngest entry when that holds the same sector, else append it (R57). -/
def sbPlace (l : List SbEntry) (e : SbEntry) : List SbEntry :=
  match sbMerge e l.reverse with
  | some r => r.reverse
  | none => l ++ [e]

/-- Entries of a stall. -/
def Core.stallEntries (c : Core) (stall : Nat) : List SbEntry := c.sb.filter fun e => e.slot % 4 = stall

/-- The next sector needs a new entry. -/
def sbNeeds (l : List SbEntry) (e : SbEntry) : Bool := (sbMerge e l.reverse).isNone

/-- Place entries in order until the stall's 16 are taken: the core, and the entries left over (R58). -/
def Core.sbFill (c : Core) : List SbEntry → Core × List SbEntry
  | [] => (c, [])
  | e :: es =>
    if sbNeeds c.sb e && decide (16 ≤ (c.stallEntries (e.slot % 4)).length) then (c, e :: es)
    else Core.sbFill { c with sb := sbPlace c.sb e } es

/-- The choir has entries in the buffer. -/
def Core.stores (c : Core) (slot : Nat) : Bool := c.sb.any fun e => e.slot = slot

/-- Place the stores of a choir; when the buffer is full the choir blocks with the rest (R56, R58), and after a seq_cst store `sc` that
had to block it stays so until its entries have drained (R281). -/
def Dev.sbStore (d : Dev) (n slot : Nat) (es : List SbEntry) (sc : Bool) : Dev :=
  let (c, rest) := (d.core n).sbFill es
  let d := d.setCore n c
  d.onChoir n slot fun h => { h with wait := if rest.isEmpty && !(sc && c.stores slot) then .none else .stores rest sc }

/-- The choirs blocked on a full buffer go on placing their sectors, in ascending slot (R58; assumption 69). -/
def Dev.sbResume (d : Dev) (n stall : Nat) : Dev :=
  (d.core n).choirs.foldl (fun d e =>
    if e.1 % 4 = stall then
      match ((d.core n).choir e.1).wait with
      | .stores rest sc => d.sbStore n e.1 rest sc
      | _ => d
    else d) d

/-- The oldest entry of a stall drains (R59). -/
def Dev.drainOne (d : Dev) (n stall : Nat) : Dev :=
  match (d.core n).stallEntries stall with
  | [] => d
  | e :: _ =>
    let d := d.onCore n fun c => { c with sb := c.sb.erase e }
    (d.drainEntry n e).sbResume n stall

/-- Drain a stall's entries in allocation order until the choir in a slot has none. -/
def Dev.drainChoir (d : Dev) (n slot : Nat) : Nat → Dev
  | 0 => d
  | f + 1 => if (d.core n).stores slot then Dev.drainChoir (d.drainOne n (slot % 4)) n slot f else d

/-- Drain every entry of a core. -/
def Dev.drainAll (d : Dev) (n : Nat) : Nat → Dev
  | 0 => d
  | f + 1 =>
    match (d.core n).sb with
    | [] => d
    | e :: _ => Dev.drainAll (d.drainOne n (e.slot % 4)) n f

/-! ### Orders (R278 to R283) -/

/-- The release work of a choir at a scope: drain its entries at core scope or wider, write back L1 at cloister or wider. -/
def Dev.release (d : Dev) (n slot scope : Nat) : Dev :=
  if scope < 2 then d
  else
    let d := d.drainChoir n slot 4096
    if scope < 3 then d else d.l1Clean n

/-- Count a fence or ordered access of scope cloister or wider. -/
def Dev.wide (d : Dev) (scope : Nat) : Dev := if 3 ≤ scope then d.oinc O.WIDE_FENCES else d

/-- The release part of an order before an access: release, acq_rel and seq_cst (R279 to R281). `load` has none. -/
def orderReleases (order : Nat) (load : Bool) : Bool := !load && (order = 2 || order = 3 || order = 4)

/-- Work before an ordered access. -/
def Dev.orderBefore (d : Dev) (n slot order scope : Nat) (load : Bool) : Dev :=
  let d := if order = 0 then d else d.wide scope
  if orderReleases order load then d.release n slot scope else d

/-! ### Translation of an instruction's voices (R54) -/

/-- Translate the address of every voice. -/
def Dev.transVoices (d : Dev) (eng owner access : Nat) (l : List (Nat × Nat)) : Dev × List (Nat × Nat × TRes) :=
  let (d, rs) := d.translateEach eng owner access (l.map (·.2))
  (d, (l.zip rs).map fun e => (e.1.1, e.1.2, e.2))

/-- A translation failed. -/
def TRes.failed : TRes → Option TFail
  | .fail f => some f
  | _ => none

/-- A translation leads to a host address. -/
def TRes.isHost : TRes → Bool
  | .host .. => true
  | _ => false

/-- The physical address a translation gives, with whether it is a host address. -/
def TRes.phys : TRes → Bool × Nat
  | .dev _ _ x => (false, x)
  | .host _ _ u pa => (true, pa.getD u)
  | _ => (false, 0)

/-- Translations of a set of accesses: all done, a wait, or the records of the failures with the failing voices. A bus
master disabled (ERR_HOST_ACCESS, R533) is no batch cause and is answered apart. -/
inductive TVoices where
  | ok
  | wait
  | hostOff (vs : List Nat) (va : Nat)
  | fault (vs : List Nat) (recs : List FaultRec)
  deriving DecidableEq, Repr

/-- Sort the translations of an instruction: every page's is complete before one that failed is told (R436). -/
def sortVoices (t : TaskRun) (eng access : Nat) (l : List (Nat × Nat × TRes)) : TVoices :=
  let bad := l.filterMap fun e => (e.2.2.failed).map fun f => (e.1, e.2.1, f)
  let batch := bad.filter fun e => e.2.2.cause ≠ 0x30
  if l.any (fun e => e.2.2.waits) then .wait
  else
    match batch, bad with
    | _ :: _, _ => .fault (batch.map (·.1)) (batchRecs (batch.map fun e => faultRec t eng access e.2.1 e.2.2))
    | [], b :: _ => .hostOff (bad.map (·.1)) b.2.1
    | [], [] => .ok

/-! ### Errors of L1 (R356 to R359) -/

/-- Lines of L1 that a lookup of `lines` reads: those lines, and then the others of their sets, which it may evict. -/
def Core.l1Near (c : Core) (lines : List Nat) : List (Nat × L1Line) :=
  (c.l1.filter fun e => lines.contains e.1) ++
    c.l1.filter fun e => !lines.contains e.1 && lines.any fun l => l1Set l = l1Set e.1

end Sys2Proof.Machine
end

