-- ==== Sys2Proof/Machine/NaveIssue.lean ====
section
/-! DEFINITION. Machine/NaveIssue.lean: the instruction word, what each opcode uses of it, and the issue of one instruction of
a choir: reconvergence, fetch, decode, register range, poison (chapter 3). -/

namespace Sys2Proof.Machine

/-! ### Fields of the instruction word (Table 3.1) -/

/-- OPC. -/
def iOpc (w : Nat) : Nat := bits w 0 8
/-- DST. -/
def iDst (w : Nat) : Nat := bits w 12 8
/-- SA. -/
def iSa (w : Nat) : Nat := bits w 20 8
/-- SB. -/
def iSb (w : Nat) : Nat := bits w 28 8
/-- SC. -/
def iSc (w : Nat) : Nat := bits w 36 8
/-- DU. -/
def iDu (w : Nat) : Bool := bit w 44
/-- AU. -/
def iAu (w : Nat) : Bool := bit w 45
/-- BU. -/
def iBu (w : Nat) : Bool := bit w 46
/-- BI. -/
def iBi (w : Nat) : Bool := bit w 47
/-- MOD. -/
def iMod (w : Nat) : Nat := bits w 48 16
/-- IMM. -/
def iImm (w : Nat) : Nat := bits w 64 32
/-- IMM2. -/
def iImm2 (w : Nat) : Nat := bits w 96 32

/-- A 32-bit pattern sign-extended to `n` bits. -/
def sext32 (n x : Nat) : Nat := ofSigned n (toSigned 32 x)

/-- What an opcode takes in an operand field: nothing, a register of `w` 32-bit parts of either file, a predicate index, a
uniform register, a uniform register or the immediate, or a register of `w` parts that it names and does not read (Tables 3.2, 3.4,
3.5). -/
inductive OKind where
  | no
  | idle (w : Nat)
  | reg (w : Nat)
  | pred
  | uni (w : Nat)
  | uniImm
  deriving DecidableEq, Repr

/-- What an opcode uses of a word: its operands; which of A, B and C it consumes (R659); whether the other fields hold legal
encodings; the bits of MOD, IMM and IMM2 it uses; whether A is the predicate VOTE reduces (R117). -/
structure Spec where
  d : OKind := .no
  a : OKind := .no
  b : OKind := .no
  c : OKind := .no
  eatA : Bool := true
  eatB : Bool := true
  eatC : Bool := true
  ok : Bool := true
  mod : Nat := 0
  imm : Nat := 0
  imm2 : Nat := 0
  vote : Bool := false
  deriving DecidableEq, Repr

/-- A register index is legal for its width: aligned, and below 64 in the uniform file (R116). -/
def idxLegal (u : Bool) (i w : Nat) : Bool := i % w = 0 && (!u || i < 64)

/-- The fields of one operand are legal (R115, R116, R120, R123). `bi` is false where the operand has no immediate form. -/
def opLegal (k : OKind) (i : Nat) (u bi : Bool) : Bool :=
  match k with
  | .no => i = 0 && !u && !bi
  | .idle w => !u && !bi && idxLegal false i w
  | .reg w => if bi then i = 0 && !u else idxLegal u i w
  | .pred => i < 8 && !u && !bi
  | .uni w => !bi && u && idxLegal true i w
  | .uniImm => if bi then i = 0 && !u else u && idxLegal true i 1

/-- An operand source is uniform or an immediate (R117). -/
def srcUniform (k : OKind) (u bi : Bool) : Bool :=
  match k with
  | .no => true
  | .idle _ => true
  | .reg _ => u || bi
  | .pred => false
  | .uni _ => true
  | .uniImm => true

/-- The word is legal for its opcode (R120). -/
def insLegal (s : Spec) (w : Nat) : Bool :=
  opLegal s.d (iDst w) (iDu w) false && opLegal s.a (iSa w) (iAu w) false && opLegal s.b (iSb w) (iBu w) (iBi w) &&
  opLegal s.c (iSc w) false false && s.ok && iMod w &&& ((2 ^ 16 - 1) ^^^ s.mod) = 0 &&
  ((s.b ≠ .no && iBi w) || iImm w &&& ((2 ^ 32 - 1) ^^^ s.imm) = 0) && iImm2 w &&& ((2 ^ 32 - 1) ^^^ s.imm2) = 0 &&
  (!iDu w || ((s.vote || srcUniform s.a (iAu w) false) && srcUniform s.b (iBu w) (iBi w) && srcUniform s.c false false))

/-- The voice registers a word names lie within the allocation of `n` registers (R29). -/
def insRange (s : Spec) (w n : Nat) : Bool :=
  let chk := fun (k : OKind) i (u : Bool) => match k with
    | .reg _ => u || decide (i < n)
    | .idle _ => u || decide (i < n)
    | _ => true
  chk s.d (iDst w) (iDu w) && chk s.a (iSa w) (iAu w) && chk s.b (iSb w) (iBu w || iBi w) && chk s.c (iSc w) false

/-- The first voice register outside the allocation. -/
def insRangeBad (s : Spec) (w n : Nat) : Nat :=
  let chk := fun (k : OKind) i (u : Bool) => match k with
    | .reg _ => !u && decide (n ≤ i)
    | .idle _ => !u && decide (n ≤ i)
    | _ => false
  if chk s.d (iDst w) (iDu w) then iDst w else if chk s.a (iSa w) (iAu w) then iSa w
  else if chk s.b (iSb w) (iBu w || iBi w) then iSb w else iSc w

/-- The defined opcodes (Tables 3.4 and 3.5): the bits of OPCODE_MAP. -/
def opcDefined (o : Nat) : Bool :=
  (1 ≤ o && o ≤ 0x16) || (0x20 ≤ o && o ≤ 0x26) || o = 0x30 || (0x40 ≤ o && o ≤ 0x44) || (0x50 ≤ o && o ≤ 0x55) ||
  (0x60 ≤ o && o ≤ 0x66) || (0x70 ≤ o && o ≤ 0x72) || o = 0x80 || (0x90 ≤ o && o ≤ 0x96) || (0xA0 ≤ o && o ≤ 0xA2) ||
  (0xB0 ≤ o && o ≤ 0xB2) || (0xC0 ≤ o && o ≤ 0xC2) || (0xD0 ≤ o && o ≤ 0xD2) || o = 0xE0

/-! ### Operand values -/

/-- Register parts of an operand. -/
def OKind.parts : OKind → Nat
  | .reg w => w
  | .uni w => w
  | _ => 1

/-- Operand A of voice `v`. -/
def opA (s : Spec) (h : Choir) (w v : Nat) : Nat × Bool :=
  if s.a = .no then (0, false) else if iAu w then h.uwide (iSa w) s.a.parts else h.vwide (iSa w) v s.a.parts

/-- Operand B of voice `v`; an immediate is taken as it stands for 32 bits and sign-extended beyond (R115), to 128 bits too for a store of
16 bytes, whose immediate form no rule states (assumption 71). -/
def opB (s : Spec) (h : Choir) (w v : Nat) : Nat × Bool :=
  if s.b = .no then (0, false)
  else if iBi w then (sext32 (32 * s.b.parts) (iImm w), false)
  else if iBu w then h.uwide (iSb w) s.b.parts else h.vwide (iSb w) v s.b.parts

/-- An FP32 value widened exactly to FP64 (R115). -/
def widen32 (x : Nat) : Nat :=
  match fpDecode 5 x with
  | .nan _ => x / 2 ^ 31 * 2 ^ 63 + 2047 * 2 ^ 52 + bits x 0 23 * 2 ^ 29
  | .inf n => fpInf 4 n
  | .fin n m e => (fpRound 4 0 false false n m e).bits

/-- Operand C of voice `v`. -/
def opC (s : Spec) (h : Choir) (w v : Nat) : Nat × Bool :=
  match s.c with
  | .reg n => h.vwide (iSc w) v n
  | _ => (0, false)

/-- Voice `v` would consume a poisoned operand (R659). -/
def eatsPoison (s : Spec) (h : Choir) (w v : Nat) : Bool :=
  let isReg := fun k => match k with | OKind.pred => false | _ => true
  (s.eatA && isReg s.a && (opA s h w v).2) || (s.eatB && isReg s.b && (opB s h w v).2) || (s.eatC && (opC s h w v).2)

/-! ### SRAM errors (R103 to R105) -/

/-- An error in a sub-array classifies (Table 2.11): the trackers after it, and 0 none, 1 CELL, 2 ROW_SUSPECT, 3
COLUMN_SUSPECT. -/
def sramClass (l : List SramTrack) (t : SramTrack) : List SramTrack × Nat :=
  let l := (if 32 ≤ l.length then l.drop 1 else l) ++ [t]
  let near := fun (x : SramTrack) s => decide (t.time ≤ x.time + s)
  let distinct := fun (xs : List Nat) => xs.foldl (fun acc x => if acc.contains x then acc else acc ++ [x]) []
  let col := fun (x : SramTrack) => x.sub = t.sub && x.col = t.col && x.bit = t.bit && near x 10000000000
  let row := fun (x : SramTrack) => x.sub = t.sub && x.row = t.row && near x 10000000000
  let cell := fun (x : SramTrack) => x.sub = t.sub && x.row = t.row && x.col = t.col && x.bit = t.bit && near x 86400000000000
  if 4 ≤ (l.filter col).length && 3 ≤ (distinct ((l.filter col).map (·.row))).length then (l.filter (fun x => !col x), 3)
  else if 4 ≤ (distinct ((l.filter row).map (·.col))).length then (l.filter (fun x => !row x), 2)
  else if 2 ≤ (l.filter cell).length then (l.filter (fun x => !cell x), 1)
  else (l, 0)

/-- A corrected error of a core (unit below 256) or an L2 slice (256 + slice) at an address, 0 where it has none: counted, logged,
classified (R103, R105, R356, R1060). The class is answered with the device. -/
def Dev.sramCorrected (d : Dev) (unit eng addr arr sub row col b : Nat) : Dev × Nat :=
  let d := if arr < 2 then d.oinc O.SRAM_CORRECTED else d.oinc O.CACHE_CORRECTED
  let d := d.corrected eng addr
  let (l, k) := sramClass (dget [] d.nave.trackers unit) ⟨sub, row, col, b, d.time⟩
  let d := { d with nave := { d.nave with trackers := dset [] d.nave.trackers unit l } }
  if k = 0 then (d, 0)
  else
    let d := d.oinc (O.SRAM_CLASS_EVENTS (k - 1))
    (if k < 3 then d.noteEvent 0x12 0 eng else d, k)

/-- A corrected error of a core's arrays; a suspect column awaits the next task boundary (R104). -/
def Dev.coreCorrected (d : Dev) (n addr arr sub row col b : Nat) : Dev :=
  let k := 16 * arr + sub
  match d.sramCorrected n n addr arr k row col b with
  | (d, 3) => d.onCore n fun c => if c.steer.contains (k, col) then c else { c with steer := c.steer ++ [(k, col)] }
  | (d, _) => d

/-- The instruction-cache line at a PC has a parity error: it goes, and is fetched again (R159). The trailing core of a tandem pair uses
the leading core's lines. -/
def Dev.icacheParity (d : Dev) (n pc : Nat) : Dev :=
  (d.onCore (if d.trails n then n - 1 else n) fun c => { c with icache := mdel c.icache (pc / 128) }).oinc O.ICACHE_PARITY

/-- What the core's checks find as an instruction executes (R103, R159): errors of LM, its own or another of the cloister, and of
registers; those of L1 are found as L1 is read. -/
def Dev.coreErr (d : Dev) (n slot : Nat) (e : HwErr) : Dev :=
  let near := fun k => n / 4 * 4 + k % 4
  match e with
  | .corrected arr sub row col b =>
    if arr < 2 then d.coreCorrected n 0 arr sub row col b
    else if arr = 4 then d.coreCorrected (near (sub / 8)) 0 0 (sub % 8) row col b
    else d
  | .word i => d.onCore n fun c => { c with lmp := dset false c.lmp (i % 65536) true }
  | .clWord i => d.onCore (near (i / 65536)) fun c => { c with lmp := dset false c.lmp (i % 65536) true }
  | .reg r v => d.onChoir n slot fun h => { h with vp := dset false h.vp (32 * (r % 256) + v % 32) true }
  | .parity => d.icacheParity n ((d.core n).choir slot).pc
  | _ => d

/-! ### Issue -/

/-- Pop the divergence stack while the path has reached its reconvergence address or has no voice left (R42, R45). -/
def Choir.settle : Nat → Choir → Choir
  | 0, h => h
  | f + 1, h =>
    if h.mask = 0 || h.rpc = some h.pc then
      match h.dstack with
      | [] => h
      | e :: r => Choir.settle f { h with pc := e.pc, mask := e.mask, rpc := e.rpc, dstack := r }
    else h

/-- What a fetch delivers: the word, a cause, or nothing yet. -/
inductive Fetched where
  | word (w : Nat)
  | exc (e : Exc)
  | hold
  deriving DecidableEq, Repr

/-- Fetch the word at a choir's PC through the instruction cache (R111 to R114, R152); the trailing core of a tandem pair
uses the lines the leading core fetched (R683). -/
def Dev.fetch (d : Dev) (n slot : Nat) : Dev × Fetched :=
  let h := (d.core n).choir slot
  let m := if d.trails n then n - 1 else n
  let pick := fun (line : Nat) => bits line (8 * (h.pc % 128)) 128
  if h.pc % 16 ≠ 0 then (d, .exc ⟨0x21, 0, h.pc, slot, h.mask, 0, h.pc, []⟩)
  else
    match mget (d.core m).icache (h.pc / 128) with
    | some l => (d, .word (pick l))
    | none =>
      match (d.core n).task with
      | none => (d, .hold)
      | some t =>
        let va := h.pc / 128 * 128
        match d.translate m t.owner va 3 with
        | (d, .dev _ w x) =>
          let bad := d.lost x
          let (d, v, p) := d.l2Access (winReq m t.owner w x false 0 0 0)
          if bad then (d, .exc ⟨0x37, 0, h.pc, slot, h.mask, 0, va, []⟩)
          else if p ≠ 0 then (d, .exc ⟨6, 0, h.pc, slot, h.mask, 0, va, []⟩)
          else (d.onCore m fun c => { c with icache := mset c.icache (h.pc / 128) v }, .word (pick v))
        | (d, .fail f) =>
          (d, .exc ⟨f.cause, f.detail, h.pc, slot, h.mask, 0, va, batchRecs [faultRec t m 3 va f]⟩)
        | (d, _) => (d, .hold)

/-- An instruction as its meaning sees it: core, slot, word, the executing voices and the choir as it issues. -/
structure Ctx where
  n : Nat
  slot : Nat
  w : Nat
  ex : Nat
  h : Choir
  e : HwErr
  deriving DecidableEq, Repr

/-- The choir of a slot could issue but for its operands and scoreboard (R35): the task has started, no exception of an earlier core
clock stops issue, and the choir neither has ended nor is blocked. -/
def Core.mayIssue (c : Core) (sound : Bool) (slot : Nat) : Bool :=
  c.started && sound &&
  match c.task, mget c.choirs slot with
  | some t, some h => slot < t.choirs && !h.ended && h.wait = .none
  | _, _ => false

/-- Nothing stops issue on core `n`: its octant is in no quiesce (R912), and no exception is pending but one that arose in the core
clock that is still open (R144). -/
def Dev.sound (d : Dev) (n : Nat) : Bool :=
  !d.quiescing (4 + n / 32) && ((d.core n).exc.isNone || d.excNow n)

/-- The slot from which a stall issues: the first ready one in ascending order after the slot that issued last, the lowest when none has
(R36; assumption 11). `held` names the choirs whose operands or scoreboard make them not ready. -/
def Core.nextSlot (c : Core) (sound : Bool) (stall held : Nat) : Option Nat :=
  let k := match mget c.last stall with
    | some s => s / 4 + 1
    | none => 0
  ((rangeFrom 0 16).map fun i => 4 * ((k + i) % 16) + stall).find? fun s => c.mayIssue sound s && !bit held s

/-- The choir that a command names is the one from which its stall issues. -/
def Dev.ready (d : Dev) (c : ChoirRef) : Bool := (d.core c.core).nextSlot (d.sound c.core) (c.slot % 4) c.held = some c.slot

/-- Go on to the next instruction. -/
def Dev.advance (d : Dev) (c : Ctx) : Dev := d.onChoir c.n c.slot fun h => { h with pc := h.pc + 16 }

/-- An instruction issues from its stall: it is counted, the stall's turn moves on, and the core is not quiet (R34, R36, R92, R955). -/
def Dev.issued (d : Dev) (n slot : Nat) : Dev :=
  (d.onCore n fun c => { c with last := mset c.last (slot % 4) slot, quietFor := 0 }).count 0 n 1 1

/-- An instruction that waits has not issued: take back its count. -/
def Dev.unissue (d : Dev) (c : Ctx) : Dev :=
  let k := c.n * 8 + 1
  { d with clr := { d.clr with counters := dset 0 d.clr.counters k (dget 0 d.clr.counters k - 1) } }

/-- Operand B of an FP64 instruction: an immediate is an FP32 value widened exactly (R115). -/
def opBD (s : Spec) (x : Ctx) (v : Nat) : Nat := if iBi x.w then widen32 (iImm x.w) else (opB s x.h x.w v).1

/-- Raise a cause of an instruction for some of its voices (R147). -/
def Dev.insExc (d : Dev) (c : Ctx) (cause mask addr : Nat) : Dev :=
  d.coreExc c.n ⟨cause, 0, c.h.pc, c.slot, mask, 0, addr, []⟩

/-- A cloister access outside the gang: ERR_PERMISSION, counted as a violation (R99, R657). -/
def Dev.clExc (d : Dev) (c : Ctx) (mask addr : Nat) : Dev := (d.insExc c 2 mask addr).violated 2

/-- Issue the instruction of a choir whose opcode is `opc` (R39, R42, R118 to R120, R143, R154): the choir reconverges and
fetches; a word of another defined opcode leaves the device as it was, since it is another command; a word without an
executing voice has no effect; then the checks of R143 in order, and the instruction's own action. -/
def Dev.issueNow (d : Dev) (c : ChoirRef) (e : HwErr) (opc : Nat) (sp : Nat → Spec) (act : Dev → Ctx → Dev) : Dev :=
  let d0 := d
  let d := (d.onChoir c.core c.slot (Choir.settle 40)).coreErr c.core c.slot e
  match d.fetch c.core c.slot with
  | (d, .hold) => d
  | (d, .exc x) => d.coreExc c.core x
  | (d, .word w) =>
    if iOpc w ≠ opc && opcDefined (iOpc w) then d0
    else
      let h := (d.core c.core).choir c.slot
      let g := h.pred (bits w 8 3)
      let ex := h.mask &&& (if bit w 11 then g ^^^ (2 ^ 32 - 1) else g)
      let x : Ctx := ⟨c.core, c.slot, w, ex, h, e⟩
      let s := sp w
      let d := d.issued c.core c.slot
      let regs := ((d.core c.core).task.map (·.regs)).getD 0
      let eaters := (voicesOf ex).filter (eatsPoison s h w)
      if ex = 0 then d.advance x
      else if iOpc w ≠ opc || !insLegal s w then d.insExc x 0x25 ex 0
      else if !insRange s w regs then d.insExc x 0x24 ex (insRangeBad s w regs)
      else if !eaters.isEmpty then d.insExc x 6 (maskOf eaters) 0
      else act d x

/-- Issue the instruction of a choir from which its stall issues (R35, R36). -/
def Dev.issue (d : Dev) (c : ChoirRef) (e : HwErr) (opc : Nat) (sp : Nat → Spec) (act : Dev → Ctx → Dev) : Dev :=
  if !d.ready c then d else d.issueNow c e opc sp act

/-- A nave command: the choir exists on the device, and its instruction issues in the core clock it belongs to. -/
def State.nave (s : State) (c : ChoirRef) (e : HwErr) (opc : Nat) (sp : Nat → Spec) (act : Dev → Ctx → Dev) :
    Host.Outcome State Fault Refusal :=
  s.runIf (c.core < 256 && c.slot < 64) fun d => ((d.clockBegin c).issue c e opc sp act).clockEnd c

/-- Write a value of the destination register for voice `v`, or once into the uniform file. -/
def Choir.putDst (h : Choir) (s : Spec) (w v x : Nat) (p : Bool) : Choir :=
  if iDu w then h.uputWide (iDst w) s.d.parts x p else h.vputWide (iDst w) v s.d.parts x p

/-- The voices an instruction acts for: each executing voice, or voice 0 alone for a uniform instruction. -/
def Ctx.actors (c : Ctx) : List Nat := if iDu c.w then [0] else voicesOf c.ex

/-- The voices a report names for some of the acting ones: all that execute a uniform instruction (R39, R147). -/
def Ctx.blame (c : Ctx) (l : List Nat) : Nat := if iDu c.w then c.ex else maskOf l

/-- A result per voice of an instruction without memory access: value, flags, and whether the result carries poison. -/
structure VRes1 where
  val : Nat
  flags : Nat := 0
  poison : Bool := false
  deriving DecidableEq, Repr

/-- Write a result for each acting voice, merge the flags (R240), and go on. Every voice reads its operands before any result is
written. -/
def Dev.voiceOp (d : Dev) (s : Spec) (c : Ctx) (f : Nat → VRes1) : Dev :=
  let rs := c.actors.map fun v => (v, f v)
  let fl := rs.foldl (fun a r => a ||| r.2.flags) 0
  (d.onChoir c.n c.slot fun h =>
    let h := rs.foldl (fun h r => h.putDst s c.w r.1 r.2.val r.2.poison) h
    { h with flags := h.flags ||| fl }).advance c

end Sys2Proof.Machine
end

