-- ==== Sys2Proof/Machine/Cache.lean ====
section
/-! DEFINITION. Machine/Cache.lean: the commands of the L2 slices and of the crossing (chapter 7): lookups and fills with what
the checks of a slice find, maintenance operations, column steering, and the failures of the crossing. -/

namespace Sys2Proof.Machine

/-- ENGINE of an L2 slice (Table 14.6, kind 6). -/
def sliceEng (s : Nat) : Nat := 0x6000 + s

/-- A column of an L2 sub-array is suspect (R361): the sub-array's lines are written back and invalidated and the column is steered to
a free spare of the 2, or a NOTE event says that none is free. -/
def Dev.columnSuspect (d : Dev) (slice sub col : Nat) : Dev :=
  let now := d.l2.steering.filter fun s => s.1 = slice && s.2.1 = sub
  if now.contains (slice, sub, col) then d
  else if 2 ≤ dget 0 d.l2.spares (64 * slice + sub) + now.length then d.noteEvent 0x12 0 (sliceEng slice)
  else
    let d := (d.l2.lines.filter fun e => sliceOf e.1 = slice && subOf (setOf e.1) = sub).foldl
      (fun (d : Dev) (e : Nat × L2Line) => d.l2Evict e.1 true) d
    { d with l2 := { d.l2 with steering := d.l2.steering ++ [(slice, sub, col)] } }

/-- What the checks of the home slice find as it looks line `a` up (R356 to R358, R360). An error of a clean line is
counted in a field of the machine, since no object holds that count. -/
def Dev.sliceErr (d : Dev) (a : Nat) (e : HwErr) : Dev :=
  let s := sliceOf a
  match e with
  | .corrected arr sub row col b =>
    let (d, k) := d.sramCorrected (256 + s) (sliceEng s) (128 * a) (max 2 arr) (sub % 32) row col b
    if k = 3 then d.columnSuspect s (sub % 32) col else d
  | .clean =>
    match mget d.l2.lines a with
    | some l =>
      if l.dirty then d
      else
        let d := d.l2Evict a false
        { d with l2 := { d.l2 with refetched := d.l2.refetched + 1 } }
    | none => d
  | .dirty m =>
    match mget d.l2.lines a with
    | some l =>
      if !l.dirty then d
      else
        let p := l.poison ||| m % 16
        let new := popCount 4 p - popCount 4 l.poison
        Dev.oadd { d with l2 := { d.l2 with lines := mset d.l2.lines a { l with poison := p } } } O.L2_POISONED new
    | none => d
  | .tag => d.raise { cause := 5, sev := .device, eng := sliceEng s }
  | _ => d

/-- L2_LOOKUP (R318): the home slice applies the request; a read it serves at once returns its data. -/
def execL2Lookup (r : L2Req) (e : HwErr) (s : State) : Host.Outcome State Fault Refusal :=
  s.runIf r.ok fun d =>
    match (d.sliceErr (r.dpa / 128) e).l2Offer r false with
    | (d, .data v p) => d.emit (.memData r.dpa v (p ≠ 0))
    | (d, _) => d

/-- The oldest `n` responses on their way arrive, each at the L1 MSHR that awaits it or outside. -/
def Dev.l2Deliver : Nat → Dev → Dev
  | 0, d => d
  | n + 1, d =>
    match d.l2.resps with
    | [] => d
    | x :: rest =>
      let d := { d with l2 := { d.l2 with resps := rest } }
      Dev.l2Deliver n
        (if x.l1 then d.l1Fill x.req.requester x.req (x.data, x.poison) else d.emit (.memData x.req.dpa x.data (x.poison ≠ 0)))

/-- Every response on its way arrives. -/
def Dev.l2Arrive (d : Dev) : Dev :=
  Dev.l2Deliver (d.l2.resps.length + d.l2.held.length + (d.l2.mshrs.map fun m => m.reqs.length).sum) d

/-- L2_FILL (R319): the fetched line returns, serves the requests of its MSHR in order and is installed; its data reaches those that
asked. -/
def execL2Fill (line : Nat) (s : State) : Host.Outcome State Fault Refusal :=
  s.run fun d => (d.l2Fill line).l2Arrive

/-- ERR_CROSSING (R363): a DEVICE error; accesses across the crossing complete with poison or drop their writes until reset. -/
def Dev.crossingFail (d : Dev) : Dev :=
  Dev.raise { d with l2 := { d.l2 with crossFailed := true } } { cause := 0x2C, sev := .device, eng := 0x9000 }

/-- CROSSING_RETRY (R345): the crossing retries a transfer of direction `dir` (0 north to south, 1 south to north) whose CRC failed;
the eighth failure in a row is ERR_CROSSING (Table 7.8). -/
def execCrossingRetry (dir : Nat) (s : State) : Host.Outcome State Fault Refusal :=
  s.runIf (dir < 2) fun d =>
    if d.l2.crossFailed then d
    else
      let n := dget 0 d.l2.crossFails dir + 1
      let d := Dev.oinc { d with l2 := { d.l2 with crossFails := dset 0 d.l2.crossFails dir (if n = 8 then 0 else n) } } O.CROSSING_RETRIES
      if n = 8 then d.crossingFail else d

/-- CROSSING_FAILURE (R362, R363): a module of direction `dir` is disabled with a NOTE; when it was the last, ERR_CROSSING. -/
def execCrossingFailure (dir : Nat) (s : State) : Host.Outcome State Fault Refusal :=
  s.runIf (dir < 2) fun d =>
    let v := d.oget O.CROSSING_MODULES
    let n := bits v (8 * dir) 8
    if n = 0 then d
    else
      let d := (d.oset O.CROSSING_MODULES (setBits v (8 * dir) 8 (n - 1))).noteEvent 0x2C dir 0x9000
      if n = 1 then d.crossingFail else d

/-- A write of 1 to MAINT_GO (Table 7.9): the operation the record describes starts in every slice; refused while one runs. -/
def Dev.maintGo (d : Dev) : WRes :=
  if d.oget O.MAINT_STATUS = 1 then .error stState
  else
    let m : Maint := ⟨d.oget O.MAINT_OP, d.oget O.MAINT_SELECT, d.oget O.MAINT_OWNER, d.oget O.MAINT_BASE, d.oget O.MAINT_LENGTH, 0⟩
    .ok (Dev.oset { d with l2 := { d.l2 with maint := some m } } O.MAINT_STATUS 1)

/-- MAINT_DONE (R347): the scan has passed every set and the last write is acknowledged (assumption 31). -/
def execMaintDone (s : State) : Host.Outcome State Fault Refusal :=
  s.run fun d =>
    match d.l2.maint with
    | none => d
    | some m =>
      let d := d.l2Maint m
      Dev.oset { d with l2 := { d.l2 with maint := none } } O.MAINT_STATUS 2

/-- L2_SPARE_STEERING (R361): the steering of a column of sub-array `array` of a slice completes; installing resumes there. -/
def execL2SpareSteering (slice array column : Nat) (s : State) : Host.Outcome State Fault Refusal :=
  s.runIf (slice < 96 && array < 32 && column < 65536) fun d =>
    if !d.l2.steering.contains (slice, array, column) then d
    else
      let k := 64 * slice + array
      let l2 := { d.l2 with steering := d.l2.steering.filter (· ≠ (slice, array, column)), spares := dset 0 d.l2.spares k (dget 0 d.l2.spares k + 1) }
      Dev.oinc { d with l2 := l2 } (O.L2_SPARES_USED slice)

end Sys2Proof.Machine
end

