-- ==== Sys2Proof/Machine/Cler.lean ====
section
/-! DEFINITION. Machine/Cler.lean: records of the Clerestory and the rings that hold them (R963 to R972, R988). -/

namespace Sys2Proof.Machine

/-- The bytes of a record (R964): the common doubleword, FTIME, the body, zeros up to LENGTH. -/
def ClrRec.bytes (r : ClrRec) : List Byte :=
  let b := leBytes 8 (r.kind + r.status * 256 + r.length * 2 ^ 32) ++ leBytes 8 r.ftime ++ r.body.flatMap (leBytes 8)
  (b ++ leBytes (r.length - b.length) 0).take r.length

/-- A ring of records: data bytes, PUT and GET. The pieces a record of a length takes: an optional SKIP and the place it starts
at, as offsets from the base (R964). -/
def ringPlace (size put len : Nat) : Nat × Nat :=
  let n := size - 64
  let pos := put % n
  if n < pos + len then (n - pos, 0) else (0, pos)

/-- Room of a ring for a record with its SKIP (R965). -/
def ringRoom (size put get len : Nat) : Bool :=
  let n := size - 64
  (ringPlace size put len).1 + len ≤ n - (put - get)

/-- The kernel ring is unset (R963, R988). -/
def Dev.clrUnset (d : Dev) : Bool := d.oget O.CLR_RING_BASE = 0 || d.clr.unset

/-- Write bytes of the kernel ring at an offset. -/
def Dev.clrPut (d : Dev) (off : Nat) (bs : List Byte) : Dev :=
  let a := d.oget O.CLR_RING_BASE + off
  if d.oget O.CLR_RING_SPACE = 0 then d.postWrite .ring a bs false else d.dpaWriteAll 259 256 a bs false

/-- A record of a kind is lost (R968, R970). -/
def Dev.clrLose (d : Dev) (kind : Nat) : Dev :=
  let d := d.oinc (O.RECORDS_LOST (if kind = 4 then 3 else kind - 1))
  { d with clr := { d.clr with lost := dset 0 d.clr.lost kind (dget 0 d.clr.lost kind + 1) } }

/-- The staged records are dropped, each counted as lost; a DROPS record has no count (R968, R988). -/
def Dev.clrDrop (d : Dev) : Dev :=
  d.clr.staged.foldl (fun d r => if r.kind = 5 then d else d.clrLose r.kind) { d with clr := { d.clr with staged := [] } }

/-- A kernel-ring write fails: NOTE event, the ring is unset, and what is staged is dropped (R988). -/
def Dev.clrFail (d : Dev) : Dev := Dev.noteEvent (Dev.clrDrop { d with clr := { d.clr with unset := true } }) 0x37 0 0x4000

/-- Write one record to the kernel ring: SKIP, bytes, common doubleword, PUT, and vector 5 as R966 states. -/
def Dev.clrWrite (d : Dev) (r : ClrRec) : Dev :=
  let size := d.oget O.CLR_RING_SIZE
  let (skip, pos) := ringPlace size d.clr.put r.length
  let d := if skip = 0 then d
    else d.clrPut (64 + d.clr.put % (size - 64)) (leBytes 8 (7 + skip * 2 ^ 32) ++ leBytes 8 d.time)
  let b := r.bytes
  let d := (d.clrPut (64 + pos + 8) (b.drop 8)).clrPut (64 + pos) (b.take 8)
  let put := d.clr.put + skip + r.length
  let d := d.clrPut 0 (leBytes 8 put)
  let since := d.clr.sinceIrq + skip + r.length
  let raise := r.kind = 4 || decide (d.oget O.CLR_IRQ_FILL ≤ since)
  let d := { d with clr := { d.clr with put := put, sinceIrq := if raise then 0 else since } }
  if raise then d.msix 0 5 else d

/-- Read GET of a device ring again (R965). -/
def Dev.clrGetAgain (d : Dev) : Dev :=
  if d.oget O.CLR_RING_SPACE = 1 then
    let (d, g, _) := d.dpaRead 259 256 (d.oget O.CLR_RING_BASE + 8) 8
    { d with clr := { d.clr with get := g } }
  else d

/-- The code of host reads that bring GET of the kernel ring. -/
def useClrGet : Nat := 4

/-- Write staged records in order while the ring has room; short of room in a host ring, GET is read from the host and the
records wait in the staging buffer (R965). -/
def Dev.clrFlush (d : Dev) : Nat → Dev
  | 0 => d
  | f + 1 =>
    match d.clr.staged with
    | [] => d
    | r :: rs =>
      let size := d.oget O.CLR_RING_SIZE
      let base := d.oget O.CLR_RING_BASE
      if d.clrUnset then d.clrDrop
      else if d.oget O.CLR_RING_SPACE = 1 && (!d.reachable base || !d.reachable (base + size - 1)) then
        d.clrFail
      else
        let d := if ringRoom size d.clr.put d.clr.get r.length then d else d.clrGetAgain
        if ringRoom size d.clr.put d.clr.get r.length then
          Dev.clrFlush (Dev.clrWrite { d with clr := { d.clr with staged := rs } } r) f
        else if d.oget O.CLR_RING_SPACE = 0 && !(d.host.reads.any fun x => x.use = useClrGet && x.arg = 0) then
          d.hostReadReq .ring (base + 8) 8 useClrGet 0
        else d

/-- Bytes held in the staging buffer. -/
def Cleres.stagedBytes (c : Cleres) : Nat := c.staged.foldl (fun n r => n + r.length) 0

/-- Form a SAMPLE, MARK or EVENT record: it claims its tokens and its place in the staging buffer, or is dropped and counted
(R969, R970). -/
def Dev.clrForm (d : Dev) (r : ClrRec) : Dev :=
  let t := d.oget O.CLR_TOKENS
  if d.clrUnset || decide (t < r.length) || decide (262144 < d.clr.stagedBytes + r.length) then d.clrLose r.kind
  else Dev.clrFlush { d.oset O.CLR_TOKENS (t - r.length) with clr := { d.clr with staged := d.clr.staged ++ [r] } } 4096

/-- A dispatch of a writer, or the end of a descriptor, ends the captures of an owner that it concerns (R976, R982). -/
def Dev.tear (d : Dev) (owner : Nat) (hit : Capture → Bool) (stale : Bool) : Dev :=
  let mine := fun (c : Capture) => c.watch.owner = owner && c.status = 0 && hit c
  let mark := fun (c : Capture) => if stale then { c with stale := true } else { c with torn := true }
  { d with clr := { d.clr with captures := mapIf mine mark d.clr.captures } }

/-- An uncorrectable error in a stored descriptor makes its entry STALE (R448), state 3 of the model. -/
def Dev.descSpoil (d : Dev) (owner h : Nat) : Dev :=
  let d := d.tear owner (fun c => c.handle = h) true
  { d with prec := { d.prec with descState := mset d.prec.descState (4096 * owner + h) 3 } }

/-- Such an error found where no node needs the descriptor: logged at NOTE in its owner's and the PF's error logs (R448). -/
def Dev.descSpoilNoted (d : Dev) (owner h : Nat) : Dev :=
  (d.descSpoil owner h).raise { cause := 5, owner := owner, eng := 0x3000, addr := dget 0 d.prec.descTable owner + 128 * h }

/-- An EVENT record (Table 21.3), when TRACE_MASK enables it: 1 DISPATCH, 2 RETIRE, 3 ABORT, 4 PREEMPT. -/
def Dev.clrEvent (d : Dev) (ev cause graph owner queue node first gang : Nat) : Dev :=
  if bit (d.oget O.TRACE_MASK) 1 then
    d.clrForm ⟨3, 0, 64, d.time, [ev + cause * 2 ^ 8 + graph * 2 ^ 16 + owner * 2 ^ 32 + queue * 2 ^ 44,
      node + first * 2 ^ 32 + gang * 2 ^ 40]⟩
  else d

end Sys2Proof.Machine
end

