-- ==== Sys2Proof/Machine/NaveAlu.lean ====
section
/-! DEFINITION. Machine/NaveAlu.lean: the meanings of groups 0x0 to 0x4, 0xC (MOV) and 0xE: integer and logical, floating
point, conversion, predicate and permute instructions (Tables 3.4 and 3.5, chapter 5). -/

namespace Sys2Proof.Machine

/-! ### Integer and logical (group 0x0) -/

/-- Parts of an operand under W64. -/
def w64Parts (w : Nat) : Nat := if bit (iMod w) 0 then 2 else 1

/-- What an integer instruction uses (R121): D A B M, C for IMAD; SIGNED only where it applies. -/
def specInt (signed c : Bool) (w : Nat) : Spec :=
  let p := w64Parts w
  { d := .reg p, a := .reg p, b := .reg p, c := if c then .reg p else .no,
    mod := if signed then 3 else 1 }

/-- An integer instruction: a function of the width and the operands, modulo 2^width. -/
def intOp (signed c : Bool) (f : Nat → Nat → Nat → Nat → Nat) (d : Dev) (x : Ctx) : Dev :=
  let s := specInt signed c x.w
  let n := 32 * w64Parts x.w
  d.voiceOp s x fun v => { val := f n (opA s x.h x.w v).1 (opB s x.h x.w v).1 (opC s x.h x.w v).1 % 2 ^ n }

/-- IADD: D = A + B, wrapping. -/
def execIadd (c : ChoirRef) (e : HwErr) (s : State) : Host.Outcome State Fault Refusal :=
  s.nave c e 0x01 (specInt false false) (intOp false false fun _ a b _ => a + b)

/-- ISUB: D = A − B, wrapping. -/
def execIsub (c : ChoirRef) (e : HwErr) (s : State) : Host.Outcome State Fault Refusal :=
  s.nave c e 0x02 (specInt false false) (intOp false false fun n a b _ => a + 2 ^ n - b)

/-- IMUL: the low half of A · B. -/
def execImul (c : ChoirRef) (e : HwErr) (s : State) : Host.Outcome State Fault Refusal :=
  s.nave c e 0x03 (specInt false false) (intOp false false fun _ a b _ => a * b)

/-- The high half of a product of `n`-bit operands. -/
def mulHigh (signed : Bool) (n a b : Nat) : Nat :=
  if signed then ofSigned (2 * n) (toSigned n a * toSigned n b) / 2 ^ n else a * b / 2 ^ n

/-- IMULHI: the high half of A · B, signed under SIGNED. -/
def execImulhi (c : ChoirRef) (e : HwErr) (s : State) : Host.Outcome State Fault Refusal :=
  s.nave c e 0x04 (specInt true false) fun d x =>
    intOp true false (fun n a b _ => mulHigh (bit (iMod x.w) 1) n a b) d x

/-- IMAD: D = A · B + C, wrapping. -/
def execImad (c : ChoirRef) (e : HwErr) (s : State) : Host.Outcome State Fault Refusal :=
  s.nave c e 0x05 (specInt false true) (intOp false true fun _ a b k => a * b + k)

/-- AND. -/
def execAndCmd (c : ChoirRef) (e : HwErr) (s : State) : Host.Outcome State Fault Refusal :=
  s.nave c e 0x06 (specInt false false) (intOp false false fun _ a b _ => a &&& b)

/-- OR. -/
def execOrCmd (c : ChoirRef) (e : HwErr) (s : State) : Host.Outcome State Fault Refusal :=
  s.nave c e 0x07 (specInt false false) (intOp false false fun _ a b _ => a ||| b)

/-- XOR. -/
def execXor (c : ChoirRef) (e : HwErr) (s : State) : Host.Outcome State Fault Refusal :=
  s.nave c e 0x08 (specInt false false) (intOp false false fun _ a b _ => a ^^^ b)

/-- SHL: shift left by B mod the width. -/
def execShl (c : ChoirRef) (e : HwErr) (s : State) : Host.Outcome State Fault Refusal :=
  s.nave c e 0x09 (specInt false false) (intOp false false fun n a b _ => a * 2 ^ (b % n))

/-- SHR: logical shift right by B mod the width. -/
def execShr (c : ChoirRef) (e : HwErr) (s : State) : Host.Outcome State Fault Refusal :=
  s.nave c e 0x0A (specInt false false) (intOp false false fun n a b _ => a / 2 ^ (b % n))

/-- SAR: arithmetic shift right by B mod the width. -/
def execSar (c : ChoirRef) (e : HwErr) (s : State) : Host.Outcome State Fault Refusal :=
  s.nave c e 0x0B (specInt false false)
    (intOp false false fun n a b _ => ofSigned n (toSigned n a / 2 ^ (b % n)))

/-- Order of two `n`-bit patterns. -/
def intOrder (signed : Bool) (n a b : Nat) : Int :=
  if signed then toSigned n a - toSigned n b else (a % 2 ^ n : Nat) - (b % 2 ^ n : Nat)

/-- IMIN: the lesser of A and B, signed under SIGNED. -/
def execImin (c : ChoirRef) (e : HwErr) (s : State) : Host.Outcome State Fault Refusal :=
  s.nave c e 0x0C (specInt true false) fun d x =>
    intOp true false (fun n a b _ => if intOrder (bit (iMod x.w) 1) n a b ≤ 0 then a else b) d x

/-- IMAX: the greater of A and B, signed under SIGNED. -/
def execImax (c : ChoirRef) (e : HwErr) (s : State) : Host.Outcome State Fault Refusal :=
  s.nave c e 0x0D (specInt true false) fun d x =>
    intOp true false (fun n a b _ => if 0 ≤ intOrder (bit (iMod x.w) 1) n a b then a else b) d x

/-- POPC uses D A M. -/
def specPopc (w : Nat) : Spec := { d := .reg (w64Parts w), a := .reg (w64Parts w), mod := 1 }

/-- POPC: the count of one bits of A. -/
def execPopc (c : ChoirRef) (e : HwErr) (s : State) : Host.Outcome State Fault Refusal :=
  s.nave c e 0x0E specPopc fun d x =>
    let s := specPopc x.w
    d.voiceOp s x fun v => { val := popCount (32 * w64Parts x.w) (opA s x.h x.w v).1 }

/-- SEL uses D A B C M with C a predicate; it carries poison without consuming it (R659). -/
def specSel (w : Nat) : Spec :=
  let p := w64Parts w
  { d := .reg p, a := .reg p, b := .reg p, c := .pred, eatA := false, eatB := false, mod := 1 }

/-- SEL: A where P[SC] is true, else B. -/
def execSel (c : ChoirRef) (e : HwErr) (s : State) : Host.Outcome State Fault Refusal :=
  s.nave c e 0x0F specSel fun d x =>
    let s := specSel x.w
    d.voiceOp s x fun v =>
      let r := if bit (x.h.pred (iSc x.w)) v then opA s x.h x.w v else opB s x.h x.w v
      { val := r.1, poison := r.2 }

/-! ### Floating point (groups 0x1 and 0x2) -/

/-- Rounding direction of an instruction: RND, or SR_FPCTL.RM when it is 0 (R230). -/
def rndOf (h : Choir) (rnd : Nat) : Nat := if rnd = 0 then h.fpctl % 4 else rnd - 1

/-- SR_FPCTL.FTZ16. -/
def ftzOf (h : Choir) : Bool := bit h.fpctl 2

/-- SR_FPCTL.SAT. -/
def satOf (h : Choir) : Bool := bit h.fpctl 3

/-- Format code of a TYPE (R121). -/
def typeFmt (t : Nat) : Nat := 5 + t

/-- Operands an FP instruction takes beside A. -/
inductive FpShape where
  | one
  | two
  | three
  deriving DecidableEq, Repr

/-- What an FP32, FP16 or BF16 instruction uses (R121). -/
def specF (k : FpShape) (w : Nat) : Spec :=
  { d := .reg 1, a := .reg 1, b := if k = .one then .no else .reg 1, c := if k = .three then .reg 1 else .no,
    mod := 0x37, ok := bits (iMod w) 0 3 < 5 && bits (iMod w) 4 2 < 3 }

/-- What an FP64 instruction uses. -/
def specD (k : FpShape) (w : Nat) : Spec :=
  { d := .reg 2, a := .reg 2, b := if k = .one then .no else .reg 2, c := if k = .three then .reg 2 else .no,
    mod := 7, ok := iMod w < 5 }

/-- A failed residue check of a product is logged at NOTE severity in the tenant's and the PF's logs and counted (R261). -/
def Dev.arithCheck (d : Dev) (n : Nat) : Dev :=
  let t := (d.core n).task
  (d.oinc O.ARITH_CHECK_EVENTS).raise
    { cause := 0x2A, eng := n, owner := (t.map (·.owner)).getD 0x1FF, queue := (t.map (·.queue)).getD 0,
      graph := (t.map (·.graph)).getD 0, node := (t.map (·.node)).getD 0 }

/-- A floating-point voice instruction: format, direction, flush and the operands give the result; `mul` names the operations
whose products are checked (R261). -/
def fpOp (k : FpShape) (dbl mul : Bool) (f : Nat → Nat → Bool → Nat → Nat → Nat → FRes) (d : Dev) (x : Ctx) : Dev :=
  let s := if dbl then specD k x.w else specF k x.w
  let fmt := if dbl then 4 else typeFmt (bits (iMod x.w) 4 2)
  let rm := rndOf x.h (bits (iMod x.w) 0 3)
  let ftz := ftzOf x.h && !dbl
  let bad := if mul then x.actors.filter fun v => match x.e with
      | .arith m => bit m v
      | _ => false
    else []
  let cut := fun (y : Nat) => y % 2 ^ fmtWidth fmt
  let d := d.voiceOp s x fun v =>
    let b := if dbl then opBD s x v else (opB s x.h x.w v).1
    let r := f fmt rm ftz (cut (opA s x.h x.w v).1) (cut b) (cut (opC s x.h x.w v).1)
    { val := r.bits, flags := r.flags, poison := bad.contains v }
  bad.foldl (fun d _ => d.arithCheck x.n) d

/-- FADD. -/
def execFadd (c : ChoirRef) (e : HwErr) (s : State) : Host.Outcome State Fault Refusal :=
  s.nave c e 0x10 (specF .two) (fpOp .two false false fun f rm z a b _ => fpAdd f rm z a b)

/-- FMUL. -/
def execFmul (c : ChoirRef) (e : HwErr) (s : State) : Host.Outcome State Fault Refusal :=
  s.nave c e 0x11 (specF .two) (fpOp .two false true fun f rm z a b _ => fpMul f rm z a b)

/-- FFMA, fused. -/
def execFfma (c : ChoirRef) (e : HwErr) (s : State) : Host.Outcome State Fault Refusal :=
  s.nave c e 0x12 (specF .three) (fpOp .three false true fun f rm z a b k => fpFma f rm z a b k)

/-- FMIN: minimumNumber (R242). -/
def execFmin (c : ChoirRef) (e : HwErr) (s : State) : Host.Outcome State Fault Refusal :=
  s.nave c e 0x13 (specF .two) (fpOp .two false false fun f _ z a b _ => fpMinMax f false z a b)

/-- FMAX: maximumNumber (R242). -/
def execFmax (c : ChoirRef) (e : HwErr) (s : State) : Host.Outcome State Fault Refusal :=
  s.nave c e 0x14 (specF .two) (fpOp .two false false fun f _ z a b _ => fpMinMax f true z a b)

/-- FDIV. -/
def execFdiv (c : ChoirRef) (e : HwErr) (s : State) : Host.Outcome State Fault Refusal :=
  s.nave c e 0x15 (specF .two) (fpOp .two false false fun f rm z a b _ => fpDiv f rm z a b)

/-- FSQRT. -/
def execFsqrt (c : ChoirRef) (e : HwErr) (s : State) : Host.Outcome State Fault Refusal :=
  s.nave c e 0x16 (specF .one) (fpOp .one false false fun f rm z a _ _ => fpSqrt f rm z a)

/-- DADD. -/
def execDadd (c : ChoirRef) (e : HwErr) (s : State) : Host.Outcome State Fault Refusal :=
  s.nave c e 0x20 (specD .two) (fpOp .two true false fun f rm z a b _ => fpAdd f rm z a b)

/-- DMUL. -/
def execDmul (c : ChoirRef) (e : HwErr) (s : State) : Host.Outcome State Fault Refusal :=
  s.nave c e 0x21 (specD .two) (fpOp .two true true fun f rm z a b _ => fpMul f rm z a b)

/-- DFMA, fused. -/
def execDfma (c : ChoirRef) (e : HwErr) (s : State) : Host.Outcome State Fault Refusal :=
  s.nave c e 0x22 (specD .three) (fpOp .three true true fun f rm z a b k => fpFma f rm z a b k)

/-- DMIN. -/
def execDmin (c : ChoirRef) (e : HwErr) (s : State) : Host.Outcome State Fault Refusal :=
  s.nave c e 0x23 (specD .two) (fpOp .two true false fun f _ z a b _ => fpMinMax f false z a b)

/-- DMAX. -/
def execDmax (c : ChoirRef) (e : HwErr) (s : State) : Host.Outcome State Fault Refusal :=
  s.nave c e 0x24 (specD .two) (fpOp .two true false fun f _ z a b _ => fpMinMax f true z a b)

/-- DDIV. -/
def execDdiv (c : ChoirRef) (e : HwErr) (s : State) : Host.Outcome State Fault Refusal :=
  s.nave c e 0x25 (specD .two) (fpOp .two true false fun f rm z a b _ => fpDiv f rm z a b)

/-- DSQRT. -/
def execDsqrt (c : ChoirRef) (e : HwErr) (s : State) : Host.Outcome State Fault Refusal :=
  s.nave c e 0x26 (specD .one) (fpOp .one true false fun f rm z a _ _ => fpSqrt f rm z a)

/-- CVT uses D A M: source format, destination format, RND (R121). -/
def specCvt (w : Nat) : Spec :=
  let m := iMod w
  { d := .reg (cdiv (fmtWidth (bits m 4 4)) 32), a := .reg (cdiv (fmtWidth (bits m 0 4)) 32),
    mod := 0x7FF, ok := bits m 0 4 < 12 && bits m 4 4 < 12 && bits m 8 3 < 5 }

/-- CVT (R244 to R248); flushing concerns FP16 and BF16 sources and destinations (R236). -/
def execCvt (c : ChoirRef) (e : HwErr) (s : State) : Host.Outcome State Fault Refusal :=
  s.nave c e 0x30 specCvt fun d x =>
    let s := specCvt x.w
    let m := iMod x.w
    d.voiceOp s x fun v =>
      let r := cvt (bits m 0 4) (bits m 4 4) (rndOf x.h (bits m 8 3)) (satOf x.h) (ftzOf x.h) (opA s x.h x.w v).1
      { val := r.bits, flags := r.flags }

/-! ### Predicates (group 0x4) -/

/-- Write a predicate of the executing voices from a value per voice, merge the flags, and go on. -/
def Dev.predOp (d : Dev) (x : Ctx) (f : Nat → Bool × Nat) : Dev :=
  let rs := (voicesOf x.ex).map fun v => (v, f v)
  let vals := maskOf ((rs.filter fun r => r.2.1).map (·.1))
  let fl := rs.foldl (fun a r => a ||| r.2.2) 0
  (d.onChoir x.n x.slot fun h => let h := h.setPred (iDst x.w) x.ex vals; { h with flags := h.flags ||| fl }).advance x

/-- The combine of a comparison with P[SC] (R124). -/
def combine (m : Nat) (r p : Bool) : Bool :=
  match m with
  | 1 => r && p
  | 2 => r || p
  | _ => r

/-- What a comparison uses: D A B C M (R124). -/
def specSetp (k : Nat) (w : Nat) : Spec :=
  let m := iMod w
  let p := if k = 2 || (k = 0 && bit m 5) then 2 else 1
  { d := .pred, a := .reg p, b := .reg p, c := .pred,
    mod := if k = 0 then 0xFF else if k = 1 then 0x3CF else 0xCF,
    ok := bits m 0 4 < 8 && bits m 6 2 < 3 && (k ≠ 0 || bits m 0 4 < 6) && (k ≠ 1 || bits m 8 2 < 3) }

/-- ISETP: integer comparison into a predicate (R124, R240). -/
def execIsetp (c : ChoirRef) (e : HwErr) (s : State) : Host.Outcome State Fault Refusal :=
  s.nave c e 0x40 (specSetp 0) fun d x =>
    let s := specSetp 0 x.w
    let m := iMod x.w
    d.predOp x fun v =>
      let o := intOrder (bit m 4) (32 * s.a.parts) (opA s x.h x.w v).1 (opB s x.h x.w v).1
      (combine (bits m 6 2) (cmpOrder (bits m 0 4) o) (bit (x.h.pred (iSc x.w)) v), 0)

/-- FSETP: comparison of FP32, FP16 or BF16 values (R243). -/
def execFsetp (c : ChoirRef) (e : HwErr) (s : State) : Host.Outcome State Fault Refusal :=
  s.nave c e 0x41 (specSetp 1) fun d x =>
    let s := specSetp 1 x.w
    let m := iMod x.w
    let f := typeFmt (bits m 8 2)
    let cut := fun (y : Nat) => y % 2 ^ fmtWidth f
    d.predOp x fun v =>
      let r := fpCompare f (bits m 0 4) (ftzOf x.h) (cut (opA s x.h x.w v).1) (cut (opB s x.h x.w v).1)
      (combine (bits m 6 2) r.1 (bit (x.h.pred (iSc x.w)) v), r.2)

/-- DSETP: comparison of FP64 values (R243). -/
def execDsetp (c : ChoirRef) (e : HwErr) (s : State) : Host.Outcome State Fault Refusal :=
  s.nave c e 0x42 (specSetp 2) fun d x =>
    let s := specSetp 2 x.w
    let m := iMod x.w
    d.predOp x fun v =>
      let r := fpCompare 4 (bits m 0 4) false (opA s x.h x.w v).1 (opBD s x v)
      (combine (bits m 6 2) r.1 (bit (x.h.pred (iSc x.w)) v), r.2)

/-- PLOP uses D A B as predicate indices. -/
def specPlop (_ : Nat) : Spec := { d := .pred, a := .pred, b := .pred, mod := 3 }

/-- A predicate operation (R124): AND, OR, XOR, ANDN (A and not B). -/
def plop (m : Nat) (a b : Bool) : Bool :=
  match m with
  | 0 => a && b
  | 1 => a || b
  | 2 => xor a b
  | _ => a && !b

/-- PLOP: P[D] = P[A] op P[B]. -/
def execPlop (c : ChoirRef) (e : HwErr) (s : State) : Host.Outcome State Fault Refusal :=
  s.nave c e 0x43 specPlop fun d x =>
    d.predOp x fun v => (plop (iMod x.w % 4) (bit (x.h.pred (iSa x.w)) v) (bit (x.h.pred (iSb x.w)) v), 0)

/-- VOTE uses D A M; D is a uniform register under DU, and MASK requires DU (R117, R124). -/
def specVote (w : Nat) : Spec :=
  { d := if iDu w then .reg 1 else .pred, a := .pred, vote := true, mod := 3,
    ok := iMod w < 3 && (iMod w ≠ 2 || iDu w) }

/-- VOTE: ANY or ALL of P[A] over the executing voices into P[D] or U[D]; MASK into U[D] (R124). ANY and ALL write 1 or 0 to U[D], which
no rule states (assumption 71). -/
def execVote (c : ChoirRef) (e : HwErr) (s : State) : Host.Outcome State Fault Refusal :=
  s.nave c e 0x44 specVote fun d x =>
    let t := x.h.pred (iSa x.w) &&& x.ex
    let r := if iMod x.w = 0 then decide (t ≠ 0) else decide (t = x.ex)
    if iDu x.w then
      (d.onChoir x.n x.slot fun h => h.uset (iDst x.w) (if iMod x.w = 2 then t else b2n r) false).advance x
    else d.predOp x fun _ => (r, 0)

/-! ### Move and permute -/

/-- MOV uses D and A, or D and B under BI; it carries poison (R659). -/
def specMov (w : Nat) : Spec :=
  if iBi w then { d := .reg 1, b := .reg 1, eatB := false } else { d := .reg 1, a := .reg 1, eatA := false }

/-- MOV. -/
def execMov (c : ChoirRef) (e : HwErr) (s : State) : Host.Outcome State Fault Refusal :=
  s.nave c e 0xC2 specMov fun d x =>
    let s := specMov x.w
    d.voiceOp s x fun v =>
      let r := if iBi x.w then opB s x.h x.w v else opA s x.h x.w v
      { val := r.1, poison := r.2 }

/-- VPERM uses D A B M. -/
def specVperm (_ : Nat) : Spec := { d := .reg 1, a := .reg 1, b := .reg 1, eatA := false, eatB := false, mod := 3 }

/-- The source voice of VPERM (R149). -/
def permSource (mode v b : Nat) : Nat :=
  match mode with
  | 0 => b % 32
  | 1 => (v + b) % 32
  | 2 => v ^^^ (b % 32)
  | _ =>
    let s := (v : Int) + toSigned 32 b
    if 0 ≤ s && s < 32 then s.toNat else v

/-- VPERM: operand A of the source voice. -/
def execVperm (c : ChoirRef) (e : HwErr) (s : State) : Host.Outcome State Fault Refusal :=
  s.nave c e 0xE0 specVperm fun d x =>
    let s := specVperm x.w
    d.voiceOp s x fun v =>
      let b := opB s x.h x.w v
      let r := opA s x.h x.w (permSource (iMod x.w) v b.1)
      { val := r.1, poison := r.2 || b.2 }

end Sys2Proof.Machine
end

