-- ==== Sys2Proof/Machine/NaveCtl.lean ====
section
/-! DEFINITION. Machine/NaveCtl.lean: the meanings of control flow (group 0x5), special registers (0xC) and exceptions and trace
(0xD). -/

namespace Sys2Proof.Machine

/-! ### Control flow -/

/-- PC plus 16 times a signed immediate, modulo 2^64 (R152). -/
def pcPlus (pc imm : Nat) : Nat := (pc + sext32 64 imm * 16) % 2 ^ 64

/-- BRA uses I I2. -/
def specBra (_ : Nat) : Spec := { imm := 2 ^ 32 - 1, imm2 := 2 ^ 32 - 1 }

/-- The choir after a branch of the voices `ex` (R40, R41); none when the divergence stack overflows (R46). -/
def Choir.branch (h : Choir) (ex target r : Nat) : Option Choir :=
  if ex = h.mask then some { h with pc := target }
  else if 32 < h.dstack.length + 2 then none
  else some { h with pc := target, mask := ex, rpc := some r,
                     dstack := ⟨h.pc + 16, h.mask ^^^ ex, some r⟩ :: ⟨r, h.mask, h.rpc⟩ :: h.dstack }

/-- BRA: the voices of M whose guard is true take the branch (R40, R41, R81). -/
def execBra (c : ChoirRef) (e : HwErr) (s : State) : Host.Outcome State Fault Refusal :=
  s.nave c e 0x50 specBra fun d x =>
    match x.h.branch x.ex (pcPlus x.h.pc (iImm x.w)) (pcPlus x.h.pc (iImm2 x.w)) with
    | some h => d.onChoir x.n x.slot fun _ => h
    | none => d.insExc x 0x20 x.ex 0

/-- BRX uses A, a uniform pair, and I2. -/
def specBrx (_ : Nat) : Spec := { a := .uni 2, imm2 := 2 ^ 32 - 1 }

/-- BRX: an indirect branch is uniform (R43). -/
def execBrx (c : ChoirRef) (e : HwErr) (s : State) : Host.Outcome State Fault Refusal :=
  s.nave c e 0x51 specBrx fun d x =>
    d.onChoir x.n x.slot fun h => { h with pc := (opA (specBrx x.w) x.h x.w 0).1 }

/-- The choir as the voices `ex` leave for a call or a return: with all of M it goes whole; otherwise the others wait at the next
instruction (R44; assumption 20). -/
def Choir.split (h : Choir) (ex : Nat) : Option Choir :=
  if ex = h.mask then some h
  else if 32 ≤ h.dstack.length then none
  else some { h with mask := ex, rpc := some (h.pc + 16), dstack := ⟨h.pc + 16, h.mask, h.rpc⟩ :: h.dstack }

/-- CALL uses I. -/
def specCall (_ : Nat) : Spec := { imm := 2 ^ 32 - 1 }

/-- CALL: push PC + 16 and branch (R44, R46). -/
def execCall (c : ChoirRef) (e : HwErr) (s : State) : Host.Outcome State Fault Refusal :=
  s.nave c e 0x52 specCall fun d x =>
    if 8 ≤ x.h.rstack.length then d.insExc x 0x20 x.ex 0
    else
      match x.h.split x.ex with
      | some h => d.onChoir x.n x.slot fun _ =>
          { h with rstack := (x.h.pc + 16) :: h.rstack, pc := pcPlus x.h.pc (iImm x.w) }
      | none => d.insExc x 0x20 x.ex 0

/-- An opcode that uses no field. -/
def specNone (_ : Nat) : Spec := {}

/-- RET: pop the return address (R44, R151). -/
def execRet (c : ChoirRef) (e : HwErr) (s : State) : Host.Outcome State Fault Refusal :=
  s.nave c e 0x53 specNone fun d x =>
    match x.h.rstack with
    | [] => d.insExc x 0x20 x.ex 0
    | r :: rs =>
      match x.h.split x.ex with
      | some h => d.onChoir x.n x.slot fun _ => { h with rstack := rs, pc := r }
      | none => d.insExc x 0x20 x.ex 0

/-- EXIT: the voices leave M and every mask of the divergence stack; a path without voices pops at once; a choir that has ended
counts at the gang barrier (R45, R79). -/
def execExitCmd (c : ChoirRef) (e : HwErr) (s : State) : Host.Outcome State Fault Refusal :=
  s.nave c e 0x54 specNone fun d x =>
    let out := fun (m : Nat) => m &&& (x.ex ^^^ (2 ^ 32 - 1))
    let d := d.onChoir x.n x.slot fun h =>
      Choir.settle 40 { h with pc := h.pc + 16, mask := out h.mask, dstack := h.dstack.map fun e => { e with mask := out e.mask } }
    d.gbarCheck x.n

/-- NOP: no effect. -/
def execNop (c : ChoirRef) (e : HwErr) (s : State) : Host.Outcome State Fault Refusal :=
  s.nave c e 0x55 specNone fun d x => d.advance x

/-! ### Special registers -/

/-- Width of a special register in 32-bit parts (Table 3.7). -/
def srParts (i : Nat) : Nat := if i = 0x15 || i = 0x16 then 2 else 1

/-- SR.READ uses D I; an unlisted number, or a voice-valued register into a uniform destination, is reserved (R136). -/
def specSrRead (w : Nat) : Spec :=
  { d := .reg (srParts (iImm w)), imm := 255, ok := iImm w ≤ 0x19 && !(iDu w && iImm w = 0) }

/-- SR.WRITE uses A, a uniform register, and I; only SR_FLAGS and SR_FPCTL are writable. -/
def specSrWrite (w : Nat) : Spec := { a := .uni 1, imm := 255, ok := iImm w = 0x17 || iImm w = 0x18 }

/-- The count of an octant's clock at this instant (R155): it has gone on by an open amount since it was last read (assumption 73). -/
def Dev.tclock (d : Dev) (n : Nat) : Nat := dget 0 d.nave.tclk (n / 32) + Config.freeValue d.free

/-- The count has been read. -/
def Dev.tclockRead (d : Dev) (n : Nat) : Dev :=
  Dev.freed { d with nave := { d.nave with tclk := dset 0 d.nave.tclk (n / 32) (d.tclock n) } }

/-- The value of a special register (Table 3.7). SR_TENANT of a kernel task reads 0, which no rule states (assumption 71). -/
def Dev.srValue (d : Dev) (x : Ctx) (i v : Nat) : Nat :=
  match (d.core x.n).task with
  | none => 0
  | some t =>
    let n := x.n
    match i with
    | 0x00 => v
    | 0x01 => x.h.mask
    | 0x02 => x.slot
    | 0x03 => x.slot % 4
    | 0x04 => t.choirs
    | 0x05 => t.regs
    | 0x06 => n
    | 0x07 => n / 4
    | 0x08 => n / 16
    | 0x09 => n / 64
    | 0x0A => n / 32
    | 0x0B => n / 128
    | 0x0C => t.gang
    | 0x0D => n % t.gang
    | 0x0E => bits t.body 112 16
    | 0x0F => bits t.body 128 16
    | 0x10 => bits t.body 144 16
    | 0x11 => if t.owner = 256 then 0 else t.owner
    | 0x12 => t.graph
    | 0x13 => t.node
    | 0x14 => d.oget O.CHIP_ID % 4096
    | 0x15 => d.time
    | 0x16 => d.tclock n % 2 ^ 64
    | 0x17 => x.h.flags
    | 0x18 => x.h.fpctl
    | _ => b2n (t.tandem ≠ 0)

/-- SR.READ (R138 to R140): the trailing core of a tandem pair receives what the leading core read. -/
def execSrRead (c : ChoirRef) (e : HwErr) (s : State) : Host.Outcome State Fault Refusal :=
  s.nave c e 0xC0 specSrRead fun d x =>
    let sp := specSrRead x.w
    let i := iImm x.w
    if d.trails x.n then
      match d.respPop x.n x.slot with
      | (d, some l) => d.voiceOp sp x fun v => { val := (l.find? fun r => r.1 = v).elim 0 (·.2.1) }
      | (d, none) => d.unissue x
    else
      let d' := d.respPush x.n x.slot (x.actors.map fun v => (v, d.srValue x i v, false))
      let d' := d'.voiceOp sp x fun v => { val := d.srValue x i v }
      if i = 0x16 then d'.tclockRead x.n else d'

/-- SR.WRITE (R137, R138): reserved bits are not kept. -/
def execSrWrite (c : ChoirRef) (e : HwErr) (s : State) : Host.Outcome State Fault Refusal :=
  s.nave c e 0xC1 specSrWrite fun d x =>
    let v := (opA (specSrWrite x.w) x.h x.w 0).1
    (d.onChoir x.n x.slot fun h =>
      if iImm x.w = 0x17 then { h with flags := v % 32 } else { h with fpctl := v % 16 }).advance x

/-! ### Exceptions and trace -/

/-- TRAP uses I[15:0]. -/
def specTrap (_ : Nat) : Spec := { imm := 65535 }

/-- Raise ERR_TRAP with its code. -/
def Dev.trap (d : Dev) (x : Ctx) (mask : Nat) : Dev :=
  d.coreExc x.n ⟨0x27, 0, x.h.pc, x.slot, mask, iImm x.w, 0, []⟩

/-- TRAP: raise ERR_TRAP. -/
def execTrap (c : ChoirRef) (e : HwErr) (s : State) : Host.Outcome State Fault Refusal :=
  s.nave c e 0xD0 specTrap fun d x => d.trap x x.ex

/-- ASSERT uses A, a predicate, and I[15:0]. -/
def specAssert (_ : Nat) : Spec := { a := .pred, imm := 65535 }

/-- ASSERT: raise ERR_TRAP when P[A] is false for any executing voice. -/
def execAssert (c : ChoirRef) (e : HwErr) (s : State) : Host.Outcome State Fault Refusal :=
  s.nave c e 0xD1 specAssert fun d x =>
    let bad := x.ex &&& (x.h.pred (iSa x.w) ^^^ (2 ^ 32 - 1))
    if bad = 0 then d.advance x else d.trap x bad

/-- MARK uses A, a uniform register; its poison is not consumed. -/
def specMark (_ : Nat) : Spec := { a := .uni 1, eatA := false }

/-- MARK: a record to the Clerestory's trace when TRACE_MASK enables it (R148, R967). -/
def execMark (c : ChoirRef) (e : HwErr) (s : State) : Host.Outcome State Fault Refusal :=
  s.nave c e 0xD2 specMark fun d x =>
    let v := (opA (specMark x.w) x.h x.w 0).1
    let t := (d.core x.n).task
    let d := if bit (d.oget O.TRACE_MASK) 0 then
        d.clrForm ⟨2, 0, 64, d.time, [x.h.pc, v + x.n * 2 ^ 32 + x.slot * 2 ^ 40 + (t.map (·.graph)).getD 0 * 2 ^ 48,
          (t.map (·.node)).getD 0 + (t.map (·.owner)).getD 0 * 2 ^ 32]⟩
      else d
    d.advance x

end Sys2Proof.Machine
end

