-- ==== Sys2Proof/Machine/NaveLoad.lean ====
section
/-! DEFINITION. Machine/NaveLoad.lean: the meanings of memory and atomic instructions and FENCE (groups 0x6, 0x7, 0x8). -/

namespace Sys2Proof.Machine

/-! ### The memory modifier (Table 3.6) -/

/-- SIZE in bytes. -/
def mSize (w : Nat) : Nat := 2 ^ bits (iMod w) 0 3
/-- ORDER. -/
def mOrder (w : Nat) : Nat := bits (iMod w) 4 3
/-- SCOPE. -/
def mScope (w : Nat) : Nat := bits (iMod w) 7 3
/-- HINT. -/
def mHint (w : Nat) : Nat := bits (iMod w) 10 2
/-- AOP. -/
def mAop (w : Nat) : Nat := bits (iMod w) 12 4
/-- NORET. -/
def mNoret (w : Nat) : Bool := bit (iMod w) 10

/-- Registers of an access (R128). -/
def sizeParts (w : Nat) : Nat := if mSize w ≤ 4 then 1 else mSize w / 4

/-- MOD bits of a load or store: SIZE, SEXT, ORDER, SCOPE, and HINT on global memory (R125). -/
def memBits (glob : Bool) : Nat := if glob then 0xFFF else 0x3FF

/-- SIZE, SCOPE and the bits that no load or store has are legal (R125, R126). -/
def memOk (w : Nat) (lm store glob : Bool) : Bool :=
  bits (iMod w) 0 3 < 5 && mScope w < 7 && (!lm || mScope w ≤ 3) && (!glob || mHint w < 3) &&
  (!bit (iMod w) 3 || (!store && mSize w ≤ 2)) &&
  (if store then mOrder w = 0 || mOrder w = 2 || mOrder w = 4 else mOrder w = 0 || mOrder w = 1 || mOrder w = 4)

/-- What a load uses: D A I M. -/
def specLoad (glob : Bool) (w : Nat) : Spec :=
  { d := .reg (sizeParts w), a := .reg (if glob then 2 else 1), mod := memBits glob, imm := 2 ^ 32 - 1,
    ok := memOk w (!glob) false glob }

/-- What a store uses: A B I M; store data carries poison (R659). -/
def specStore (glob : Bool) (w : Nat) : Spec :=
  { a := .reg (if glob then 2 else 1), b := .reg (sizeParts w), eatB := false, mod := memBits glob, imm := 2 ^ 32 - 1,
    ok := memOk w (!glob) true glob }

/-- What an atomic uses: D A B C I M; C is read by CAS alone (R130), and the others name it (R29). With NORET, DST and DU are 0
(R125; assumption 71). -/
def specAtom (glob : Bool) (w : Nat) : Spec :=
  let p := sizeParts w
  { d := if mNoret w then .no else .reg p, a := .reg (if glob then 2 else 1), b := .reg p,
    c := if mAop w = 9 then .reg p else .idle p, mod := 0xF7F7, imm := 2 ^ 32 - 1,
    ok := (bits (iMod w) 0 3 = 2 || bits (iMod w) 0 3 = 3) && mScope w < 7 && (glob || mScope w ≤ 3) && mAop w < 11 &&
      mOrder w < 5 }

/-! ### Addresses (R127) -/

/-- A 32-bit LM or cloister address of voice `v`. -/
def lmAddr (s : Spec) (x : Ctx) (v : Nat) : Nat := ((opA s x.h x.w v).1 + iImm x.w) % 2 ^ 32

/-- A 64-bit global address of voice `v`. -/
def globAddr (s : Spec) (x : Ctx) (v : Nat) : Nat := ((opA s x.h x.w v).1 + sext32 64 (iImm x.w)) % 2 ^ 64

/-- Checks of R47 and R127 on the voices' addresses: the failing cause with its voices and first address. -/
def addrCheck (size limit : Nat) (as : List (Nat × Nat)) : Option (Nat × List Nat × Nat) :=
  let mis := as.filter fun e => e.2 % size ≠ 0
  let out := as.filter fun e => limit ≤ e.2
  match mis, out with
  | e :: _, _ => some (0x21, mis.map (·.1), e.2)
  | [], e :: _ => some (0x26, out.map (·.1), e.2)
  | [], [] => none

/-- The core and LM offset a cloister address of core `n` names (R63, R64); the trailing core of a tandem pair uses its own LM
where the leading core does (R683). -/
def Dev.clPlace (d : Dev) (n a : Nat) : Nat × Nat :=
  let t := n / 4 * 4 + a / 2 ^ 19
  (if d.trails n && t = n - 1 then n else t, a % 2 ^ 19)

/-- A core may address the LM of another of its cloister (R65). -/
def Dev.clMay (d : Dev) (n t : Nat) : Bool := t = n || (d.gangOf n).contains t

/-- Passes an access to LMs needs (R49): the largest number of distinct words named in one bank of one core; an access is a core, an
address and a length. -/
def lmPasses (as : List (Nat × Nat × Nat)) : Nat :=
  let words := as.foldl (fun acc e => (rangeFrom (e.2.1 / 8) ((e.2.1 + e.2.2 + 7) / 8 - e.2.1 / 8)).foldl
    (fun acc w => if acc.contains (e.1, w) then acc else acc ++ [(e.1, w)]) acc) []
  let banks := words.map fun w => 64 * w.1 + w.2 % 64
  banks.foldl (fun m b => max m (banks.filter (· = b)).length) 1

/-- Count the passes beyond the first (Table 21.2). -/
def Dev.countPasses (d : Dev) (n : Nat) (as : List (Nat × Nat × Nat)) : Dev := d.count 0 n 3 (lmPasses as - 1)

/-- A loaded value of a size, extended as SEXT says (R128). -/
def extend (w x : Nat) : Nat := extendTo (bit (iMod w) 3) (mSize w) x

/-! ### Own and cloister LM -/

/-- The places that the acting voices' LM addresses name: voice, address, core and offset. -/
def Dev.lmPlaces (d : Dev) (x : Ctx) (cl : Bool) (as : List (Nat × Nat)) : List (Nat × Nat × Nat × Nat) :=
  as.map fun e => (e.1, e.2, if cl then d.clPlace x.n e.2 else (x.n, e.2))

/-- A cloister access that breaks R65: ERR_PERMISSION; a read gives the voices that break it zero with poison, and nothing is written
(R99). -/
def Dev.clDenied (d : Dev) (s : Spec) (x : Ctx) (read : Bool) (bad : List (Nat × Nat × Nat × Nat)) : Dev :=
  let d := if read then d.onChoir x.n x.slot fun h => bad.foldl (fun h p => h.putDst s x.w p.1 0 true) h else d
  d.clExc x (x.blame (bad.map (·.1))) ((bad.headD (0, 0, 0, 0)).2.1)

/-- A load from LM for each acting voice: places and the values they give. -/
def Dev.lmLoad (d : Dev) (s : Spec) (x : Ctx) (cl : Bool) : Dev :=
  let n := mSize x.w
  let as := x.actors.map fun v => (v, lmAddr s x v)
  match addrCheck n (if cl then 0x200000 else lmSize) as with
  | some (c, l, a) => d.insExc x c (x.blame l) a
  | none =>
    let ps := d.lmPlaces x cl as
    let bad := ps.filter fun p => !d.clMay x.n p.2.2.1
    if !bad.isEmpty then d.clDenied s x true bad
    else
      let far := cl && d.trails x.n && ps.any fun p => p.2.2.1 ≠ x.n
      let vals := ps.map fun p => (p.1, (d.core p.2.2.1).lmRead p.2.2.2 n)
      let got := if far then d.respPop x.n x.slot else (d.respPush x.n x.slot (if cl then vals else []), some vals)
      match got with
      | (d, none) => d.unissue x
      | (d, some vals) =>
        let d := (d.countPasses x.n (ps.map fun p => (p.2.2.1, p.2.2.2, n))).orderBefore x.n x.slot (mOrder x.w) (mScope x.w) true
        let d := d.voiceOp s x fun v =>
          let r := (vals.find? fun e => e.1 = v).elim (0, false) (·.2)
          { val := extend x.w r.1, poison := r.2 }
        d.orderAfter x.n (mOrder x.w) (mScope x.w) false

/-- LD.L. -/
def execLdL (c : ChoirRef) (e : HwErr) (s : State) : Host.Outcome State Fault Refusal :=
  s.nave c e 0x60 (specLoad false) fun d x => d.lmLoad (specLoad false x.w) x false

/-- LD.C. -/
def execLdC (c : ChoirRef) (e : HwErr) (s : State) : Host.Outcome State Fault Refusal :=
  s.nave c e 0x62 (specLoad false) fun d x => d.lmLoad (specLoad false x.w) x true

/-- A store to LM for each executing voice, in ascending voice, so that the highest wins (R51); the blocked choirs look at their
conditions once every voice has written (R89). -/
def Dev.lmStore (d : Dev) (s : Spec) (x : Ctx) (cl : Bool) : Dev :=
  let n := mSize x.w
  let as := (voicesOf x.ex).map fun v => (v, lmAddr s x v)
  match addrCheck n (if cl then 0x200000 else lmSize) as with
  | some (c, l, a) => d.insExc x c (maskOf l) a
  | none =>
    let ps := d.lmPlaces x cl as
    let bad := ps.filter fun p => !d.clMay x.n p.2.2.1
    if !bad.isEmpty then d.clDenied s x false bad
    else
      let d := (d.countPasses x.n (ps.map fun p => (p.2.2.1, p.2.2.2, n))).orderBefore x.n x.slot (mOrder x.w) (mScope x.w) false
      let d := ps.foldl (fun d p =>
        let b := opB s x.h x.w p.1
        let d := d.fold x.n (b2n cl) p.2.1 n b.1
        if d.trails x.n && p.2.2.1 ≠ x.n then d
        else d.lmSet p.2.2.1 p.2.2.2 n b.1 b.2 (writerOf x.n x.slot)) d
      (d.wake x.n).advance x

/-- ST.L. -/
def execStL (c : ChoirRef) (e : HwErr) (s : State) : Host.Outcome State Fault Refusal :=
  s.nave c e 0x61 (specStore false) fun d x => d.lmStore (specStore false x.w) x false

/-- ST.C. -/
def execStC (c : ChoirRef) (e : HwErr) (s : State) : Host.Outcome State Fault Refusal :=
  s.nave c e 0x63 (specStore false) fun d x => d.lmStore (specStore false x.w) x true

/-! ### Atomics (R130) -/

/-- The value an atomic writes: operation, size in bytes, old value, B and C. -/
def atomic (op n old b c : Nat) : Nat :=
  let w := 8 * n
  let lt := fun (signed : Bool) (p q : Nat) => if signed then decide (toSigned w p < toSigned w q) else decide (p < q)
  match op with
  | 0 => (old + b) % 2 ^ w
  | 1 => if lt true b old then b else old
  | 2 => if lt true old b then b else old
  | 3 => if lt false b old then b else old
  | 4 => if lt false old b then b else old
  | 5 => old &&& b
  | 6 => old ||| b
  | 7 => old ^^^ b
  | 8 => b
  | 9 => if old = b then c else old
  | _ => (fpAdd (if n = 4 then 5 else 4) 0 false old b).bits

/-- Fold an atomic into the signature: operands B and C and AOP in place of data (R684). -/
def Dev.foldAtomic (d : Dev) (n space a size op b c : Nat) : Dev :=
  d.fold n space (a / 16 * 16) 16 ((b + c * 2 ^ (8 * size) + op * 2 ^ 120) % 2 ^ 128)

/-- Operand B of an atomic: the immediate of an FP64 FADD is an FP32 value widened exactly (R115). -/
def opBA (s : Spec) (x : Ctx) (v : Nat) : Nat := if mAop x.w = 10 && mSize x.w = 8 then opBD s x v else (opB s x.h x.w v).1

/-- Write the old values of an atomic, or raise ERR_POISON under NORET (R303), and go on. -/
def Dev.atomDone (d : Dev) (s : Spec) (x : Ctx) (as : List (Nat × Nat)) (vals : List (Nat × Nat × Bool)) : Dev :=
  let d := d.respPush x.n x.slot vals
  let bad := vals.filter fun e => e.2.2
  if mNoret x.w then
    if bad.isEmpty then (d.advance x).orderAfter x.n (mOrder x.w) (mScope x.w) false
    else d.insExc x 6 (x.blame (bad.map (·.1))) ((as.find? fun e => bad.any fun b => b.1 = e.1).elim 0 (·.2))
  else
    (d.voiceOp s x fun v =>
      let r := (vals.find? fun e => e.1 = v).elim (0, false) (·.2)
      { val := r.1, poison := r.2 }).orderAfter x.n (mOrder x.w) (mScope x.w) false

/-- An atomic on LM: operations take effect one at a time in ascending voice (R51); a poisoned location is left unchanged. -/
def Dev.lmAtom (d : Dev) (s : Spec) (x : Ctx) (cl : Bool) : Dev :=
  let n := mSize x.w
  let as := x.actors.map fun v => (v, lmAddr s x v)
  match addrCheck n (if cl then 0x200000 else lmSize) as with
  | some (c, l, a) => d.insExc x c (x.blame l) a
  | none =>
    let ps := d.lmPlaces x cl as
    let bad := ps.filter fun p => !d.clMay x.n p.2.2.1
    if !bad.isEmpty then d.clDenied s x (!mNoret x.w) bad
    else
      let ops := fun v => (opBA s x v, (opC s x.h x.w v).1)
      let begin' := fun (d : Dev) =>
        let d := (d.countPasses x.n (ps.map fun p => (p.2.2.1, p.2.2.2, n))).orderBefore x.n x.slot (mOrder x.w) (mScope x.w) false
        ps.foldl (fun d p => d.foldAtomic x.n (b2n cl) p.2.1 n (mAop x.w) (ops p.1).1 (ops p.1).2) d
      if d.trails x.n then
        match d.respPop x.n x.slot with
        | (d, none) => d.unissue x
        | (d, some vals) =>
          let d := ps.foldl (fun d p => if p.2.2.1 ≠ x.n then d else
            let old := (d.core x.n).lmRead p.2.2.2 n
            if old.2 then d else d.lmSet x.n p.2.2.2 n (atomic (mAop x.w) n old.1 (ops p.1).1 (ops p.1).2) false (writerOf x.n x.slot)) (begin' d)
          (d.wake x.n).atomDone s x as vals
      else
        let r := ps.foldl (fun (acc : Dev × List (Nat × Nat × Bool)) p =>
          let old := (acc.1.core p.2.2.1).lmRead p.2.2.2 n
          let d := if old.2 then acc.1
            else acc.1.lmSet p.2.2.1 p.2.2.2 n (atomic (mAop x.w) n old.1 (ops p.1).1 (ops p.1).2) false (writerOf x.n x.slot)
          (d, acc.2 ++ [(p.1, old)])) (begin' d, [])
        (r.1.wake x.n).atomDone s x as r.2

/-- ATOM.L. -/
def execAtomL (c : ChoirRef) (e : HwErr) (s : State) : Host.Outcome State Fault Refusal :=
  s.nave c e 0x70 (specAtom false) fun d x => d.lmAtom (specAtom false x.w) x false

/-- ATOM.C. -/
def execAtomC (c : ChoirRef) (e : HwErr) (s : State) : Host.Outcome State Fault Refusal :=
  s.nave c e 0x71 (specAtom false) fun d x => d.lmAtom (specAtom false x.w) x true

/-! ### Global accesses -/

/-- Raise the batch causes of an instruction's failed translations, with their records (R54, R480). -/
def Dev.batchExc (d : Dev) (x : Ctx) (mask : Nat) (recs : List FaultRec) : Dev :=
  match recs with
  | [] => d
  | r :: _ => d.coreExc x.n ⟨r.cause, r.detail, x.h.pc, x.slot, mask, 0, r.va, recs⟩

/-- What the store buffer holds for a voice's bytes (R60, R61): nothing, all of them in one entry, or some in entries of which none
holds them all. -/
inductive Forward where
  | none
  | whole (v : Nat) (poison : Bool)
  | part
  deriving DecidableEq, Repr

/-- The choir's own entries that hold any of `size` bytes at an address. -/
def Core.sbOver (c : Core) (slot : Nat) (host : Bool) (p size : Nat) : List SbEntry :=
  c.sb.filter fun e => e.slot = slot && e.host = host && e.sector = p / 32 && e.mask &&& ((2 ^ size - 1) * 2 ^ (p % 32)) ≠ 0

/-- Look up the bytes of one voice among the choir's own entries: when one holds them all, each byte is its youngest entry's. -/
def Core.sbLook (c : Core) (slot : Nat) (host : Bool) (p size : Nat) : Forward :=
  let need := (2 ^ size - 1) * 2 ^ (p % 32)
  let mine := c.sbOver slot host p size
  if mine.isEmpty then .none
  else if mine.any fun e => e.mask &&& need = need then
    .whole (bits (mine.foldl (fun v e => mergeBytes 32 e.mask e.data v) 0) (8 * (p % 32)) (8 * size)) (mine.any (·.poison))
  else .part

/-- The error that a read of the lines of L1 meets (R356, R357, R359): a corrected one is logged with the line; a clean line is dropped,
to be fetched again, and counted; a dirty line, be it one that the access evicts, or a tag loses the task. `fail` raises the exception
for an address. -/
def Dev.l1Err (d : Dev) (n : Nat) (e : HwErr) (lines : List Nat) (fail : Dev → Nat → Dev) : Dev × Bool :=
  match e with
  | .corrected arr sub row col b =>
    (if (arr = 2 || arr = 3) && !lines.isEmpty then d.coreCorrected n (128 * lines.headD 0) arr sub row col b else d, false)
  | .clean =>
    match ((d.core n).l1Near lines).find? fun l => l.2.dirty = 0 with
    | some l =>
      let d := d.onCore n fun c => { c with l1 := mdel c.l1 l.1 }
      ({ d with l2 := { d.l2 with refetched := d.l2.refetched + 1 } }, false)
    | none => (d, false)
  | .dirty _ =>
    match ((d.core n).l1Near lines).find? fun l => l.2.dirty ≠ 0 with
    | some l => (fail d (128 * l.1), true)
    | none => (d, false)
  | .tag => if lines.isEmpty then (d, false) else (fail d (128 * lines.headD 0), true)
  | _ => (d, false)

/-- ERR_ECC_UNCORRECTED of an instruction. -/
def Ctx.eccFail (x : Ctx) (d : Dev) (a : Nat) : Dev := d.insExc x 5 x.ex a

/-- Host reads of a load's lines: 128 bytes each (R48, R268). Use code 1, argument 64 · core + slot. -/
def Dev.hostLines (d : Dev) (x : Ctx) (lines : List (Nat × Via)) : Dev :=
  lines.foldl (fun d l => d.hostReadReq l.2 (128 * l.1) 128 1 (64 * x.n + x.slot)) d

/-- A load as it begins, with the values it already has; `epoch` counts the invalidations begun before. -/
def Ctx.loadWait (x : Ctx) (epoch : Nat) (vals : List (Nat × Nat × Bool)) : LoadWait :=
  ⟨iDst x.w, mSize x.w, bit (iMod x.w) 3, iDu x.w, x.ex, mScope x.w, mOrder x.w, mHint x.w, [], vals, [], [], [], epoch⟩

/-- LD.G (R48, R54, R60, R61, R128, R275 to R278, R336). -/
def Dev.globLoad (d : Dev) (s : Spec) (x : Ctx) : Dev :=
  let n := mSize x.w
  let as := x.actors.map fun v => (v, globAddr s x v)
  match addrCheck n (2 ^ 64) as, (d.core x.n).task with
  | some (c, l, a), _ => d.insExc x c (x.blame l) a
  | _, none => d
  | none, some t =>
    let begin' := fun (d : Dev) => d.orderBefore x.n x.slot (mOrder x.w) (mScope x.w) true
    if t.tandem = 2 then
      match d.respPop x.n x.slot with
      | (d, none) => d.unissue x
      | (d, some vals) => ((begin' d).advance x).loadStep x.n x.slot (x.loadWait d.tr.epoch vals)
    else
      let (d, rs) := d.transVoices x.n t.owner 0 as
      match sortVoices t x.n 0 rs with
      | .wait => d.unissue x
      | .hostOff l a => d.insExc x 0x30 (x.blame l) a
      | .fault l recs => d.batchExc x (x.blame l) recs
      | .ok =>
        let vs := rs.map fun e => (e.1, e.2.2.phys.1, e.2.2.phys.2, e.2.1)
        let fw := vs.map fun e => (e.1, (d.core x.n).sbLook x.slot e.2.1 e.2.2.1 n)
        if fw.any (fun e => e.2 = .part) then
          (d.onChoir x.n x.slot fun h => { h with wait := .reissue (vs.map fun e => (e.2.1, e.2.2.1, n)) }).oinc O.STORE_REPLAYS
        else
          let fwd := fw.filterMap fun e => match e.2 with | .whole v p => some (e.1, v, p) | _ => none
          let rest := vs.filter fun e => !(fwd.any fun f => f.1 = e.1)
          let dev := rs.filter fun e => rest.any fun r => r.1 = e.1 && !r.2.1
          let lines := (rest.filter fun e => !e.2.1).foldl (fun l e => insertNat (e.2.2.1 / 128) l) []
          let hosts := (rest.filter fun e => e.2.1).foldl (fun l e => insertNat (e.2.2.1 / 128) l) []
          let asks := hosts.filterMap fun l => (rs.find? fun e => e.2.2.phys = (true, e.2.2.phys.2) && e.2.2.phys.2 / 128 = l).map fun e =>
            (l, d.via t.owner (e.2.1 / 128 * 128) e.2.2)
          let reqs := lines.filterMap fun l => dev.findSome? fun e => match e.2.2 with
            | .dev _ w a => if a / 128 = l then some (winReq x.n t.owner w a false 0 0 0) else none
            | _ => none
          let (d, dead) := (begin' d).l1Err x.n x.e lines x.eccFail
          if dead then d
          else
            let (d, l) := (d.advance x).loadAsk x.n x.slot x.h.pc { x.loadWait d.tr.epoch fwd with voices := rest, await := hosts } reqs
            (d.loadStep x.n x.slot l).hostLines x asks

/-- LD.G. -/
def execLdG (c : ChoirRef) (e : HwErr) (s : State) : Host.Outcome State Fault Refusal :=
  s.nave c e 0x64 (specLoad true) fun d x => d.globLoad (specLoad true x.w) x

/-- The sectors an ST.G writes, in ascending physical address, the highest voice winning each byte (R51, R56; assumption 72). -/
def storeSectors (x : Ctx) (scope hint n : Nat) (via : Nat → TRes → Via) (l : List (Nat × Nat × TRes × Nat × Bool)) :
    List (Nat × SbEntry) :=
  l.foldl (fun acc e =>
    let p := e.2.2.1.phys
    let m := (2 ^ n - 1) * 2 ^ (p.2 % 32)
    let v := e.2.2.2.1 % 2 ^ (8 * n) * 2 ^ (8 * (p.2 % 32))
    let (pol, l2p, key) := match e.2.2.1 with
      | .dev _ w _ => (w.policy, w.l2p, w.key)
      | _ => (0, 0, 512)
    let k := 2 * (p.2 / 32) + b2n p.1
    let at' := via (e.2.1 / 32 * 32) e.2.2.1
    let ent := match mget acc k with
      | some (y : SbEntry) => { y with mask := y.mask ||| m, data := mergeBytes 32 m v y.data, poison := y.poison || e.2.2.2.2,
                                       voices := y.voices ||| 2 ^ e.1,
                                       vias := if y.vias.contains at' then y.vias else y.vias ++ [at'] }
      | none => ⟨x.slot, p.1, p.2 / 32, m, v, e.2.2.2.2, scope, pol, l2p, key, hint, x.h.pc, 2 ^ e.1, e.2.1, [at']⟩
    mset acc k ent) []

/-- ST.G (R54, R56 to R58, R276, R279, R281). -/
def Dev.globStore (d : Dev) (s : Spec) (x : Ctx) : Dev :=
  let n := mSize x.w
  let as := (voicesOf x.ex).map fun v => (v, globAddr s x v)
  match addrCheck n (2 ^ 64) as, (d.core x.n).task with
  | some (c, l, a), _ => d.insExc x c (maskOf l) a
  | _, none => d
  | none, some t =>
    let begin' := fun (d : Dev) =>
      (as.foldl (fun d e => d.fold x.n 2 e.2 n (opB s x.h x.w e.1).1) d).orderBefore x.n x.slot (mOrder x.w) (mScope x.w) false
    if t.tandem = 2 then (begin' d).advance x
    else
      let (d, rs) := d.transVoices x.n t.owner 1 as
      match sortVoices t x.n 1 rs with
      | .wait => d.unissue x
      | .hostOff l a => d.insExc x 0x30 (maskOf l) a
      | .fault l recs => d.batchExc x (maskOf l) recs
      | .ok =>
        let d := begin' d
        let es := storeSectors x (mScope x.w) (mHint x.w) n (d.via t.owner) (rs.map fun e => (e.1, e.2.1, e.2.2, opB s x.h x.w e.1))
        let (d, dead) := d.l1Err x.n x.e (if orderReleases (mOrder x.w) false then (d.core x.n).sb.map (·.sector / 4) else []) x.eccFail
        if dead then d
        else
          let sc := mOrder x.w = 4
          let d := (d.advance x).sbStore x.n x.slot (es.map (·.2)) sc
          if !sc then d
          else match ((d.core x.n).choir x.slot).wait with
            | .stores (_ :: _) _ => d
            | _ => d.drainChoir x.n x.slot 4096

/-- ST.G. -/
def execStG (c : ChoirRef) (e : HwErr) (s : State) : Host.Outcome State Fault Refusal :=
  s.nave c e 0x65 (specStore true) fun d x => d.globStore (specStore true x.w) x

/-- One operation of an ATOM.G at the home slice (Table 6.4): old value and poison. -/
def Dev.atomLine (d : Dev) (n : Nat) (owner : Nat) (w : Window) (x size op b c : Nat) : Dev × Nat × Bool :=
  let o := x % 128
  let (d, v, p) := d.l2Access (winReq n owner w x false 0 0 0)
  let old := bits v (8 * o) (8 * size)
  let bad := p &&& sectorsOf ((2 ^ size - 1) * 2 ^ o) ≠ 0
  if bad then (d, old, true)
  else ((d.l2Access (winReq n owner w x true ((2 ^ size - 1) * 2 ^ o) (atomic op size old b c * 2 ^ (8 * o)) 0)).1, old, false)

/-- ATOM.G: the core's own L1 writes back its dirty bytes of the line and invalidates it, the choir's earlier stores to the line
drain first, and the operations execute at the home slice (R269, R286 to R288, R302). -/
def Dev.globAtom (d : Dev) (s : Spec) (x : Ctx) : Dev :=
  let n := mSize x.w
  let as := x.actors.map fun v => (v, globAddr s x v)
  match addrCheck n (2 ^ 64) as, (d.core x.n).task with
  | some (c, l, a), _ => d.insExc x c (x.blame l) a
  | _, none => d
  | none, some t =>
    let ops := fun v => (opBA s x v, (opC s x.h x.w v).1)
    let begin' := fun (d : Dev) =>
      (as.foldl (fun d e => d.foldAtomic x.n 2 e.2 n (mAop x.w) (ops e.1).1 (ops e.1).2) d).orderBefore x.n x.slot (mOrder x.w) (mScope x.w) false
    let hosts := as.filter fun e => match d.windowAt t.owner e.2 with | some (_, w) => w.home = 3 | none => false
    if t.tandem = 2 then
      match d.respPop x.n x.slot with
      | (d, none) => d.unissue x
      | (d, some vals) => (begin' d).atomDone s x as vals
    else if !hosts.isEmpty then (d.insExc x 0x2B (x.blame (hosts.map (·.1))) ((hosts.headD (0, 0)).2)).oinc O.ATOMIC_SPACE_ERRORS
    else
      let (d, rs) := d.transVoices x.n t.owner 2 as
      match sortVoices t x.n 2 rs with
      | .wait => d.unissue x
      | .hostOff l a => d.insExc x 0x30 (x.blame l) a
      | .fault l recs => d.batchExc x (x.blame l) recs
      | .ok =>
        let lines := rs.foldl (fun l e => insertNat (e.2.2.phys.2 / 128) l) []
        let (d, dead) := (begin' d).l1Err x.n x.e lines x.eccFail
        if dead then d
        else
          let d := if (d.core x.n).sb.any (fun e => e.slot = x.slot && !e.host && lines.contains (e.sector / 4))
            then d.drainChoir x.n x.slot 4096 else d
          let d := lines.foldl (fun d l => d.l1Evict x.n l) d
          let bad := rs.filter fun e => d.lost e.2.2.phys.2
          let r := rs.foldl (fun (acc : Dev × List (Nat × Nat × Bool)) e =>
            match e.2.2 with
            | .dev _ w a =>
              let (d, old, p) := acc.1.atomLine x.n t.owner w a n (mAop x.w) (ops e.1).1 (ops e.1).2
              (d, acc.2 ++ [(e.1, old, p)])
            | _ => acc) (d, [])
          if !bad.isEmpty then r.1.insExc x 0x37 (x.blame (bad.map (·.1))) ((bad.headD (0, 0, .wait)).2.1)
          else r.1.atomDone s x as r.2

/-- ATOM.G. -/
def execAtomG (c : ChoirRef) (e : HwErr) (s : State) : Host.Outcome State Fault Refusal :=
  s.nave c e 0x72 (specAtom true) fun d x => d.globAtom (specAtom true x.w) x

/-- LOAD_REISSUE: a load that a partial overlap holds issues again once every entry of the choir that overlaps its bytes has drained (R61);
it is not its stall's issue of R36. -/
def Dev.reissue (d : Dev) (c : ChoirRef) : Dev :=
  match ((d.core c.core).choir c.slot).wait with
  | .reissue bs =>
    if bs.any fun b => !((d.core c.core).sbOver c.slot b.1 b.2.1 b.2.2).isEmpty then d
    else
      let d' := d.onChoir c.core c.slot fun h => { h with wait := .none }
      if !(d'.core c.core).mayIssue (d'.sound c.core) c.slot then d
      else d'.issueNow c .none 0x64 (specLoad true) fun d x => d.globLoad (specLoad true x.w) x
  | _ => d

/-- LOAD_REISSUE. -/
def execLoadReissue (c : ChoirRef) (s : State) : Host.Outcome State Fault Refusal :=
  s.runIf (c.core < 256 && c.slot < 64) fun d => ((d.clockBegin c).reissue c).clockEnd c

/-- STORE_BUFFER_DRAIN: the oldest entry of a stall drains (R59), with what its read of L1 finds. -/
def Dev.drainCmd (d : Dev) (n stall : Nat) (e : HwErr) : Dev :=
  match (d.core n).stallEntries stall with
  | [] => d
  | x :: _ =>
    let (d, dead) := d.l1Err n e (if x.host then [] else [x.sector / 4]) fun d a => d.coreExc n ⟨5, 0, x.pc, x.slot, x.voices, 0, a, []⟩
    if dead then d else d.drainOne n stall

/-- STORE_BUFFER_DRAIN. -/
def execStoreBufferDrain (core : Nat) (x : StallDrain) (s : State) : Host.Outcome State Fault Refusal :=
  s.runIf (core < 256 && x.stall < 4) fun d => d.drainCmd core x.stall x.err

/-! ### CWAIT and FENCE -/

/-- What CWAIT uses: A, B uniform, I, M (R126, R131). -/
def specCwait (w : Nat) : Spec :=
  { a := .uni 1, b := .uni 2, mod := 0x33F7, imm := 2 ^ 32 - 1, ok := bits (iMod w) 0 3 = 3 && mOrder w = 0 && mScope w ≤ 3 }

/-- CWAIT: block until the doubleword satisfies the comparison (R80, R89). -/
def execCwait (c : ChoirRef) (e : HwErr) (s : State) : Host.Outcome State Fault Refusal :=
  s.nave c e 0x66 specCwait fun d x =>
    let s := specCwait x.w
    let a := lmAddr s x 0
    match addrCheck 8 0x200000 [(0, a)] with
    | some (c, _, a) => d.insExc x c x.ex a
    | none =>
      let (t, o) := d.clPlace x.n a
      if !d.clMay x.n t then d.clExc x x.ex a
      else
        let v := (d.core t).lmRead o 8
        let op := bits (iMod x.w) 12 2
        let value := (opB s x.h x.w 0).1
        if v.2 then d.insExc x 6 x.ex a
        else if cwaitHolds op v.1 value then d.advance x
        else
          ((d.advance x).onChoir x.n x.slot fun h => { h with wait := .cwait t o op value x.ex }).onCore t fun c =>
            { c with writers := mdel c.writers (o / 8 * 8) }

/-- What FENCE uses: MOD[9:4] (R126). -/
def specFence (w : Nat) : Spec := { mod := 0x3F0, ok := 1 ≤ mOrder w && mOrder w ≤ 4 && mScope w < 7 }

/-- FENCE (R283). -/
def execFence (c : ChoirRef) (e : HwErr) (s : State) : Host.Outcome State Fault Refusal :=
  s.nave c e 0x80 specFence fun d x =>
    let o := mOrder x.w
    let sc := mScope x.w
    let (d, dead) := (d.wide sc).l1Err x.n x.e (if 3 ≤ sc then (d.core x.n).l1.map (·.1) else []) x.eccFail
    if dead then d
    else
      let d := if 2 ≤ o then d.release x.n x.slot sc else d
      let d := if o ≠ 2 then d.acquire x.n sc else d
      d.advance x

end Sys2Proof.Machine
end

