-- ==== Sys2Proof/Machine/Tensor.lean ====
section
/-! DEFINITION. Machine/Tensor.lean: tensor descriptors: fields, element addresses, footprints, the checks of DESC_CREATE and the
tiles of descriptor-driven access (chapter 9). -/

namespace Sys2Proof.Machine

/-! ### Fields (Table 9.3) -/

/-- FORMAT. -/
def tdFormat (x : Nat) : Nat := bits x 0 4
/-- RANK. -/
def tdRank (x : Nat) : Nat := bits x 8 3
/-- WINDOW. -/
def tdWindow (x : Nat) : Nat := bits x 16 6
/-- LAYOUT. -/
def tdLayout (x : Nat) : Nat := bits x 24 8
/-- L1_ROWS. -/
def tdL1Rows (x : Nat) : Nat := bits x 32 3
/-- L1_COLS. -/
def tdL1Cols (x : Nat) : Nat := bits x 35 3
/-- BASE_VA. -/
def tdBase (x : Nat) : Nat := bits x 64 64
/-- EXTENT_k. -/
def tdExtent (x k : Nat) : Nat := bits x (128 + 32 * k) 32
/-- STRIDE_k. -/
def tdStride (x k : Nat) : Nat := bits x (320 + 40 * k) 40
/-- FILL. -/
def tdFill (x : Nat) : Nat := bits x 544 64
/-- NAME_HASH. -/
def tdHash (x : Nat) : Nat := bits x 608 32
/-- NAME, 48 bytes, byte 0 lowest. -/
def tdName (x : Nat) : Nat := bits x 640 384

/-- Bits of an element. -/
def tdBits (x : Nat) : Nat := fmtWidth (tdFormat x)
/-- Level-0 edge W (R423). -/
def tdEdge (x : Nat) : Nat := 8 * 2 ^ (tdLayout x % 4)
/-- The layout is blocked. -/
def tdBlocked (x : Nat) : Bool := tdLayout x / 16 ≠ 0
/-- LAYOUT is a code of Table 9.4; every other code is reserved (R423). -/
def tdLayoutOk (x : Nat) : Bool := tdLayout x % 16 < 4 && tdLayout x / 16 < 3
/-- The layout is BLOCKED_SKEWED. -/
def tdSkewed (x : Nat) : Bool := tdLayout x / 16 = 2
/-- Level-1 block height in tiles. -/
def tdB1R (x : Nat) : Nat := if tdBlocked x then 2 ^ tdL1Rows x else 1
/-- Level-1 block width in tiles. -/
def tdB1C (x : Nat) : Nat := if tdBlocked x then 2 ^ tdL1Cols x else 1
/-- Tile size Tb in bytes. -/
def tdTileBytes (x : Nat) : Nat := tdEdge x * tdEdge x * tdBits x / 8
/-- Block size Bb in bytes. -/
def tdBlockBytes (x : Nat) : Nat := tdB1R x * tdB1C x * tdTileBytes x
/-- Row extent; 1 for rank 1. -/
def tdRows (x : Nat) : Nat := if tdRank x < 2 then 1 else tdExtent x (tdRank x - 2)
/-- Column extent. -/
def tdCols (x : Nat) : Nat := tdExtent x (tdRank x - 1)
/-- Padded row extent P_R (R426). -/
def tdPadRows (x : Nat) : Nat :=
  if tdRank x < 2 then 1 else let u := tdEdge x * tdB1R x; cdiv (tdRows x) u * u
/-- Padded column extent P_C. -/
def tdPadCols (x : Nat) : Nat := let u := tdEdge x * tdB1C x; cdiv (tdCols x) u * u
/-- S_(RANK−2); 0 for rank 1. -/
def tdPitch (x : Nat) : Nat := if tdRank x < 2 then 0 else tdStride x (tdRank x - 2)
/-- Leading dimensions. -/
def tdLeads (x : Nat) : List Nat := rangeFrom 0 (tdRank x - 2)

/-- Offset of a leading index, row-major over the leading dimensions. -/
def tdLead (x i : Nat) : Nat :=
  ((tdLeads x).reverse.foldl (fun (acc : Nat × Nat) k =>
    (acc.1 + acc.2 % tdExtent x k * tdStride x k, acc.2 / tdExtent x k)) (0, i)).1

/-- Leading indices of the tensor. -/
def tdLeadCount (x : Nat) : Nat := (tdLeads x).foldl (fun a k => a * tdExtent x k) 1

/-- The bit address of the element at row `r` and column `c` under a leading offset (Table 9.5, R425). -/
def tdElem (x lead r c : Nat) : Nat :=
  let wb := tdBits x
  if !tdBlocked x then 8 * (tdBase x + lead + r * tdPitch x) + c * wb
  else
    let w := tdEdge x
    let tr := r / w
    let rr := r % w
    let tc := c / w
    let cc := if tdSkewed x then (c % w + rr) % w else c % w
    let t := tr % tdB1R x * tdB1C x + tc % tdB1C x
    8 * (tdBase x + lead + tr / tdB1R x * tdPitch x + tc / tdB1C x * tdBlockBytes x + t * tdTileBytes x) + (rr * w + cc) * wb

/-- End of the footprint (R427). -/
def tdEnd (x : Nat) : Nat :=
  let lead := (tdLeads x).foldl (fun a k => a + (tdExtent x k - 1) * tdStride x k) 0
  if !tdBlocked x then tdBase x + lead + (tdPadRows x - 1) * tdPitch x + cdiv (tdPadCols x * tdBits x) 8
  else
    tdBase x + lead + (tdPadRows x / (tdEdge x * tdB1R x) - 1) * tdPitch x + tdPadCols x / (tdEdge x * tdB1C x) * tdBlockBytes x

/-- The hash of a name (R431). -/
def nameHash (bs : List Byte) : Nat := bs.foldl (fun h b => (h ^^^ b.toNat) * 0x01000193 % 2 ^ 32) 0x811C9DC5

/-- The bytes of a 48-byte name before its first zero. -/
def nameBytes (n : Nat) : List Byte := (leBytes 48 n).takeWhile (· ≠ 0)

/-- NAME and NAME_HASH obey R431. -/
def tdNameOk (x : Nat) : Bool :=
  let l := nameBytes (tdName x)
  (tdName x / 2 ^ (8 * l.length) = 0) && l.all (fun b => 0x20 ≤ b.toNat && b.toNat ≤ 0x7E) &&
  tdHash x = (if l.isEmpty then 0 else nameHash l)

/-- Smallest legal stride of dimension `k` (Table 9.7). -/
def tdMinStride (x k : Nat) : Nat :=
  let r := tdRank x
  if k + 2 = r then
    if tdBlocked x then tdPadCols x / (tdEdge x * tdB1C x) * tdBlockBytes x else cdiv (tdCols x * tdBits x) 8
  else if k + 3 = r then
    if tdBlocked x then tdPadRows x / (tdEdge x * tdB1R x) * tdPitch x else tdExtent x (k + 1) * tdStride x (k + 1)
  else tdExtent x (k + 1) * tdStride x (k + 1)

/-- The first failing check of Table 9.6 from RESERVED on, for a table of `owner`; none when the image is legal. -/
def Dev.descCheck (d : Dev) (owner x : Nat) : Option Nat :=
  let r := tdRank x
  let dims := rangeFrom 0 r
  let strided := rangeFrom 0 (r - 1)
  if bits x 4 4 ≠ 0 || bits x 11 5 ≠ 0 || bits x 22 2 ≠ 0 || bits x 38 26 ≠ 0 || bits x 116 12 ≠ 0 || bits x 520 24 ≠ 0 then some 4
  else if 12 ≤ tdFormat x then some 5
  else if r = 0 || r = 7 || (r = 1 && tdLayoutOk x && tdBlocked x) then some 6
  else if dims.any (fun k => tdExtent x k = 0) || (rangeFrom r (6 - r)).any (fun k => tdExtent x k ≠ 0) ||
      (rangeFrom (r - 1) (6 - r)).any (fun k => tdStride x k ≠ 0) || (tdFormat x = 10 && tdCols x % 2 = 1) then some 7
  else if !tdLayoutOk x || (!tdBlocked x && (tdL1Rows x ≠ 0 || tdL1Cols x ≠ 0)) ||
      (tdBlocked x && (tdL1Rows x = 0 || 4 < tdL1Rows x || tdL1Cols x = 0 || 4 < tdL1Cols x)) ||
      (tdSkewed x && tdFormat x = 10) then some 8
  else
    let al := if tdBlocked x then 128 else 32
    if tdBase x % al ≠ 0 || strided.any (fun k => tdStride x k % al ≠ 0) then some 9
    else if strided.any (fun k => tdStride x k < tdMinStride x k) then some 10
    else
      match d.window owner (tdWindow x) with
      | none => some 11
      | some w =>
        if 2 ^ 52 < tdEnd x || tdBase x < w.base || w.base + w.size < tdEnd x then some 12
        else if tdFill x / 2 ^ tdBits x ≠ 0 then some 13
        else if !tdNameOk x then some 14 else none

/-! ### Tiles (R434 to R438) -/

/-- Rows and columns of the tile grid (R437). -/
def tdGrid (x : Nat) : Nat × Nat := (tdPadRows x / tdEdge x, tdPadCols x / tdEdge x)

/-- The bit address of each element of a tile in logical row-major order; none beyond the extents. -/
def tdTile (x tr tc lead : Nat) : List (Option Nat) :=
  let w := tdEdge x
  let lo := tdLead x lead
  (rangeFrom 0 w).flatMap fun rr => (rangeFrom 0 w).map fun cc =>
    let r := tr * w + rr
    let c := tc * w + cc
    if tdRows x ≤ r || tdCols x ≤ c then none else some (tdElem x lo r c)

/-- A tile box lies inside the tile grid of a tensor of rank 2 or above (R437). -/
def tdBoxOk (x tr tc nr nc lead : Nat) : Bool :=
  2 ≤ tdRank x && tr + nr ≤ (tdGrid x).1 && tc + nc ≤ (tdGrid x).2 && lead < tdLeadCount x

/-- One 128-byte line by virtual line number: data and poison per sector. -/
abbrev VLine := Nat × Nat × Nat

/-- A piece of data that moves: up to 32 bytes as a value, with its poison. -/
abbrev Chunk := Nat × Bool

/-- The data of a virtual line. -/
def lineOf (ls : List VLine) (l : Nat) : Nat × Nat := ((ls.find? fun e => e.1 = l).map (·.2)).getD (0, 0)

/-- The 32-byte pieces of a tile read from its lines, with FILL beyond the extents. -/
def tileChunks (x : Nat) (els : List (Option Nat)) (ls : List VLine) : List Chunk :=
  let wb := tdBits x
  let n := 256 / wb
  (rangeFrom 0 (els.length / n)).map fun i =>
    ((rangeFrom 0 n).zip ((els.drop (n * i)).take n)).foldl (fun (acc : Chunk) e =>
      match e.2 with
      | none => (acc.1 + tdFill x * 2 ^ (wb * e.1), acc.2)
      | some b =>
        let l := lineOf ls (b / 1024)
        (acc.1 + bits l.1 (b % 1024) wb * 2 ^ (wb * e.1), acc.2 || bit l.2 (b % 1024 / 256))) (0, false)

/-- The lines that a set of bit addresses touches, ascending. -/
def linesOf (els : List (Option Nat)) : List Nat :=
  els.foldl (fun l e => match e with
    | none => l
    | some b => if l.contains (b / 1024) then l else b / 1024 :: l) [] |> sortBy (fun a b => decide (a ≤ b))

/-- A write of part of a virtual line: line, byte mask, data, poison per sector. -/
abbrev VWrite := Nat × Nat × Nat × Nat

/-- Merge one element into the writes of a list. -/
def addWrite (l : List VWrite) (b wb v : Nat) (poison : Bool) : List VWrite :=
  let o := b % 1024
  let m := (2 ^ cdiv wb 8 - 1) * 2 ^ (o / 8)
  let p := if poison then 2 ^ (o / 256) else 0
  match l.find? fun e => e.1 = b / 1024 with
  | some e => l.map fun x => if x.1 = b / 1024 then (x.1, e.2.1 ||| m, e.2.2.1 ||| (v % 2 ^ wb * 2 ^ o), e.2.2.2 ||| p) else x
  | none => l ++ [(b / 1024, m, v % 2 ^ wb * 2 ^ o, p)]

/-- The writes of a tile's elements within the extents. -/
def tileWrites (x : Nat) (els : List (Option Nat)) (cs : List Chunk) : List VWrite :=
  let wb := tdBits x
  let n := 256 / wb
  sortBy (fun a b => decide (a.1 ≤ b.1)) (els.zipIdx.foldl (fun l e => match e.1 with
    | none => l
    | some b =>
      let c := (cs[e.2 / n]?).getD (0, false)
      addWrite l b wb (bits c.1 (wb * (e.2 % n)) wb) c.2) [])

/-- The lines of a byte range. -/
def rangeLines (a len : Nat) : List Nat := rangeFrom (a / 128) ((a + len + 127) / 128 - a / 128)

/-- The 32-byte pieces of a byte range whose start and length are multiples of 32. -/
def rangeChunks (a len : Nat) (ls : List VLine) : List Chunk :=
  (rangeFrom 0 (len / 32)).map fun i =>
    let x := a + 32 * i
    let l := lineOf ls (x / 128)
    (bits l.1 (8 * (x % 128)) 256, bit l.2 (x % 128 / 32))

/-- The writes of a byte range in 32-byte pieces. -/
def rangeWrites (a : Nat) (cs : List Chunk) : List VWrite :=
  (cs.zipIdx.foldl (fun l e => addWrite l (8 * (a + 32 * e.2)) 256 e.1.1 e.1.2) [])

end Sys2Proof.Machine
end

