-- ==== Sys2Proof/Machine/NaveSync.lean ====
section
/-! DEFINITION. Machine/NaveSync.lean: the meanings of async copy and arrival (group 0x9) and barriers (group 0xA). -/

namespace Sys2Proof.Machine

/-! ### ACOPY (R70, R132 to R134) -/

/-- A length that ACOPY takes (R133). -/
def acopyLength (len : Nat) : Bool := len % 32 = 0 && 32 ≤ len && len ≤ 65536

/-- What ACOPY uses: A B I I2 and the direction in MOD[13:12]; another length is illegal (R132, R133). -/
def specAcopy (w : Nat) : Spec :=
  let dir := bits (iMod w) 12 2
  { a := .reg (if dir = 0 then 2 else 1), b := .reg (if dir = 1 then 2 else 1), mod := 0x3000, imm := 2 ^ 32 - 1, imm2 := 0xBF,
    ok := dir < 3 && acopyLength (iImm w) }

/-- The two addresses of a copy are legal in their spaces: the cause and the address that is not. -/
def acopyCheck (dir len a b : Nat) : Option (Nat × Nat) :=
  if a % 32 ≠ 0 then some (0x21, a)
  else if b % 32 ≠ 0 then some (0x21, b)
  else if dir ≠ 0 && lmSize < a + len then some (0x26, a)
  else if dir = 0 && lmSize < b + len then some (0x26, b)
  else if dir = 2 && (0x200000 ≤ b || lmSize < b % lmSize + len) then some (0x26, b)
  else none

/-- Pieces of `len` bytes from `a` in one 4 KiB page each. -/
def copyPieces (a len : Nat) : List (Nat × Nat) := pagePieces (len / 4096 + 2) a len

/-- Translate every page of every voice's global range (R54, R133). -/
def Dev.acopyTrans (d : Dev) (n owner access len : Nat) (l : List (Nat × Nat)) : Dev × List (Nat × Nat × TRes) :=
  d.transVoices (larkEng n) owner access (l.flatMap fun e => (copyPieces e.2 len).map fun p => (e.1, p.1))

/-- A store-buffer entry of the choir lies within translated ranges (R134). -/
def sbOverlaps (l : List SbEntry) (slot : Nat) (rs : List (Nat × Nat × TRes)) : Bool :=
  l.any fun e => e.slot = slot && rs.any fun r => let p := r.2.2.phys; p.1 = e.host && p.2 / 4096 = 32 * e.sector / 4096

/-- ACOPY: one copy for each executing voice enters the Lark's queue. -/
def execAcopy (c : ChoirRef) (e : HwErr) (s : State) : Host.Outcome State Fault Refusal :=
  s.nave c e 0x90 specAcopy fun d x =>
    let sp := specAcopy x.w
    let dir := bits (iMod x.w) 12 2
    let len := iImm x.w
    let vs := (voicesOf x.ex).map fun v => (v, (opA sp x.h x.w v).1, (opB sp x.h x.w v).1)
    let bad := vs.filterMap fun v => (acopyCheck dir len v.2.1 v.2.2).map fun r => (v.1, r.1, r.2)
    let worst := if bad.any (fun b => b.2.1 = 0x21) then 0x21 else 0x26
    let bad := bad.filter fun b => b.2.1 = worst
    let far := if dir = 2 then vs.filter fun v => !d.clMay x.n (d.clPlace x.n v.2.2).1 else []
    if !bad.isEmpty then d.insExc x worst (maskOf (bad.map (·.1))) ((bad.headD (0, 0, 0)).2.2)
    else if !far.isEmpty then d.clExc x (maskOf (far.map (·.1))) ((far.headD (0, 0, 0)).2.2)
    else
      match (d.core x.n).task with
      | none => d
      | some t =>
        let acc := if dir = 1 then 1 else 0
        let glob := if dir = 2 || t.tandem = 2 then [] else vs.map fun v => (v.1, if dir = 0 then v.2.1 else v.2.2)
        let (d, rs) := d.acopyTrans x.n t.owner acc len glob
        match sortVoices t (larkEng x.n) acc rs with
        | .wait => d.unissue x
        | .hostOff l a => d.insExc x 0x30 (maskOf l) a
        | .fault l recs => d.batchExc x (maskOf l) recs
        | .ok =>
          let d := if dir = 0 && sbOverlaps (d.core x.n).sb x.slot rs then d.drainChoir x.n x.slot 4096 else d
          let act := if bit (iImm2 x.w) 7 then iImm2 x.w % 64 else 64
          let d := d.onCore x.n fun c =>
            vs.foldl (fun c v =>
              let id := c.acopies.foldl (fun m a => max m (a.id + 1)) 0
              { c with acopies := c.acopies ++ [⟨id, dir, v.2.1, v.2.2, len, act, x.slot, v.1, x.h.pc, false, [], [], []⟩] }) c
          d.advance x

/-- The Lark of core `n` reads `k` bytes of one line at a DPA: the core's own L1 first writes back its dirty bytes (R277). -/
def Dev.larkLine (d : Dev) (n owner : Nat) (w : Window) (x k : Nat) : Dev × List Chunk :=
  let d := d.l1WriteBack n (x / 128)
  let (d, v, p) := d.l2Access (winReq n owner w x false 0 0 0)
  (d, (rangeFrom 0 (k / 32)).map fun i => let o := x % 128 + 32 * i; (bits v (8 * o) 256, bit p (o / 32)))

/-- The Lark reads a translated range of device memory, in 32-byte pieces; whether a channel group was unreachable. -/
def Dev.larkRead (d : Dev) (n owner : Nat) (w : Window) (x k : Nat) : Dev × List Chunk × Bool :=
  (linePieces (k / 128 + 2) x k).foldl (fun acc p =>
    let bad := acc.1.lost p.1
    let (d, l) := acc.1.larkLine n owner w p.1 p.2
    (d, acc.2.1 ++ l, acc.2.2 || bad)) (d, [], false)

/-- Bytes and poison bits of 32-byte pieces as they stand in a line from byte `o`. -/
def chunksLine (o : Nat) (l : List Chunk) : Nat × Nat :=
  l.zipIdx.foldl (fun a e => (a.1 + e.1.1 * 2 ^ (8 * (o + 32 * e.2)), a.2 + b2n e.1.2 * 2 ^ (o / 32 + e.2))) (0, 0)

/-- The Lark writes 32-byte pieces at a DPA, a line at a time: to the home slice, the core's own L1 copy invalidated (R277, R330). -/
def Dev.larkWrite (d : Dev) (n owner : Nat) (w : Window) (x : Nat) (l : List Chunk) : Dev :=
  (linePieces (l.length / 4 + 2) x (32 * l.length)).foldl (fun d p =>
    let o := p.1 % 128
    let v := chunksLine o ((l.drop ((p.1 - x) / 32)).take (p.2 / 32))
    ((d.l1Evict n (p.1 / 128)).l2Access (winReq n owner w p.1 true ((2 ^ p.2 - 1) * 2 ^ o) v.1 v.2)).1) d

/-- The 32-byte pieces of an LM range. -/
def Core.lmChunks (c : Core) (a len : Nat) : List Chunk := (rangeFrom 0 (len / 32)).map fun i => c.lmRead (a + 32 * i) 32

/-- Write 32-byte pieces to LM of a core and fold them into the signature of core `n` under `space` at address `sa`. -/
def Dev.lmChunksPut (d : Dev) (n core a space sa : Nat) (send : Bool) (l : List Chunk) : Dev :=
  ((rangeFrom 0 l.length).zip l).foldl (fun d e =>
    let d := d.fold n space (sa + 32 * e.1) 32 e.2.1
    if send then d.lmPut core (a + 32 * e.1) (leBytes 32 e.2.1) e.2.2 else d) d

/-- The requests to the host that read a range in pieces of `size` bytes: address and length. -/
def hostPieces (size : Nat) : Nat → Nat → Nat → List (Nat × Nat)
  | 0, _, _ => []
  | f + 1, a, len =>
    if len = 0 then []
    else
      let k := min len (size - a % size)
      (a, k) :: hostPieces size f (a + k) (len - k)

/-- Requests of the Lark of core `n` that the host has not answered; at most 256 are in flight (Table 8.1). -/
def Dev.larkFlight (d : Dev) (n : Nat) : Nat :=
  (d.host.reads.filter fun r => !r.abandoned && ((r.use = 2 && r.arg / 4096 = n) || (r.use = 3 && r.arg % 256 = n))).length

/-- Largest request of a Lark to the host (R526). -/
def Dev.larkRequest (d : Dev) : Nat := min 256 d.host.mrrs

/-- 32-byte pieces of bytes that came from the host. -/
def chunksOf (bs : List Byte) (poison : Bool) : List Chunk :=
  (rangeFrom 0 (bs.length / 32)).map fun i => (leNat ((bs.drop (32 * i)).take 32), poison)

/-- An exception of the copy's ACOPY, for the voice that it copies for; it is the Lark's (R406). -/
def Dev.acopyExc (d : Dev) (n : Nat) (a : Acopy) (cause detail addr : Nat) (recs : List FaultRec) : Dev :=
  d.coreExcAt n 4 ⟨cause, detail, a.pc, a.slot, 2 ^ a.voice, 0, addr, recs⟩

/-- A copy has ended: its counter is credited (R70, R75). -/
def Dev.acopyEnd (d : Dev) (n : Nat) (a : Acopy) : Dev :=
  let d := d.onCore n fun c => { c with acopies := c.acopies.filter fun x => x.id ≠ a.id, quietFor := 0 }
  if a.act = 64 then d
  else d.actUpdate ⟨n, a.act, 0, .landed a.len, n, ⟨0x22, 0, a.pc, a.slot, 2 ^ a.voice, 0, a.act, []⟩⟩

/-- Stop the task for a copy's access. -/
def Dev.acopyFail (d : Dev) (n : Nat) (t : TaskRun) (a : Acopy) (access va : Nat) (f : TFail) : Dev :=
  d.acopyExc n a f.cause f.detail va (if f.cause = 0x30 then [] else batchRecs [faultRec t (larkEng n) access va f])

/-- Replace a copy of core `n`. -/
def Dev.setCopy (d : Dev) (n : Nat) (a : Acopy) : Dev :=
  d.onCore n fun c => { c with acopies := mapIf (fun y => y.id = a.id) (fun _ => a) c.acopies }

/-- A copy sends the requests it has left to the host while the Lark may have more in flight. -/
def Dev.acopyAsk (d : Dev) (n : Nat) (a : Acopy) : List (Via × Nat × Nat) → Dev
  | [] => d.setCopy n { a with todo := [] }
  | p :: ps =>
    if 256 ≤ d.larkFlight n then d.setCopy n { a with todo := p :: ps }
    else Dev.acopyAsk (d.hostReadReq p.1 p.2.1 p.2.2 2 (4096 * n + a.id)) n a ps

/-- Data of a copy from global memory lands in LM. -/
def Dev.acopyLand (d : Dev) (n : Nat) (a : Acopy) (l : List Chunk) : Dev :=
  let d := d.respPush n (4096 + a.id) (((rangeFrom 0 l.length).zip l).map fun e => (e.1, e.2.1, e.2.2))
  (d.lmChunksPut n n a.dst 0 a.dst true l).acopyEnd n a

/-- A copy from global memory (direction 0). -/
def Dev.acopyIn (d : Dev) (n : Nat) (t : TaskRun) (a : Acopy) : Dev :=
  if t.tandem = 2 then
    match d.respPop n (4096 + a.id) with
    | (d, some l) => d.acopyLand n a (l.map fun e => (e.2.1, e.2.2))
    | (d, none) => d
  else if a.requested then
    if a.await.all fun x => a.got.any fun g => g.1 = x then
      d.acopyLand n a (a.await.flatMap fun x => (a.got.find? fun g => g.1 = x).elim [] fun g => chunksOf g.2.1 g.2.2)
    else d
  else
    match d.translateAll (larkEng n) t.owner 0 (copyPieces a.src a.len) with
    | (d, .inr (.fail f)) => d.acopyFail n t a 0 a.src f
    | (d, .inr _) => d
    | (d, .inl ps) =>
      if ps.any fun p => p.1.isHost then
        let todo := ps.flatMap fun p => (hostPieces d.larkRequest (p.2.2 / 32 + 1) p.1.phys.2 p.2.2).map fun r =>
          ((d.via t.owner p.2.1 p.1).plus (r.1 - p.1.phys.2), r)
        d.acopyAsk n { a with requested := true, await := todo.map (·.2.1) } todo
      else
        let r := ps.foldl (fun (acc : Dev × List Chunk × Bool) p =>
          match p.1 with
          | .dev _ w x =>
            let (d, l, bad) := acc.1.larkRead n t.owner w x p.2.2
            (d, acc.2.1 ++ l, acc.2.2 || bad)
          | _ => acc) (d, [], false)
        if r.2.2 then r.1.acopyExc n a 0x37 0 a.src [] else r.1.acopyLand n a r.2.1

/-- A copy to global memory (direction 1); the trailing core of a tandem pair sends nothing. -/
def Dev.acopyOut (d : Dev) (n : Nat) (t : TaskRun) (a : Acopy) : Dev :=
  let l := (d.core n).lmChunks a.src a.len
  let folded := fun (d : Dev) => ((rangeFrom 0 l.length).zip l).foldl (fun d e => d.fold n 2 (a.dst + 32 * e.1) 32 e.2.1) d
  if t.tandem = 2 then (folded d).acopyEnd n a
  else
    match d.translateAll (larkEng n) t.owner 1 (copyPieces a.dst a.len) with
    | (d, .inr (.fail f)) => d.acopyFail n t a 1 a.dst f
    | (d, .inr _) => d
    | (d, .inl ps) =>
      let bad := ps.any fun p => !p.1.isHost && d.lost p.1.phys.2
      let d := ps.foldl (fun d p =>
        let mine := (l.drop ((p.2.1 - a.dst) / 32)).take (p.2.2 / 32)
        match p.1 with
        | .dev _ w x => d.larkWrite n t.owner w x mine
        | r => ((rangeFrom 0 mine.length).zip mine).foldl (fun d e =>
            d.postWrite ((d.via t.owner p.2.1 r).plus (32 * e.1)) (r.phys.2 + 32 * e.1) (leBytes 32 e.2.1) e.2.2) d) (folded d)
      if bad then d.acopyExc n a 0x37 0 a.dst [] else d.acopyEnd n a

/-- ACOPY_COMPLETION: the Lark carries out the copy `idx` of its queue, or takes the data it asked the host for (R70). -/
def Dev.acopyRun (d : Dev) (n idx : Nat) : Dev :=
  let c := d.core n
  match c.task, c.acopies[idx]? with
  | some t, some a =>
    if c.exc.isSome then d
    else
      match a.dir with
      | 0 => d.acopyIn n t a
      | 1 => d.acopyOut n t a
      | _ =>
        let (m, o) := d.clPlace n a.dst
        (d.lmChunksPut n m o (if m = n then 0 else 1) a.dst (!(d.trails n && m ≠ n)) (c.lmChunks a.src a.len)).acopyEnd n a
  | _, _ => d

/-- ACOPY_COMPLETION. -/
def execAcopyCompletion (core idx : Nat) (s : State) : Host.Outcome State Fault Refusal :=
  s.runIf (core < 256) fun d => d.acopyRun core idx

/-- Bytes a host read of a copy asked for arrive (use code 2); the copies go on asking. -/
def Dev.acopyData (d : Dev) (n id addr : Nat) (bs : List Byte) (poison : Bool) : Dev :=
  let d := d.onCore n fun c => { c with acopies := c.acopies.map fun (a : Acopy) =>
    if a.id = id && a.requested then { a with got := a.got ++ [(addr, bs, poison)] } else a }
  if (d.core n).task.isNone then d
  else (d.core n).acopies.foldl (fun d a => if a.todo.isEmpty then d else d.acopyAsk n a a.todo) d

/-! ### Arrival counters -/

/-- The counter an instruction names. -/
def iAct (w : Nat) : Nat := iImm2 w % 64

/-- An instruction updates a counter of core `m` (R73, R75): at once, or at the end of a core clock that is still open. It is a release
at core scope for device and host memory (R289). -/
def Dev.arriveAt (d : Dev) (x : Ctx) (m rank : Nat) (op : ActOp) : Dev :=
  let i := iAct x.w
  let e : Exc := ⟨0x22, 0, x.h.pc, x.slot, x.ex, 0, 0, []⟩
  if d.clocked x.n then (d.actUpdate ⟨m, i, rank, op, x.n, e⟩).advance x
  else
    match op.run ((d.core m).act i) with
    | some a => (d.setAct m i a).advance x
    | none => d.coreExc x.n e

/-- ACT_INIT (R68, R88). -/
def execActInit (c : ChoirRef) (e : HwErr) (s : State) : Host.Outcome State Fault Refusal :=
  s.nave c e 0x91 (fun _ => { imm := 0xFFFF, imm2 := 0x3F }) fun d x => d.arriveAt x x.n (1 + x.slot % 4) (.init (iImm x.w))

/-- An arrival of a choir at a counter of its own core (R69, R135), a release at core scope for device and host memory (R289). -/
def Dev.arriveOwn (d : Dev) (x : Ctx) (b : Nat) : Dev :=
  (d.release x.n x.slot 2).arriveAt x x.n (1 + x.slot % 4) (.arrive b (2 ^ x.slot) 0)

/-- ARRIVE. -/
def execArrive (c : ChoirRef) (e : HwErr) (s : State) : Host.Outcome State Fault Refusal :=
  s.nave c e 0x92 (fun _ => { imm2 := 0x3F }) fun d x => d.arriveOwn x 0

/-- ARRIVE.EXPECT. -/
def execArriveExpect (c : ChoirRef) (e : HwErr) (s : State) : Host.Outcome State Fault Refusal :=
  s.nave c e 0x93 (fun _ => { imm := 0xFFFFFF, imm2 := 0x3F }) fun d x => d.arriveOwn x (iImm x.w)

/-- ACT_WAIT (R72): B is a uniform register or IMM. -/
def specActWait (_ : Nat) : Spec := { b := .uniImm, imm2 := 0x3F }

/-- ACT_WAIT; in a core clock that is still open its condition is looked at when the clock ends (R73). -/
def execActWait (c : ChoirRef) (e : HwErr) (s : State) : Host.Outcome State Fault Refusal :=
  s.nave c e 0x94 specActWait fun d x =>
    let i := iAct x.w
    let p := (opB (specActWait x.w) x.h x.w 0).1 % 2
    let d := d.advance x
    if !d.clocked x.n && ((d.core x.n).act i).phase ≠ p then d
    else d.onChoir x.n x.slot fun h => { h with wait := .act i p }

/-- ARRIVE.C: an arrival at a counter of a core of the cloister, a release at core scope for device and host memory (R289); the
trailing core of a tandem pair sends none out of the pair (R65, R683). -/
def execArriveC (c : ChoirRef) (e : HwErr) (s : State) : Host.Outcome State Fault Refusal :=
  s.nave c e 0x95 (fun _ => { imm2 := 0x33F }) fun d x =>
    let (m, _) := d.clPlace x.n (bits (iImm2 x.w) 8 2 * 2 ^ 19)
    if !d.clMay x.n m then d.clExc x x.ex (bits (iImm2 x.w) 8 2 * 2 ^ 19)
    else if m = x.n then d.arriveOwn x 0
    else if d.trails x.n then d.advance x
    else (d.release x.n x.slot 2).arriveAt x m (8 + x.n % 4) (.arrive 0 0 (2 ^ (x.n % 4)))

/-- What ACT_READ uses: D, a uniform pair, and I2. -/
def specActRead (_ : Nat) : Spec := { d := .uni 2, imm2 := 0x3F }

/-- ACT_READ: the state word of a counter (Table 2.5). -/
def execActRead (c : ChoirRef) (e : HwErr) (s : State) : Host.Outcome State Fault Refusal :=
  s.nave c e 0x96 specActRead fun d x =>
    d.voiceOp (specActRead x.w) x fun _ => { val := ((d.core x.n).act (iAct x.w)).word }

/-! ### Barriers -/

/-- A barrier arrival with its checks (R77, R78); the arrival is a release at core scope for device and host memory (R289). -/
def Dev.barOp (d : Dev) (x : Ctx) (block : Bool) : Dev :=
  let i := iImm x.w % 16
  let k := bits (iImm x.w) 8 7
  if !(d.core x.n).barLegal i k then d.insExc x 0x23 x.ex 0
  else
    let d := (d.release x.n x.slot 2).advance x
    let d := if block then d.onChoir x.n x.slot fun h => { h with wait := .bar i } else d
    d.onCore x.n fun c => c.barArrive x.slot i k

/-- BAR.SYNC. -/
def execBarSync (c : ChoirRef) (e : HwErr) (s : State) : Host.Outcome State Fault Refusal :=
  s.nave c e 0xA0 (fun _ => { imm := 0x7F0F }) fun d x => d.barOp x true

/-- BAR.ARRIVE. -/
def execBarArrive (c : ChoirRef) (e : HwErr) (s : State) : Host.Outcome State Fault Refusal :=
  s.nave c e 0xA1 (fun _ => { imm := 0x7F0F }) fun d x => d.barOp x false

/-- GBAR (R79): a release at core scope for device and host memory (R289). -/
def execGbar (c : ChoirRef) (e : HwErr) (s : State) : Host.Outcome State Fault Refusal :=
  s.nave c e 0xA2 specNone fun d x =>
    let d := ((d.release x.n x.slot 2).advance x).onChoir x.n x.slot fun h => { h with wait := .gbar }
    (d.onCore x.n fun c => { c with gbar := if c.gbar.contains x.slot then c.gbar else x.slot :: c.gbar }).gbarCheck x.n

end Sys2Proof.Machine
end

