-- ==== Sys2Proof/Machine/Matrix.lean ====
section
/-! DEFINITION. Machine/Matrix.lean: the matrix unit (chapter 4): MMA, MWAIT, MFLAGS, and the decode, gang start and completion
of a matrix instruction, with the arithmetic of chapter 5. -/

namespace Sys2Proof.Machine

/-! ### Issue (R163, R173, R174, R177, R178) -/

/-- What MMA and MFLAGS use: D and A, uniform. -/
def specMma (_ : Nat) : Spec := { d := .uni 1, a := .uni 1 }

/-- MMA: a token and an entry of the core's queue; with 8 entries the choir is not ready. -/
def execMma (c : ChoirRef) (e : HwErr) (s : State) : Host.Outcome State Fault Refusal :=
  s.nave c e 0xB0 specMma fun d x =>
    let a := (opA (specMma x.w) x.h x.w 0).1
    let k := d.core x.n
    if 8 ≤ k.mmq.length then d.unissue x
    else if a % 64 ≠ 0 then d.insExc x 0x21 x.ex a
    else if lmSize ≤ a then d.insExc x 0x26 x.ex a
    else
      let t := k.mmIssued + 1
      let d := (d.onCore x.n fun k =>
        { k with mmIssued := t, mmq := k.mmq ++ [⟨t, x.slot, a, x.h.fpctl % 4, x.h.pc, x.ex, k.lmRead a 64, none, none⟩] }).oinc O.MMA_ISSUED
      d.voiceOp (specMma x.w) x fun _ => { val := t }

/-- What MWAIT uses: A, uniform. -/
def specMwait (_ : Nat) : Spec := { a := .uni 1 }

/-- MWAIT. -/
def execMwait (c : ChoirRef) (e : HwErr) (s : State) : Host.Outcome State Fault Refusal :=
  s.nave c e 0xB1 specMwait fun d x =>
    let t := (opA (specMwait x.w) x.h x.w 0).1
    let k := d.core x.n
    if k.mmIssued < t then d.insExc x 0x29 x.ex t
    else if t ≤ k.mmDone then d.advance x
    else (d.advance x).onChoir x.n x.slot fun h => { h with wait := .token t }

/-- MFLAGS: waits as MWAIT does, then writes the summary. -/
def execMflags (c : ChoirRef) (e : HwErr) (s : State) : Host.Outcome State Fault Refusal :=
  s.nave c e 0xB2 specMma fun d x =>
    let t := (opA (specMma x.w) x.h x.w 0).1
    let k := d.core x.n
    if k.mmIssued < t then d.insExc x 0x29 x.ex t
    else if t ≤ k.mmDone then d.voiceOp (specMma x.w) x fun _ => { val := k.summary t }
    else (d.advance x).onChoir x.n x.slot fun h => { h with wait := .flags t (iDst x.w) }

/-! ### The matrix descriptor (Table 4.3) -/

/-- Edge of a core's output tile for a format of A (Table 4.2). -/
def matEdge (f : Nat) : Nat := if f = 4 then 16 else if f = 5 then 32 else 64
/-- k elements of a step. -/
def matKd (f : Nat) : Nat := if f = 10 then 4 else if 8 ≤ f then 2 else 1
/-- Accumulator format: FP64, FP32, or I32. -/
def matAcc (f : Nat) : Nat := if f = 4 then 4 else if f = 11 then 0 else 5
/-- Bytes of an accumulator or output element. -/
def matBytes (f : Nat) : Nat := fmtWidth f / 8
/-- Cells a MAC takes. -/
def matCells (f : Nat) : Nat := if f = 4 then 16 else if f = 5 then 4 else 1

/-- FMT_A. -/
def mdA (x : Nat) : Nat := bits x 8 4
/-- FMT_B. -/
def mdB (x : Nat) : Nat := bits x 12 4
/-- OUT_FMT. -/
def mdOut (x : Nat) : Nat := bits x 4 4
/-- M. -/
def mdM (x : Nat) : Nat := bits x 16 16
/-- N. -/
def mdN (x : Nat) : Nat := bits x 32 16
/-- K. -/
def mdK (x : Nat) : Nat := bits x 48 16
/-- FTZ16. -/
def mdFtz (x : Nat) : Bool := bit x 79
/-- SCALE_EN. -/
def mdScale (x : Nat) : Bool := bit x 80
/-- B_SRC. -/
def mdBsrc (x : Nat) : Bool := bit x 81
/-- A_SRC. -/
def mdAsrc (x : Nat) : Bool := bit x 82
/-- FEED = SKEWED. -/
def mdSkew (x : Nat) : Bool := bit x 83
/-- FP64_MODE. -/
def mdBlock (x : Nat) : Bool := bit x 84
/-- RND. -/
def mdRnd (x : Nat) : Nat := bits x 85 3
/-- SAT. -/
def mdSat (x : Nat) : Bool := bit x 88
/-- ACC_OUT. -/
def mdStore (x : Nat) : Bool := bit x 89
/-- ACC_IN. -/
def mdIn (x : Nat) : Nat := bits x 90 2
/-- ACC. -/
def mdTile (x : Nat) : Nat := bits x 92 2
/-- GANG. -/
def mdGang (x : Nat) : Nat := bits x 94 2
/-- 32-bit field `i` of the second half, from A_BASE. -/
def mdWord (x i : Nat) : Nat := bits x (128 + 32 * i) 32

/-- Cores of a sub-gang. -/
def matCores (x : Nat) : Nat := 4 ^ mdGang x
/-- First core of the sub-gang that contains core `n`. -/
def matFirst (n x : Nat) : Nat := n / matCores x * matCores x
/-- Gang position of core `n` (R200). -/
def matPlace (n x : Nat) : Nat × Nat := let g := 2 ^ mdGang x; ((corePlace n).1 % g, (corePlace n).2 % g)
/-- The core at a gang position of the sub-gang of core `n`. -/
def matAt (n x gr gc : Nat) : Nat :=
  ((rangeFrom (matFirst n x) (matCores x)).find? fun m => matPlace m x = (gr, gc)).getD n

/-- Steps of an instruction. -/
def mdSteps (x : Nat) : Nat := cdiv (mdK x) (matKd (mdA x))
/-- Rows and columns of the core's own part (R200, R205). -/
def mdPart (n x : Nat) : Nat × Nat :=
  let t := matEdge (mdA x)
  let (gr, gc) := matPlace n x
  (min t (mdM x - gr * t), min t (mdN x - gc * t))

/-- The core reads its own A, or its own B (R203). -/
def mdOwnA (n x : Nat) : Bool := !mdAsrc x || (matPlace n x).2 = 0
/-- The core reads its own B. -/
def mdOwnB (n x : Nat) : Bool := !mdBsrc x || (matPlace n x).1 = 0

/-- The fields of a descriptor hold legal values (R162, R165, R166, R186, R199, R214); `g` is the task's gang size. -/
def mdLegal (block8 : Bool) (g n x : Nat) : Bool :=
  let a := mdA x
  let t := matEdge a * 2 ^ mdGang x
  let load := mdIn x = 2
  bits x 0 4 = 0 && bits x 64 15 = 0 && bits x 96 32 = 0 && bits x 352 32 = 0 && bits x 448 64 = 0 &&
  4 ≤ a && a ≤ 11 && 4 ≤ mdB x && mdB x ≤ 11 && (mdB x = a || ((a = 8 || a = 9) && (mdB x = 8 || mdB x = 9))) &&
  matCores x ≤ g && 1 ≤ mdK x && 1 ≤ mdM x && mdM x ≤ t && 1 ≤ mdN x && mdN x ≤ t && mdIn x < 3 &&
  (!mdBlock x || (a = 4 && block8)) && (!mdScale x || 8 ≤ a) && (!mdFtz x || a = 6 || a = 7) &&
  (!mdStore x || (mdRnd x ≤ 4 &&
    (match matAcc a with | 4 => mdOut x = 4 || mdOut x = 5 | 5 => decide (5 ≤ mdOut x && mdOut x ≤ 9) | _ => mdOut x = 0))) &&
  (!(load || mdStore x) || mdWord x 6 % 32 = 0) && (!load || mdWord x 4 % 32 = 0) && (!mdStore x || mdWord x 5 % 32 = 0) &&
  (!mdOwnA n x || (mdWord x 0 % 128 = 0 && mdWord x 2 % 128 = 0 && 128 ≤ mdWord x 2)) &&
  (!mdOwnB n x || (mdWord x 1 % 128 = 0 && mdWord x 3 % 128 = 0 && 128 ≤ mdWord x 3))

/-- Every range of the instruction lies in LM (R216). -/
def mdRange (n x : Nat) : Bool :=
  let t := matEdge (mdA x)
  let slices := mdSteps x + (if mdSkew x then t - 1 else 0)
  let nb := cdiv (mdK x) 32
  let (m, k) := mdPart n x
  let fits := fun a len => decide (a + len ≤ lmSize)
  let rows := fun a w => m = 0 || k = 0 || fits a ((m - 1) * mdWord x 6 + k * w)
  (!mdOwnA n x || (fits (mdWord x 0) ((slices - 1) * mdWord x 2 + 128) && (!mdScale x || fits (mdWord x 8) (64 * nb)))) &&
  (!mdOwnB n x || (fits (mdWord x 1) ((slices - 1) * mdWord x 3 + 128) && (!mdScale x || fits (mdWord x 9) (64 * nb)))) &&
  (mdIn x ≠ 2 || rows (mdWord x 4) (matBytes (matAcc (mdA x)))) &&
  (!mdStore x || rows (mdWord x 5) (matBytes (mdOut x)))

/-- An EMPTY tile. -/
def Tile.empty : Tile := ⟨0, 0, [], []⟩
/-- Accumulator tile `i`. -/
def Core.tile (c : Core) (i : Nat) : Tile := dget Tile.empty c.tiles i

/-- Tag and edge a tile will have when the instruction at place `i` of the queue starts. -/
def Core.tagBefore (c : Core) (i acc : Nat) : Nat × Nat :=
  let p := (c.mmq.take i).filterMap fun (q : MatInstr) => q.desc.bind fun x =>
    if mdTile x = acc then some (1 + matAcc (mdA x), matEdge (mdA x)) else none
  p.getLastD ((c.tile acc).tag, (c.tile acc).edge)

/-- Raise a cause of a queued instruction as an exception of its choir (R215, R217): its report names the voices that executed the MMA and
the descriptor's address (assumption 74). -/
def Dev.matExc (d : Dev) (n : Nat) (q : MatInstr) (cause : Nat) : Dev :=
  d.coreExc n ⟨cause, 0, q.pc, q.slot, q.voices, 0, q.addr, []⟩

/-- MMA_DECODE: the unit decodes the descriptor of its first undecoded instruction (R164, R195, R214 to R217) as it stood when the MMA
issued, since a program that writes it later changes nothing but the output (R181; assumption 23). A poisoned descriptor comes first,
then a range beyond LM when FMT_A names a format, then the other checks (assumption 74). -/
def Dev.matDecode (d : Dev) (n : Nat) : Dev :=
  let c := d.core n
  let i := (c.mmq.takeWhile fun q => q.desc.isSome).length
  match c.task, c.mmq[i]? with
  | some t, some q =>
    if c.exc.isSome then d
    else
      let (x, p) := q.image
      let tag := c.tagBefore i (mdTile x)
      let keep := mdIn x ≠ 1 || tag.1 = 0 || tag = (1 + matAcc (mdA x), matEdge (mdA x))
      if p then d.matExc n q 6
      else if 4 ≤ mdA x && mdA x ≤ 11 && !mdRange n x then d.matExc n q 0x26
      else if !mdLegal (d.oget O.BLOCK8_PERMIT = 1) t.gang n x || !keep then d.matExc n q 0x28
      else d.onCore n fun c => { c with mmq := setAt c.mmq i { q with desc := some x } }
  | _, _ => d

/-- MMA_DECODE. -/
def execMmaDecode (core : Nat) (s : State) : Host.Outcome State Fault Refusal := s.runIf (core < 256) fun d => d.matDecode core

/-! ### Operands (R167 to R170) -/

/-- Row `r` of an operand: its K elements and whether any is poisoned. -/
def Core.matRow (c : Core) (base step : Nat) (skew ftz : Bool) (f k r : Nat) : List Nat × Bool :=
  let kd := matKd f
  let w := fmtWidth f
  let rb := kd * w / 8
  let l := (rangeFrom 0 (cdiv k kd)).map fun s => c.lmRead (base + (if skew then s + r else s) * step + r * rb) rb
  ((l.flatMap fun v => (rangeFrom 0 kd).map fun j => ftzIn ftz f (bits v.1 (w * j) w)).take k, l.any (·.2))

/-- The scale bytes of row `r`, one for each 32 k. -/
def Core.matScales (c : Core) (base k r : Nat) : List Nat × Bool :=
  let l := (rangeFrom 0 (cdiv k 32)).map fun b => c.lmRead (base + 64 * b + r) 1
  (l.map (·.1), l.any (·.2))

/-- An operand of one core: rows with their scales and poison. -/
def Core.matOperand (c : Core) (x base step scale f rows : Nat) : List (List Nat × List Nat × Bool) :=
  (rangeFrom 0 rows).map fun r =>
    let e := c.matRow base step (mdSkew x) (mdFtz x) f (mdK x) r
    let s := if mdScale x then c.matScales scale (mdK x) r else ([], false)
    (e.1, s.1, e.2 || s.2)

/-! ### Steps (R184, R190, R249 to R252) -/

/-- Cut a list into groups of `n`. -/
def groupsOf {α : Type} (n : Nat) : Nat → List α → List (List α)
  | 0, _ => []
  | f + 1, l => if l.isEmpty then [] else l.take n :: groupsOf n f (l.drop n)

/-- A pair of elements is gated (R190). -/
def gatedPair (fa fb : Nat) (p : Nat × Nat) : Bool :=
  if fa = 11 then p.1 = 0 || p.2 = 0
  else
    let a := fpDecode fa p.1
    let b := fpDecode fb p.2
    let special := fun (v : FVal) => match v with | .fin .. => false | _ => true
    (a.isZero && !special b) || (b.isZero && !special a)

/-- One step of a position: the new accumulator and the flags. -/
def matAdd (fa fb : Nat) (c : Nat) (ps : List (Nat × Nat)) (sa sb : Nat) : FRes :=
  let nan := sa = 255 || sb = 255
  let sc : Int := (sa : Int) - 127 + ((sb : Int) - 127)
  if fa = 11 then
    if nan then ⟨c, fNV⟩
    else
      let s : Int := ps.foldl (fun acc p => acc + intDecode 11 p.1 * intDecode 11 p.2) 0
      ⟨ofSigned 32 (toSigned 32 c + rintScaled s sc), 0⟩
  else
    let prods := ps.map fun p => if nan then (FVal.nan false, 0) else fpProd (fpDecode fa p.1) (fpDecode fb p.2)
    matStep (matAcc fa) c prods sc

/-- All steps of a position: accumulator, flags, and steps with an ungated element. -/
def matPos (x : Nat) (a b : List Nat × List Nat × Bool) (c : Nat) : Nat × Nat × Nat :=
  let fa := mdA x
  let g := if mdBlock x then 8 else matKd fa
  let gs := groupsOf g (mdK x) (a.1.zip b.1)
  let r := ((rangeFrom 0 gs.length).zip gs).foldl (fun (acc : Nat × Nat × Nat) e =>
    let blk := e.1 * g / 32
    let sa := if mdScale x then (a.2.1[blk]?).getD 127 else 127
    let sb := if mdScale x then (b.2.1[blk]?).getD 127 else 127
    let s := matAdd fa (mdB x) acc.1 e.2 sa sb
    let nan := sa = 255 || sb = 255
    let act := (groupsOf (matKd fa) 8 e.2).filter fun st => st.any fun p => nan || !gatedPair fa (mdB x) p
    (s.bits, acc.2.1 ||| s.flags, acc.2.2 + act.length)) (c, 0, 0)
  r

/-- Output conversion of one element (R253): value, flags, and whether SAT changed it. -/
def matOut (x rm c : Nat) : Nat × Nat × Bool :=
  let acc := matAcc (mdA x)
  if acc = mdOut x || acc = 0 then (c, 0, false)
  else
    let ftz := mdFtz x && (mdOut x = 6 || mdOut x = 7)
    let r := cvtFp acc (mdOut x) rm (mdSat x) ftz c
    let s := cvtFp acc (mdOut x) rm false ftz c
    (r.bits, r.flags, mdSat x && mdOut x = 8 && s.bits ≠ r.bits)

/-- The part of a matrix instruction that core `n` carries out (R195, R196, R198, R203, R205); `da` and `db` are the descriptors
of the cores whose A and B it reads. Its conflicts are those of slices 0 to S − 1 of A and B, in skewed layout too, where no rule
says which slices a step reads (R172; assumption 74). -/
def Dev.matCompute (d : Dev) (n : Nat) (q : MatInstr) (x ca da cb db : Nat) : MatRes :=
  let c := d.core n
  let fa := mdA x
  let acc := matAcc fa
  let t := matEdge fa
  let (m, k) := mdPart n x
  let wacc := matBytes acc
  let old := c.tile (mdTile x)
  let start : Tile := match mdIn x with
    | 1 => { old with tag := 1 + acc, edge := t }
    | 2 =>
      let l := (rangeFrom 0 m).flatMap fun r => (rangeFrom 0 k).map fun j =>
        (64 * r + j, c.lmRead (mdWord x 4 + r * mdWord x 6 + j * wacc) wacc)
      ⟨1 + acc, t, l.foldl (fun v e => dset 0 v e.1 e.2.1) [], l.foldl (fun v e => dset false v e.1 e.2.2) []⟩
    | _ => ⟨1 + acc, t, [], []⟩
  let rm := if mdRnd x = 0 then q.rm else mdRnd x - 1
  let as := (d.core ca).matOperand x (mdWord da 0) (mdWord da 2) (mdWord da 8) fa m
  let bs := (d.core cb).matOperand x (mdWord db 1) (mdWord db 3) (mdWord db 9) (mdB x) k
  let run := ((rangeFrom 0 m).zip as).foldl (fun (o : Tile × Nat × Nat) a =>
    ((rangeFrom 0 k).zip bs).foldl (fun (o : Tile × Nat × Nat) b =>
      let i := 64 * a.1 + b.1
      let r := matPos x a.2 b.2 (dget 0 o.1.vals i)
      ({ o.1 with vals := dset 0 o.1.vals i r.1, poison := dset false o.1.poison i (dget false o.1.poison i || a.2.2.2 || b.2.2.2) },
       o.2.1 ||| r.2.1, o.2.2 + r.2.2 * matCells fa)) o) (start, 0, 0)
  let tile := run.1
  let w := matBytes (mdOut x)
  let outs := if !mdStore x then [] else (rangeFrom 0 m).map fun r =>
    (mdWord x 5 + r * mdWord x 6, (rangeFrom 0 k).map fun j =>
      (matOut x rm (dget 0 tile.vals (64 * r + j)), dget false tile.poison (64 * r + j)))
  let fl := outs.foldl (fun f r => r.2.foldl (fun f e => f ||| e.1.2.1) f) run.2.1
  let sat := outs.any fun r => r.2.any fun e => e.1.2.2
  let pois := (rangeFrom 0 m).any fun r => (rangeFrom 0 k).any fun j => dget false tile.poison (64 * r + j)
  let conf := if !(mdOwnA n x && mdOwnB n x) then 0 else ((rangeFrom 0 (mdSteps x)).filter fun s =>
    (mdWord x 0 + s * mdWord x 2) % 512 = (mdWord x 1 + s * mdWord x 3) % 512).length
  ⟨tile, if k = 0 then [] else outs.map fun r =>
      (r.1, k * w, ((rangeFrom 0 k).zip r.2).foldl (fun v e => v + e.2.1.1 * 2 ^ (8 * w * e.1)) 0, r.2.map (·.2)),
   (fl &&& 23) + 32 * b2n sat + 64 * b2n pois, conf, run.2.2⟩

/-! ### Gang start (R201, R202) -/

/-- The fields partners must agree in: all but the addresses, steps, strides and ACC, with RND resolved; a field the
instruction does not use is not compared. -/
def mdAgree (q : MatInstr) (x : Nat) : Nat × Nat :=
  let lo := setBits (setBits (x % 2 ^ 128) 92 2 0) 85 3 0
  if mdStore x then (lo, if mdRnd x = 0 then q.rm + 1 else mdRnd x)
  else (setBits (setBits lo 88 1 0) 4 4 0, 0)

/-- A queued instruction whose sub-gang has started. -/
def MatInstr.started (q : MatInstr) (r : MatRes) : MatInstr := { q with res := some r }

/-- MMA_GANG_START: the instruction at the head of core `n` starts once every core of its sub-gang holds one of its GANG at its
head that has not started; partners that disagree raise ERR_MATRIX_DESCRIPTOR on every core. -/
def Dev.matStart (d : Dev) (n : Nat) : Dev :=
  match (d.core n).mmq with
  | [] => d
  | q :: _ =>
    match q.desc with
    | none => d
    | some x =>
      if mdGang x = 0 || q.res.isSome || (d.core n).exc.isSome then d
      else
        let ms := rangeFrom (matFirst n x) (matCores x)
        let heads := ms.filterMap fun m => match (d.core m).mmq with
          | h :: _ => if h.res.isSome then none else h.desc.map fun y => (m, h, y)
          | [] => none
        let fail := fun (d : Dev) => ms.foldl (fun d m =>
          d.matExc m (((d.core m).mmq.head?).getD q) 0x28) d
        if heads.any fun h => mdGang h.2.2 ≠ 0 && mdGang h.2.2 ≠ mdGang x then fail d
        else if heads.length ≠ ms.length || heads.any (fun h => mdGang h.2.2 = 0) then d
        else if heads.any fun h => mdAgree h.2.1 h.2.2 ≠ mdAgree q x then fail d
        else
          let desc := fun m => (heads.find? fun h => h.1 = m).elim x (·.2.2)
          let rs := heads.map fun h =>
            let ca := if mdAsrc x then matAt h.1 x (matPlace h.1 x).1 0 else h.1
            let cb := if mdBsrc x then matAt h.1 x 0 (matPlace h.1 x).2 else h.1
            (h.1, h.2.1, d.matCompute h.1 h.2.1 h.2.2 ca (desc ca) cb (desc cb))
          rs.foldl (fun d r => d.onCore r.1 fun c => { c with mmq := setAt c.mmq 0 (r.2.1.started r.2.2) }) d

/-- MMA_GANG_START. -/
def execMmaGangStart (core : Nat) (s : State) : Host.Outcome State Fault Refusal := s.runIf (core < 256) fun d => d.matStart core

/-! ### Completion (R176, R178, R196, R198) -/

/-- Poison the output position at row `m` and column `j` (R198, R261). -/
def MatRes.poisonAt (r : MatRes) (m j : Nat) : MatRes :=
  { r with tile := { r.tile with poison := dset false r.tile.poison (64 * m + j) true }, summary := r.summary ||| 64,
           rows := r.rows.zipIdx.map fun (y : (Nat × Nat × Nat × List Bool) × Nat) =>
             if y.2 = m then (y.1.1, y.1.2.1, y.1.2.2.1, setAt y.1.2.2.2 j true) else y.1 }

/-- What the unit's checks find in an instruction: `.word i` is an uncorrectable error of the accumulator of position i,
`.reg m j` a failed residue check at row m and column j. -/
def MatRes.hurt (r : MatRes) (e : HwErr) : MatRes :=
  match e with
  | .word i => r.poisonAt (i % 4096 / 64) (i % 64)
  | .reg m j => r.poisonAt (m % 64) (j % 64)
  | _ => r

/-- Write a stored row: fold it, write it, and mark the words of poisoned elements (R684, R198). -/
def Dev.matRowPut (d : Dev) (n : Nat) (r : Nat × Nat × Nat × List Bool) : Dev :=
  let w := if r.2.2.2.isEmpty then 1 else r.2.1 / r.2.2.2.length
  let d := (d.fold n 0 r.1 r.2.1 r.2.2.1).lmWrite n r.1 r.2.1 r.2.2.1 false 0
  let marks := fun (p : List (Nat × Bool)) => ((rangeFrom 0 r.2.2.2.length).zip r.2.2.2).foldl
    (fun p e => if e.2 then dset false p ((r.1 + w * e.1) / 8) true else p) p
  d.onCore n fun c => { c with lmp := marks c.lmp }

/-- MMA_COMPLETE: the instruction at the head of the core's queue completes. -/
def Dev.matComplete (d : Dev) (n : Nat) (e : HwErr) : Dev :=
  match (d.core n).mmq with
  | [] => d
  | q :: rest =>
    match q.desc with
    | none => d
    | some x =>
      if (d.core n).exc.isSome || (mdGang x ≠ 0 && q.res.isNone) then d
      else
        let r := (q.res.getD (d.matCompute n q x n x n x)).hurt e
        let d := r.rows.foldl (fun d y => d.matRowPut n y) d
        let d := match e with
          | .corrected .. => d.oinc O.ACC_CORRECTED
          | .reg .. => d.arithCheck n
          | _ => d
        let s := mdSteps x
        let d := ((((d.oadd O.CELL_ACTIVE_CLOCKS r.active).oadd O.CELL_GATED_CLOCKS (4096 * s - r.active)).oadd
          O.STEP_CONFLICTS r.conflicts).oadd O.SATURATED_OUTPUTS (b2n (bit r.summary 5))).count 0 n 2 (s + r.conflicts)
        (d.onCore n fun c =>
          let fl := mset c.mmFlags q.token r.summary
          { c with mmq := rest, mmDone := q.token, tiles := dset Tile.empty c.tiles (mdTile x) r.tile, quietFor := 0,
                   mmFlags := fl.drop (fl.length - 16) }).wake n

/-- MMA_COMPLETE. -/
def execMmaComplete (core : Nat) (e : HwErr) (s : State) : Host.Outcome State Fault Refusal :=
  s.runIf (core < 256) fun d => d.matComplete core e

end Sys2Proof.Machine
end

