-- ==== Sys2Proof/Machine/Lark.lean ====
section
/-! DEFINITION. Machine/Lark.lean: the Lark's stream contexts, Bilxel programs and Starling (chapter 8). -/

namespace Sys2Proof.Machine

/-! ### The stream record (Table 8.2) -/

/-- DIR = OUT. -/
def srOut (x : Nat) : Bool := bit x 81
/-- MODE: 0 BLOCKS, 1 BILXEL, 2 TILES, 3 RECEIVE. -/
def srMode (x : Nat) : Nat := bits x 82 2
/-- Blocks ahead of release. -/
def srAhead (x : Nat) : Nat := bits x 84 4 + 1
/-- ACT. -/
def srAct (x : Nat) : Nat := bits x 88 6
/-- ACT_EN. -/
def srActEn (x : Nat) : Bool := bit x 95
/-- SKEW. -/
def srSkew (x : Nat) : Nat := bits x 96 2
/-- SKEW_FMT. -/
def srFmt (x : Nat) : Nat := bits x 98 4
/-- Steps per panel S. -/
def srSteps (x : Nat) : Nat := bits x 102 10 + 1
/-- COUNT. -/
def srCount (x : Nat) : Nat := bits x 112 16
/-- RELEASE_ADDR. -/
def srRelease (x : Nat) : Nat := bits x 128 32
/-- LANDED_ADDR. -/
def srLanded (x : Nat) : Nat := bits x 160 32
/-- RING_SIZE. -/
def srRingSize (x : Nat) : Nat := bits x 192 32
/-- RING_BASE. -/
def srRing (x : Nat) : Nat := bits x 224 32
/-- SOURCE. -/
def srSource (x : Nat) : Nat := bits x 256 64
/-- PARAM_k. -/
def srParam (x k : Nat) : Nat := bits x (320 + 64 * k) 64
/-- MASK. -/
def srMask (x : Nat) : Nat := bits x 448 64

/-- A stream record is well formed for a gang of `g` cores (R369, R396). -/
def srOk (g x : Nat) : Bool :=
  let sk := srSkew x
  bits x 0 81 = 0 && !bit x 94 && sk < 3 &&
  (if sk = 0 then bits x 98 14 = 0 else 4 ≤ srFmt x && srFmt x ≤ 11) &&
  srRing x % 32 = 0 && srRingSize x % 32 = 0 && 32 ≤ srRingSize x && srRingSize x ≤ lmSize &&
  srLanded x % 8 = 0 && srRelease x % 8 = 0 &&
  srRing x + srRingSize x ≤ lmSize && srLanded x + 8 ≤ lmSize && srRelease x + 8 ≤ lmSize &&
  srLanded x ≠ srRelease x && (1 < srMode x || bits x 308 12 = 0) && (srMode x = 0 || srCount x = 0) &&
  (srMode x < 2 || !srOut x || sk = 0) &&
  (srMask x = 0 || (!srOut x && srMode x < 3 && srMask x / 2 ^ g = 0))

/-- The footprint of a block of `len` bytes (R374). -/
def srFoot (x len : Nat) : Nat := if srSkew x = 0 then len else 128 * (srSteps x + matEdge (srFmt x) - 1)

/-! ### Translations of the Lark (R376, R410, R436) -/

/-- What a read of the Lark yields: lines, a wait, or a cause with its address and records. -/
inductive LarkRes where
  | lines (l : List VLine)
  | wait
  | fail (cause detail va : Nat) (recs : List FaultRec)
  deriving DecidableEq, Repr

/-- The failure of a set of translations; none when every page is ready, `wait` while one awaits an ATS reply. -/
def larkFail (t : TaskRun) (n access : Nat) (rs : List (Nat × Nat × TRes)) : Option LarkRes :=
  match sortVoices t (larkEng n) access rs with
  | .ok => none
  | .wait => some .wait
  | .hostOff _ va => some (.fail 0x30 0 va [])
  | .fault _ [] => some .wait
  | .fault _ (r :: rs) => some (.fail r.cause r.detail r.va (r :: rs))

/-- The page of a translation of `va`, come by as `via`. -/
def larkPage (via : Via) (va : Nat) : TRes → LarkPage
  | .dev _ w x => ⟨va / 4096, via, x / 4096, w.policy, w.l2p, w.key⟩
  | r => ⟨va / 4096, via, r.phys.2 / 4096, 0, 0, 512⟩

/-- A page of host memory. -/
def LarkPage.host (p : LarkPage) : Bool := p.via.host

/-- How an access to an address of a page came by it. -/
def LarkPage.viaAt (p : LarkPage) (va : Nat) : Via := p.via.plus (va % 4096)

/-- Translate the pages that hold `vas`, each the lowest address of its page that a request of the Lark reaches. -/
def Dev.larkTrans (d : Dev) (n : Nat) (t : TaskRun) (access : Nat) (vas : List Nat) : Dev × (List LarkPage ⊕ LarkRes) :=
  let (d, rs) := d.transVoices (larkEng n) t.owner access (vas.map fun va => (0, va))
  match larkFail t n access rs with
  | some f => (d, .inr f)
  | none => (d, .inl (rs.map fun e => larkPage (d.via t.owner (e.2.1 / 4096 * 4096) e.2.2) e.2.1 e.2.2))

/-- Among the translated pages, the one of an address. -/
def pageOf (ps : List LarkPage) (va : Nat) : LarkPage := (ps.find? fun p => p.v = va / 4096).getD ⟨0, ⟨0, 0, 0, false, false, 0⟩, 0, 0, 0, 512⟩

/-- The translation of an address of a page. -/
def LarkPage.at (p : LarkPage) (va : Nat) : Nat := 4096 * p.p + va % 4096

/-- A request of a requester for an owner to a line of a page. -/
def LarkPage.req (p : LarkPage) (who owner x : Nat) (write : Bool) (mask data poison : Nat) : L2Req :=
  ⟨who, owner, x / 128 * 128, write, mask, data, poison, p.policy, p.l2p, p.key⟩

/-- The first address of a byte range in each of its pages. -/
def rangePages (va len : Nat) : List Nat := (copyPieces va len).map (·.1)

/-- The lowest byte address of a tile's elements in each page they touch, ascending. -/
def elementPages (els : List (Option Nat)) : List Nat :=
  (els.foldl (fun (m : List (Nat × Nat)) e => match e with
    | none => m
    | some b =>
      let a := b / 8
      mset m (a / 4096) (min a ((mget m (a / 4096)).getD a))) []).map (·.2)

/-! ### Requests of the Lark (R366, R384, R385) -/

/-- Raise a cause of the Lark's streams (R406, R410). -/
def Dev.larkExc (d : Dev) (n cause detail va : Nat) (recs : List FaultRec) : Dev :=
  d.coreExcAt n 4 ⟨cause, detail, 0, 64, 0, 0, va, recs⟩

/-- The lines that bytes of a virtual address make. -/
def bytesLines (va : Nat) (bs : List Byte) (poison : Bool) : List VLine :=
  (linePieces (bs.length / 128 + 2) va bs.length).map fun p =>
    let o := p.1 % 128
    (p.1 / 128, leNat ((bs.drop (p.1 - va)).take p.2) * 2 ^ (8 * o), if poison then sectorsOf ((2 ^ p.2 - 1) * 2 ^ o) else 0)

/-- Requester number of a read: the core, or Starling of the core's die (R398; assumption 65). -/
def larkWho (n : Nat) (star : Bool) : Nat := if star then 260 + 256 * dieOfCore n else n

/-- Read the lines of one request of device memory through their home slices; the core's own L1 first writes back its dirty bytes, but
never for Starling (R277, R385, R398). Answers the lines, with an address that no channel group gave. -/
def Dev.larkFetch (d : Dev) (n owner : Nat) (star : Bool) (g : LarkPage) (va len : Nat) : Dev × List VLine × Option Nat :=
  (rangeLines va len).foldl (fun acc l =>
    let x := g.at (128 * l)
    let d := if star then acc.1 else acc.1.l1WriteBack n (x / 128)
    let bad := d.lost x
    let (d, v, p) := d.l2Access (g.req (larkWho n star) owner x false 0 0 0)
    (d, acc.2.1 ++ [(l, v, p)], if bad then some (acc.2.2.getD (max va (128 * l))) else acc.2.2)) (d, [], none)

/-- The error that a read of the Lark meets: in its core's L1, or in the memory sector at its address, which is ERR_ECC_UNCORRECTED at
that device address (R359, R410, R412, R712). -/
def Dev.larkEcc (d : Dev) (n owner : Nat) (star : Bool) (e : HwErr) (x len : Nat) : Dev × Bool :=
  match e with
  | .memory => ((d.memLost x owner).larkExc n 5 0 (x / 32 * 32) [], true)
  | e => if star then (d, false) else d.l1Err n e (rangeLines x len) fun d a => d.larkExc n 5 0 a []

/-- Send one request of the Lark: a device one is answered at once, a host one in reads of at most Max Read Request Size. False when it
has raised an exception. -/
def Dev.larkSend (d : Dev) (n : Nat) (t : TaskRun) (star : Bool) (ctx : Nat) (blk : Option (Nat × Nat)) (e : HwErr) (g : LarkPage)
    (va len : Nat) : Dev × Bool :=
  let fresh := fun (d : Dev) => (d.core n).reads.foldl (fun m r => max m (r.id + 1)) 0
  if g.host then
    ((hostPieces d.larkRequest 3 va len).foldl (fun d p =>
      let id := fresh d
      (d.onCore n fun c => { c with reads := c.reads ++ [⟨id, ctx, blk, p.1, p.2, none⟩] }).hostReadReq (g.viaAt p.1) (g.at p.1) p.2 3
        (n + 256 * id)) d, true)
  else
    match d.larkEcc n t.owner star e (g.at va) len with
    | (d, true) => (d, false)
    | (d, false) =>
      match d.larkFetch n t.owner star g va len with
      | (d, _, some bad) => (d.larkExc n 0x37 0 bad [], false)
      | (d, ls, none) => (d.onCore n fun c => { c with reads := c.reads ++ [⟨fresh d, ctx, blk, va, len, some ls⟩] }, true)

/-- Reads of a context for a table, list or program, or for a block. -/
def Core.readsOf (c : Core) (ctx : Nat) (blk : Option (Nat × Nat)) : List LarkReq := c.reads.filter fun r => r.ctx = ctx && r.blk = blk

/-- The data of a set of reads, once all have come: they leave the list. -/
def Dev.larkTake (d : Dev) (n ctx : Nat) (blk : Option (Nat × Nat)) : Dev × LarkRes :=
  let mine := (d.core n).readsOf ctx blk
  if mine.any fun r => r.got.isNone then (d, .wait)
  else (d.onCore n fun c => { c with reads := c.reads.filter fun r => !(r.ctx = ctx && r.blk = blk) }, .lines (mine.flatMap fun r => r.got.getD []))

/-- Read a range for the stream table (context 16), a list or a program: what it has already asked for is taken when it has come,
and otherwise the range is translated and asked for. -/
def Dev.larkRange (d : Dev) (n : Nat) (t : TaskRun) (ctx : Nat) (e : HwErr) (va len : Nat) : Dev × LarkRes :=
  if !((d.core n).readsOf ctx none).isEmpty then d.larkTake n ctx none
  else
    match d.larkTrans n t 0 (rangePages va len) with
    | (d, .inr f) => (d, f)
    | (d, .inl ps) =>
      match (hostPieces 256 (len / 32 + 2) va len).foldl (fun acc p =>
        if acc.2 then acc.1.larkSend n t false ctx none e (pageOf ps p.1) p.1 p.2 else acc) (d, true) with
      | (d, true) => d.larkTake n ctx none
      | (d, false) => (d, .wait)

/-- Write parts of lines for the task on core `n` (R277, R379, R385); an address that no channel group takes. -/
def Dev.larkPut (d : Dev) (n : Nat) (t : TaskRun) (ps : List LarkPage) (ws : List VWrite) : Dev × Option Nat :=
  ws.foldl (fun acc w =>
    let g := pageOf ps (128 * w.1)
    let x := g.at (128 * w.1)
    if g.host then
      ((rangeFrom 0 4).foldl (fun d s =>
        (maskRuns 32 0 (bits w.2.1 (32 * s) 32) []).foldl (fun d r =>
          d.postWrite (g.viaAt (128 * w.1 + 32 * s + r.1)) (x + 32 * s + r.1) (leBytes r.2 (w.2.2.1 / 2 ^ (8 * (32 * s + r.1)))) (bit w.2.2.2 s)) d) acc.1, acc.2)
    else
      let bad := acc.1.lost x
      (((acc.1.l1Evict n (x / 128)).l2Access (g.req n t.owner x true w.2.1 w.2.2.1 w.2.2.2)).1,
        if bad then some (acc.2.getD (128 * w.1)) else acc.2)) (d, none)

/-- Fold the writes of an OUT block into the core's signature (R684). -/
def Dev.larkFold (d : Dev) (n : Nat) (ws : List VWrite) : Dev :=
  ws.foldl (fun d w => (maskRuns 128 0 w.2.1 []).foldl (fun d r =>
    d.fold n 3 (128 * w.1 + r.1) r.2 (w.2.2.1 / 2 ^ (8 * r.1) % 2 ^ (8 * r.2))) d) d

/-! ### Contexts -/

/-- Context `i` of core `n`. -/
def Dev.stream (d : Dev) (n i : Nat) : Option Stream := mget (d.core n).streams i

/-- Set a context. -/
def Dev.setStream (d : Dev) (n i : Nat) (s : Stream) : Dev := d.onCore n fun c => { c with streams := mset c.streams i s }

/-- The ring position of a block at the cursor, with the cursor after it; none when the footprint exceeds the ring (R374). -/
def Stream.place (s : Stream) (len : Nat) : Option (Nat × Nat) :=
  let x := s.record
  let f := srFoot x len
  if srRingSize x < f then none
  else
    let at_ := if srRing x + srRingSize x < s.cursor + f then srRing x else s.cursor
    some (at_, at_ + f)

/-- The ring position of a block, at the cursor or, for an entry with SEQ = 0, at its DEST_OFFSET, which does not move the cursor
(R374). -/
def Stream.placeAs (s : Stream) (dest : Option Nat) (len : Nat) : Option (Nat × Nat) :=
  match dest with
  | none => s.place len
  | some o => if srRingSize s.record < o + srFoot s.record len then none else some (srRing s.record + o, s.cursor)

/-- A new block passes the checks of R391 and R405. -/
def Stream.blockOk (s : Stream) (len lm : Nat) : Option Nat :=
  let x := s.record
  if srSkew x ≠ 0 && len ≠ 128 * srSteps x then some 0x2E
  else if !srOut x && lmSize < lm + srFoot x len then some 0x26
  else none

/-- Append a block to the queue. -/
def Stream.push (s : Stream) (b : Block) : Stream := { s with queue := s.queue ++ [b] }

/-- Cores that receive a block of a source: the ranks of MASK (R396). -/
def receiversOf (t : TaskRun) (x : Nat) : List Nat :=
  ((rangeFrom 0 64).filter fun j => bit (srMask x) j).map fun j => t.first + j

/-- The stream places its blocks in a ring of its own: all but a Starling source that is no receiver of its own (R398). -/
def srRinged (t : TaskRun) (n x : Nat) : Bool := srMask x = 0 || (receiversOf t x).contains n

/-- Where a new block goes and the cursor after it, or a cause (R374, R391, R405). -/
def Stream.placeOf (s : Stream) (t : TaskRun) (n : Nat) (dest : Option Nat) (len : Nat) : (Nat × Nat) ⊕ Nat :=
  if !srRinged t n s.record then .inl (0, s.cursor)
  else
    match s.placeAs dest len with
    | none => .inr 0x2E
    | some (lm, cur) =>
      match s.blockOk len lm with
      | some c => .inr c
      | none => .inl (lm, cur)

/-- The bit addresses of a tile. -/
def tileBits (s : Stream) (tile : Option (Nat × Nat × Nat)) : List (Option Nat) :=
  match tile with
  | some (r, c, l) => tdTile s.desc r c l
  | none => []

/-- The requests that read or write a tile: its lines, those of one aligned 256 bytes in one request (R366). -/
def tileRequests (ls : List Nat) : List (Nat × Nat) :=
  ls.foldl (fun acc l => match acc.getLast? with
    | some (a, k) => if l % 2 = 1 && a = 128 * (l - 1) && k = 128 then acc.dropLast ++ [(a, 256)] else acc ++ [(128 * l, 128)]
    | none => [(128 * l, 128)]) []

/-- A fresh block of a stream, with the requests it takes (R366). -/
def Stream.block (s : Stream) (t : TaskRun) (addr len off total lm : Nat) (dest : Option Nat) (last : Bool)
    (tile : Option (Nat × Nat × Nat)) : Block :=
  { num := s.next, addr := addr, len := len, off := off, total := total, lm := lm, dest := dest, last := last, begun := false,
    todo := if tile.isSome then tileRequests (linesOf (tileBits s tile)) else hostPieces 256 (len / 32 + 2) addr len,
    tile := tile, lines := [], pages := [], sent := 0, receivers := receiversOf t s.record }

/-- Place a whole block at the cursor and queue it, or a cause (R374, R390, R394). -/
def Stream.cursorBlock (s : Stream) (t : TaskRun) (n addr len : Nat) (tile : Option (Nat × Nat × Nat)) : Stream ⊕ Nat :=
  match s.placeOf t n none len with
  | .inr c => .inr c
  | .inl (lm, cur) => .inl { (s.push (s.block t addr len 0 len lm none true tile)) with
      cursor := cur, next := s.next + 1, lens := s.lens ++ [(s.next, len)] }

/-- A list entry is well formed (Table 8.4). -/
def entryOk (e : Nat) : Bool :=
  bits e 112 3 = 0 && bits e 116 12 = 0 && bits e 52 4 = 0 && bits e 0 52 % 32 = 0 && (bits e 56 24 + 1) % 32 = 0 &&
  bits e 80 32 % 32 = 0 && (!bit e 115 || bits e 80 32 = 0)

/-- Queue the next segment of a list entry: an entry longer than 64 KiB is cut at the 64 KiB boundaries of its global address
(R375). -/
def Stream.segment (s : Stream) (t : TaskRun) (n e : Nat) : Stream ⊕ Nat :=
  let addr := bits e 0 52
  let len := bits e 56 24 + 1
  let dest := if bit e 115 then none else some (bits e 80 32)
  match if s.segOff ≠ 0 then .inl (s.segLm, s.cursor) else s.placeOf t n dest len with
  | .inr c => .inr c
  | .inl (lm, cur) =>
    let a := addr + s.segOff
    let k := if len ≤ 65536 then len else min (len - s.segOff) (65536 - a % 65536)
    let last := s.segOff + k = len
    let s' := { (s.push (s.block t a k s.segOff len lm dest last none)) with cursor := cur, segLm := lm }
    .inl (if last then { s' with segOff := 0, next := s.next + 1, lens := s.lens ++ [(s.next, len)], listAt := s.listAt + 1,
                                 ended := s.listAt = srCount s.record }
          else { s' with segOff := s.segOff + k })

/-- The tile with place `i` of a TILES stream's box (R394). -/
def tileAt (x i : Nat) : Nat × Nat × Nat :=
  let nc := bits (srParam x 1) 16 16 + 1
  (bits (srParam x 0) 0 32 + i / nc, bits (srParam x 0) 32 32 + i % nc, bits (srParam x 1) 32 32)

/-- Tiles of a box. -/
def tileCount (x : Nat) : Nat := (bits (srParam x 1) 0 16 + 1) * (bits (srParam x 1) 16 16 + 1)

/-- Put a stream that has taken a block, or raise its cause. -/
def Dev.streamPut (d : Dev) (n i : Nat) : Stream ⊕ Nat → Dev
  | .inl s => d.setStream n i s
  | .inr c => d.larkExc n c 0 0 []

/-- Blocks of a BLOCKS or TILES stream enter its queue while an entry is free and the list has been read (R373 to R375, R394). The
trailing core of a tandem pair takes the entries that the leading core read. -/
def Dev.larkFeed (d : Dev) (n i : Nat) (t : TaskRun) : Nat → Dev
  | 0 => d
  | f + 1 =>
    match d.stream n i with
    | none => d
    | some s =>
      let x := s.record
      if (d.core n).exc.isSome || s.ended || 16 ≤ s.queue.length then d
      else if srMode x = 2 then
        Dev.larkFeed (d.streamPut n i (match s.cursorBlock t n 0 (tdTileBytes s.desc) (some (tileAt x s.listAt)) with
          | .inl s => .inl { s with listAt := s.listAt + 1, ended := s.listAt + 1 = tileCount x }
          | .inr c => .inr c)) n i t f
      else if srMode x ≠ 0 then d
      else
        let s := if t.tandem = 2 then { s with entries := ((d.stream (n - 1) i).map (·.entries)).getD [] } else s
        match s.entries[s.listAt]? with
        | none => d
        | some e => Dev.larkFeed (if s.segOff = 0 && !entryOk e then d.larkExc n 0x2E 0 0 [] else d.streamPut n i (s.segment t n e)) n i t f

/-- Every context takes the blocks it can. -/
def Dev.larkFeedAll (d : Dev) (n : Nat) (t : TaskRun) : Dev :=
  (d.core n).streams.foldl (fun d e => d.larkFeed n e.1 t 16) d

/-! ### What a context may issue (R377 to R379, R384, R399, R401) -/

/-- R of a context: the sampled RELEASE doubleword (R377). -/
def Dev.released (d : Dev) (n x : Nat) : Nat := ((d.core n).lmRead (srRelease x) 8).1

/-- Block `i` of a context may issue: i < R for OUT; i < R + RUNAHEAD for IN, for every receiver of a Starling source. A later segment
belongs to a block that has begun (R401). -/
def Dev.mayIssue (d : Dev) (n idx : Nat) (t : TaskRun) (s : Stream) (b : Block) : Bool :=
  let x := s.record
  if b.begun || b.off ≠ 0 then true
  else if srOut x then b.num < d.released n x
  else if srMask x = 0 then b.num < d.released n x + srAhead x
  else (receiversOf t x).all fun m => match d.stream m idx with
    | some r => b.num < d.released m r.record + srAhead r.record
    | none => false

/-- A block has issued every request it takes. -/
def Block.issued (b : Block) : Bool := b.begun && b.todo.isEmpty

/-- A block has all its data, or has sent all of it. -/
def Core.whole (c : Core) (i : Nat) (b : Block) : Bool := b.issued && (c.readsOf i (some (b.num, b.off))).isEmpty

/-- What a context would have the Lark issue next: a line of its list, the next of its program, or a request of a block. -/
inductive LarkWant where
  | list (va len : Nat)
  | prog
  | block (b : Block)
  | copy (a : Acopy)
  deriving DecidableEq, Repr

/-- The issuable request of a context, in block order within it; context 16 is the ACOPY queue, whose copies from a host window ask
for their data (R384). The list is read ahead in lines of 8 entries (R373). The trailing core of a tandem pair issues none of its
own: it waits for what the leading core read (R683). -/
def Dev.larkWant (d : Dev) (n : Nat) (t : TaskRun) (i : Nat) : Option LarkWant :=
  let c := d.core n
  if i = 16 then
    ((c.acopies.find? fun a => a.dir = 0 && t.tandem ≠ 2 && (!a.todo.isEmpty ||
      (!a.requested && ((d.windowAt t.owner a.src).map fun w => w.2.home) = some 3))).map .copy)
  else
    match mget c.streams i with
    | none => none
    | some s =>
      let x := s.record
      let idle := (c.readsOf i none).isEmpty && t.tandem ≠ 2
      if srMode x = 0 && idle && !s.ended && s.segOff = 0 && s.queue.length < 16 && s.entries.length ≤ s.listAt then
        some (.list (srSource x + 16 * s.listAt) (16 * min 8 (srCount x + 1 - s.listAt)))
      else if srMode x = 1 && idle && !s.ready then some .prog
      else
        match s.queue.find? fun b => !b.issued with
        | none => none
        | some b =>
          if !d.mayIssue n i t s b then none
          else if t.tandem = 2 && !srOut x && !((d.core (n - 1)).resp.any fun e => e.1 = 8192 + i) then none
          else some (.block b)

/-- The context the Lark serves: the first with an issuable request in ascending order after the one served last (R384); none while 256
requests are in flight (Table 8.1). -/
def Dev.larkPick (d : Dev) (n : Nat) (t : TaskRun) : Option (Nat × LarkWant) :=
  if 256 ≤ d.larkFlight n then none
  else ((rangeFrom 0 17).map fun k => ((d.core n).served + 1 + k) % 17).findSome? fun i => (d.larkWant n t i).map fun w => (i, w)

/-! ### Issue (R376 to R379, R384, R389) -/

/-- The skewed place in LM, from the start of the block's footprint, of element group `e` of a block under a record (R392), and its
bytes. -/
def skewAt (x e : Nat) : Nat × Nat :=
  let rb := matKd (srFmt x) * fmtWidth (srFmt x) / 8
  let r := e / srSteps x
  let s := e % srSteps x
  (128 * (s + r) + r * rb, rb)

/-- LM bytes of a block whose footprint starts at `lm`, from offset `o` on, as 32-byte pieces: in order, or gathered from the skewed
places of R392. -/
def Core.blockChunks (c : Core) (x lm o len : Nat) : List Chunk :=
  if srSkew x = 0 then c.lmChunks (lm + o) len
  else
    let rb := (skewAt x 0).2
    let k := 32 / rb
    (rangeFrom 0 (len / 32)).map fun i => (rangeFrom 0 k).foldl (fun (acc : Chunk) j =>
      let v := c.lmRead (lm + (skewAt x (o / rb + i * k + j)).1) rb
      (acc.1 + v.1 * 2 ^ (8 * rb * j), acc.2 || v.2)) (0, false)

/-- The handle slot of a TILES stream names an entry that is STALE because its window went (R443). -/
def Dev.tileStale (d : Dev) (t : TaskRun) (x : Nat) : Bool :=
  dget 0 d.prec.descState (4096 * t.owner + bits t.body (312 + 12 * (srSource x % 16)) 12) = 2

/-- Change a block of a context. -/
def Dev.setBlock (d : Dev) (n i : Nat) (b : Block) (f : Block → Block) : Dev :=
  match d.stream n i with
  | some s => d.setStream n i { s with queue := mapIf (fun y => y.num = b.num && y.off = b.off) f s.queue }
  | none => d

/-- Elements of a tile beyond the extents. -/
def beyond (els : List (Option Nat)) : Nat := (els.filter (·.isNone)).length

/-- A tile has issued its last request: its elements beyond the extents are counted, once for a tandem pair (R449). -/
def Dev.tileCounted (d : Dev) (t : TaskRun) (s : Stream) (b : Block) : Dev :=
  if b.tile.isNone || t.tandem = 2 then d
  else d.oadd (if srOut s.record then O.DROPPED_ELEMENTS else O.FILL_ELEMENTS) (beyond (tileBits s b.tile))

/-- The data of reads that a block waited for join its lines; the leading core of a tandem pair keeps a whole block for the trailing
core (R683). -/
def Dev.blockGather (d : Dev) (n i : Nat) (b : Block) : Dev :=
  let key := some (b.num, b.off)
  let come := ((d.core n).readsOf i key).filter fun r => r.got.isSome
  let d := d.onCore n fun c => { c with reads := c.reads.filter fun r => !(r.ctx = i && r.blk = key && r.got.isSome) }
  let d := d.setBlock n i b fun y => { y with lines := y.lines ++ come.flatMap fun r => r.got.getD [] }
  match (d.stream n i).bind fun s => s.queue.find? fun y => y.num = b.num && y.off = b.off with
  | some y => if (d.core n).whole i y then d.respPush n (8192 + i) (y.lines.map fun l => (l.1, l.2.1 + l.2.2 * 2 ^ 1024, false)) else d
  | none => d

/-- A block issues one request, whose address and length are `p`: an IN block reads it, an OUT block reads its LM bytes and writes
(R378, R379). `p` is none for a tile that lies beyond the extents. -/
def Dev.blockSend (d : Dev) (n i : Nat) (t : TaskRun) (s : Stream) (b : Block) (e : HwErr) : Dev :=
  let x := s.record
  let sent := fun (d : Dev) => (if b.todo.length ≤ 1 then d.tileCounted t s b else d).setBlock n i b fun y =>
    { y with begun := true, pages := b.pages, todo := y.todo.drop 1 }
  match b.todo with
  | [] => (sent d).blockGather n i b
  | p :: _ =>
    let els := tileBits s b.tile
    if srOut x then
      let ws := if b.tile.isSome then
          (tileWrites s.desc els ((d.core n).blockChunks x b.lm 0 b.len)).filter fun w => (rangeLines p.1 p.2).contains w.1
        else rangeWrites p.1 ((d.core n).blockChunks x b.lm (b.off + (p.1 - b.addr)) p.2)
      let d := d.larkFold n ws
      if t.tandem = 2 then sent d
      else
        match d.larkPut n t b.pages ws with
        | (d, some va) => d.larkExc n 0x37 0 va []
        | (d, none) => sent d
    else
      let star := srMask x ≠ 0
      match d.larkSend n t star i (some (b.num, b.off)) e (pageOf b.pages p.1) p.1 p.2 with
      | (d, false) => d
      | (d, true) =>
        let bytes := if b.tile.isSome then
            ((els.filterMap id).filter fun a => p.1 ≤ a / 8 && a / 8 < p.1 + p.2).length * tdBits s.desc / 8
          else p.2
        (sent (if star then d.oadd O.STARLING_FETCH_BYTES bytes else d)).blockGather n i b

/-- A block issues: the first of its requests only once every page the block touches is translated and checked (R376, R389,
R443). -/
def Dev.larkIssue (d : Dev) (n i : Nat) (t : TaskRun) (s : Stream) (b : Block) (e : HwErr) : Dev :=
  if b.begun then d.blockSend n i t s b e
  else if b.tile.isNone && b.addr % 32 ≠ 0 then d.larkExc n 0x21 0 b.addr []
  else if b.tile.isSome && d.tileStale t s.record then d.larkExc n 4 0 0 []
  else if t.tandem = 2 then
    if srOut s.record then d.blockSend n i t s { b with begun := true } e
    else
      match d.respPop n (8192 + i) with
      | (d, some l) => d.setBlock n i b fun y =>
          { y with begun := true, todo := [], lines := l.map fun e => (e.1, e.2.1 % 2 ^ 1024, e.2.1 / 2 ^ 1024) }
      | (d, none) => d
  else
    match d.larkTrans n t (b2n (srOut s.record)) (if b.tile.isSome then elementPages (tileBits s b.tile) else rangePages b.addr b.len) with
    | (d, .inl ps) => d.blockSend n i t s { b with begun := true, pages := ps } e
    | (d, .inr (.fail c det a recs)) => d.larkExc n c det a recs
    | (d, .inr _) => d

/-- The next lines of a block list have been read, or are awaited (R373). -/
def Dev.listRead (d : Dev) (n i : Nat) (t : TaskRun) (e : HwErr) (va k : Nat) : Dev :=
  match d.larkRange n t i e va k with
  | (d, .lines ls) =>
    let w := fun (j : Nat) => let a := va + 16 * j
      (bits (lineOf ls (a / 128)).1 (8 * (a % 128)) (8 * min 16 (128 - a % 128)) +
        (lineOf ls (a / 128 + 1)).1 * 2 ^ (8 * (128 - a % 128))) % 2 ^ 128
    if ls.any fun l => l.2.2 ≠ 0 then d.larkExc n 6 0 va []
    else
      match d.stream n i with
      | some s => d.setStream n i { s with entries := s.entries ++ (rangeFrom 0 (k / 16)).map w }
      | none => d
  | (d, .fail c det a recs) => d.larkExc n c det a recs
  | (d, .wait) => d

/-! ### Programs (R370 step 4, R386, R387) -/

/-- OP. -/
def bxOp (w : Nat) : Nat := bits w 26 6

/-- The bits of a word that its OP uses. -/
def bxUsed (w : Nat) : Nat :=
  match bxOp w with
  | 0x01 => 3 * 2 ^ 24 + 2 ^ 23 + 15
  | 0x02 => 3 * 2 ^ 24 + 3 * 2 ^ 20
  | 0x03 => 3 * 2 ^ 24 + 15 * 2 ^ 20 + (2 ^ 18 - 1)
  | 0x04 => 3 * 2 ^ 24 + 1
  | 0x05 => 7 * 2 ^ 20 + (2 ^ 16 - 1)
  | 0x06 => 7 * 2 ^ 20
  | 0x07 => 3 * 2 ^ 24 + 2 ^ 23 + (2 ^ 11 - 1)
  | _ => 0

/-- One instruction is legal for a task whose used descriptor slots are `slots`. -/
def bxLegal (slots w : Nat) : Bool :=
  let op := bxOp w
  ((1 ≤ op && op ≤ 7) || op = 0x3F) && bits w 0 26 &&& bxUsed w = bits w 0 26 &&
  (op ≠ 1 || (if bit w 23 then bit slots (bits w 0 4) else bits w 0 4 ≤ 1))

/-- The loops of a program nest as R387 requires; `open_` holds the open counters, innermost first. -/
def bxNested : List Nat → List Nat → Bool
  | [], _ => false
  | w :: ws, l =>
    let n := bits w 20 3
    match bxOp w with
    | 0x05 => !l.contains n && l.length < 8 && bxNested ws (n :: l)
    | 0x06 => (match l with | m :: r => m = n && bxNested ws r | [] => false)
    | 0x3F => l.isEmpty
    | _ => bxNested ws l

/-- The check of a whole program, as read up to its END (R387). -/
def bxOk (slots : Nat) (p : List Nat) : Bool := p.length ≤ 64 && p.all (bxLegal slots) && bxNested p []

/-- Slots the task uses, as a mask of its TASK packet's IN_MASK and OUT_MASK (Table 12.5). -/
def slotsUsed (body : Nat) : Nat := bits body 280 16 ||| bits body 296 16

/-- The next line of a context's program is read, or awaited; with its END the whole program is checked (R386, R387). -/
def Dev.progRead (d : Dev) (n i : Nat) (t : TaskRun) (s : Stream) (e : HwErr) : Dev :=
  let va := srSource s.record
  let a := va + 4 * s.prog.length
  let k := min (64 - s.prog.length) ((128 - a % 128) / 4)
  if va % 4 ≠ 0 then d.larkExc n 0x2D 0 va []
  else
    match d.larkRange n t i e a (4 * k) with
    | (d, .fail c det x recs) => d.larkExc n c det x recs
    | (d, .wait) => d
    | (d, .lines ls) =>
      let l := lineOf ls (a / 128)
      let new := (rangeFrom 0 k).map fun j => bits l.1 (8 * (a % 128) + 32 * j) 32
      let ws := match new.findIdx? fun w => bxOp w = 0x3F with
        | some j => s.prog ++ new.take (j + 1)
        | none => s.prog ++ new
      let whole := decide ((ws.getLast?.map bxOp) = some 0x3F) || 64 ≤ ws.length
      if l.2 ≠ 0 then d.larkExc n 6 0 a []
      else if !whole then d.setStream n i { s with prog := ws }
      else if bxOk (slotsUsed t.body) ws then d.setStream n i { s with prog := ws, ready := true }
      else d.larkExc n 0x2D 0 va []

/-! ### LARK_REQUEST_ISSUE -/

/-- The trailing core of a tandem pair takes the programs that the leading core has read (R683). -/
def Dev.progCopy (d : Dev) (n : Nat) (t : TaskRun) : Dev :=
  if t.tandem ≠ 2 then d
  else (d.core n).streams.foldl (fun d e =>
    match d.stream (n - 1) e.1 with
    | some l => if l.ready && !e.2.ready then d.setStream n e.1 { e.2 with prog := l.prog, ready := true } else d
    | none => d) d

/-- The Lark of core `n` is at work: its task has passed step 3 of Table 8.3, and no exception has stopped it. -/
def Core.larkOn (c : Core) : Bool := c.started && c.exc.isNone

/-- Data that the Lark asked the host for come (use code 3): a block takes its own at once, a list or program is read on. -/
def Dev.larkCome (d : Dev) (n id : Nat) (bs : List Byte) (poison : Bool) : Dev :=
  match (d.core n).reads.find? fun r => r.id = id, (d.core n).task with
  | some r, some t =>
    let d := d.onCore n fun c => { c with reads := mapIf (fun x => x.id = id) (fun x => { x with got := some (bytesLines x.va bs poison) }) c.reads }
    if !(d.core n).larkOn then d
    else
      match r.blk, d.stream n r.ctx with
      | some k, some s =>
        match s.queue.find? fun b => b.num = k.1 && b.off = k.2 with
        | some b => d.blockGather n r.ctx b
        | none => d
      | none, some s =>
        if ((d.core n).readsOf r.ctx none).any fun r => r.got.isNone then d
        else
          let x := s.record
          (if srMode x = 0 then d.listRead n r.ctx t .none (srSource x + 16 * s.listAt) (16 * min 8 (srCount x + 1 - s.listAt))
            else d.progRead n r.ctx t s .none).larkFeedAll n t
      | _, _ => d
  | _, _ => d

/-- The Lark of core `n` issues one request (R384; assumption 22), none in a quiesce (R912). -/
def Dev.larkServe (d : Dev) (n : Nat) (e : HwErr) : Dev :=
  match (d.core n).task with
  | none => d
  | some t =>
    if !(d.core n).larkOn || d.quiescing (4 + n / 32) then d
    else
      let d := (d.progCopy n t).larkFeedAll n t
      if (d.core n).exc.isSome then d
      else
        match d.larkPick n t with
        | none => d
        | some (i, w) =>
          let d := d.onCore n fun c => { c with served := i, quietFor := 0 }
          match w, d.stream n i with
          | .copy a, _ => if a.requested then d.acopyAsk n a a.todo else d.acopyIn n t a
          | .list va k, _ => (d.listRead n i t e va k).larkFeedAll n t
          | .prog, some s => d.progRead n i t s e
          | .block b, some s => d.larkIssue n i t s b e
          | _, none => d

/-- LARK_REQUEST_ISSUE. -/
def execLarkRequestIssue (core : Nat) (e : HwErr) (s : State) : Host.Outcome State Fault Refusal :=
  s.runIf (core < 256) fun d => d.larkServe core e

/-! ### Landing (R378 to R380, R391 to R393) -/

/-- The data of an IN block as 32-byte pieces. -/
def blockData (s : Stream) (b : Block) : List Chunk :=
  if b.tile.isSome then tileChunks s.desc (tileBits s b.tile) b.lines else rangeChunks b.addr b.len b.lines

/-- Write pieces of a block into LM of core `n` as its record `x` says; `lm` is the start of the block's footprint and `o` their offset
in the block. -/
def Dev.landData (d : Dev) (n x lm o : Nat) (cs : List Chunk) : Dev :=
  if srSkew x = 0 then d.lmChunksPut n n (lm + o) 0 (lm + o) true cs
  else
    let rb := (skewAt x 0).2
    let k := 32 / rb
    (rangeFrom 0 (cs.length * k)).foldl (fun d j =>
      let c := (cs[j / k]?).getD (0, false)
      let a := lm + (skewAt x (o / rb + j)).1
      let v := bits c.1 (8 * rb * (j % k)) (8 * rb)
      (d.fold n 0 a rb v).lmPut n a (leBytes rb v) c.2) d

/-- The landed count of a context rises to what its queue shows: LANDED is written, then ACT_n is credited, a Lark completion of the
core clock (R73, R380). -/
def Dev.countLanded (d : Dev) (n i : Nat) : Dev :=
  match d.stream n i with
  | none => d
  | some s =>
    let x := s.record
    let c := (s.queue.map (·.num)).min?.getD s.next
    if c ≤ s.landed then d
    else
      let fresh := s.lens.filter fun e => e.1 < c
      let d := d.setStream n i { s with landed := c, lens := s.lens.filter fun e => c ≤ e.1 }
      let d := d.lmPut n (srLanded x) (leBytes 8 c) false
      let d := d.oadd O.STREAM_BLOCKS fresh.length
      if !srActEn x then d
      else fresh.foldl (fun d e => d.actUpdate ⟨n, srAct x, 0, .landed e.2, n, ⟨0x22, 0, 0, 64, 0, 0, srAct x, []⟩⟩) d

/-- BLOCK_LANDED: the oldest block of a context whose requests are all complete lands and leaves the queue. A Starling source's blocks
leave when they have been delivered. -/
def Dev.blockLand (d : Dev) (n i : Nat) : Dev :=
  match (d.core n).task, d.stream n i with
  | some t, some s =>
    if (d.core n).exc.isSome || srMask s.record ≠ 0 then d
    else
      match s.queue.find? fun b => (d.core n).whole i b with
      | none => d
      | some b =>
        let d := d.onCore n fun c => { c with quietFor := 0 }
        let d := if srOut s.record then d.oadd O.STREAM_BYTES_OUT b.len
          else (d.landData n s.record b.lm b.off (blockData s b)).oadd O.STREAM_BYTES_IN b.len
        (((d.setStream n i { s with queue := s.queue.erase b }).countLanded n i).wake n).larkFeed n i t 16
  | _, _ => d

/-- BLOCK_LANDED. -/
def execBlockLanded (core ctx : Nat) (s : State) : Host.Outcome State Fault Refusal :=
  s.runIf (core < 256 && ctx < 16) fun d => d.blockLand core ctx

/-! ### Bilxel instructions (R386, R388 to R390) -/

/-- Carry out one instruction of a program when it is of kind `op` (R388). -/
def Dev.bilxel (d : Dev) (n i op : Nat) (f : TaskRun → Stream → Nat → Stream ⊕ Nat) : Dev :=
  match (d.core n).task, d.stream n i with
  | some t, some s =>
    match s.prog[s.bpc]? with
    | none => d
    | some w =>
      if (d.core n).exc.isSome || srMode s.record ≠ 1 || s.ended || !s.ready || bxOp w ≠ op then d
      else
        match f t s w with
        | .inl s => d.setStream n i s
        | .inr c => d.larkExc n c 0 0 []
  | _, _ => d

/-- A Bilxel command of a context. -/
def State.bilxel (s : State) (core ctx op : Nat) (f : TaskRun → Stream → Nat → Stream ⊕ Nat) :
    Host.Outcome State Fault Refusal :=
  s.runIf (core < 256 && ctx < 16) fun d => d.bilxel core ctx op f

/-- Set A register `r` and go on. -/
def Stream.seta (s : Stream) (r v : Nat) : Stream := { s with a := setAt s.a r (v % 2 ^ 64), bpc := s.bpc + 1 }
/-- A register `r`. -/
def Stream.geta (s : Stream) (r : Nat) : Nat := (s.a[r]?).getD 0

/-- LDA. -/
def execLda (core ctx : Nat) (s : State) : Host.Outcome State Fault Refusal :=
  s.bilxel core ctx 0x01 fun t s w =>
    .inl (s.seta (bits w 24 2) (if bit w 23 then tdBase (dget 0 t.descs (bits w 0 4)) else srParam s.record (bits w 0 4)))

/-- MOVA. -/
def execMova (core ctx : Nat) (s : State) : Host.Outcome State Fault Refusal :=
  s.bilxel core ctx 0x02 fun _ s w => .inl (s.seta (bits w 24 2) (s.geta (bits w 20 2)))

/-- ADDA. -/
def execAdda (core ctx : Nat) (s : State) : Host.Outcome State Fault Refusal :=
  s.bilxel core ctx 0x03 fun _ s w =>
    .inl (s.seta (bits w 24 2) (s.geta (bits w 24 2) + ofSigned 64 (toSigned 18 (bits w 0 18)) * 2 ^ bits w 20 4))

/-- ADDAP. -/
def execAddap (core ctx : Nat) (s : State) : Host.Outcome State Fault Refusal :=
  s.bilxel core ctx 0x04 fun _ s w => .inl (s.seta (bits w 24 2) (s.geta (bits w 24 2) + srParam s.record (bits w 0 1)))

/-- LOOP. -/
def execLoopCmd (core ctx : Nat) (s : State) : Host.Outcome State Fault Refusal :=
  s.bilxel core ctx 0x05 fun _ s w =>
    .inl { s with c := setAt s.c (bits w 20 3) (bits w 0 16 + 1), loops := (bits w 20 3, s.bpc + 1) :: s.loops, bpc := s.bpc + 1 }

/-- ENDL. -/
def execEndl (core ctx : Nat) (s : State) : Host.Outcome State Fault Refusal :=
  s.bilxel core ctx 0x06 fun _ s w =>
    let k := bits w 20 3
    let v := (s.c[k]?).getD 0 - 1
    let s := { s with c := setAt s.c k v }
    .inl (if v = 0 then { s with loops := s.loops.drop 1, bpc := s.bpc + 1 }
      else { s with bpc := (s.loops.head?.map (·.2)).getD (s.bpc + 1) })

/-- EMIT: a block at As, placed at the ring cursor; it waits while the queue is full. -/
def execEmit (core ctx : Nat) (s : State) : Host.Outcome State Fault Refusal :=
  s.bilxel core ctx 0x07 fun t s w =>
    if 16 ≤ s.queue.length then .inl s
    else
      let a := s.geta (bits w 24 2)
      let len := (bits w 0 11 + 1) * 32
      match s.cursorBlock t core a len none with
      | .inr c => .inr c
      | .inl s => .inl (if bit w 23 then s.seta (bits w 24 2) (a + len) else { s with bpc := s.bpc + 1 })

/-- END. -/
def execEndProg (core ctx : Nat) (s : State) : Host.Outcome State Fault Refusal :=
  s.bilxel core ctx 0x3F fun _ s _ => .inl { s with ended := true }

/-! ### Starling (R396 to R400) -/

/-- A receiver places and lands the `o`-th and following bytes of a delivered block by its own record (R398); whether they landed. -/
def Dev.starlingLand (d : Dev) (m i : Nat) (own : Bool) (b : Block) (o : Nat) (cs : List Chunk) : Dev × Bool :=
  match d.stream m i with
  | none => (d, false)
  | some r =>
    if (d.core m).exc.isSome then (d, false)
    else if own then (d.landData m r.record b.lm (b.off + o) cs, true)
    else
      match if b.off + o = 0 then r.placeAs b.dest b.total else some (r.segLm, r.cursor) with
      | none => (d.larkExc m 0x2E 0 0 [], false)
      | some (lm, cur) =>
        match r.blockOk b.total lm with
        | some c => (d.larkExc m c 0 0 [], false)
        | none => ((d.setStream m i { r with cursor := cur, segLm := lm }).landData m r.record lm (b.off + o) cs, true)

/-- A block has been delivered whole to a receiver, which counts it. -/
def Dev.starlingCount (d : Dev) (m i : Nat) (own : Bool) (b : Block) : Dev :=
  if own || (d.core m).exc.isSome then d
  else
    match d.stream m i with
    | none => d
    | some r =>
      let lens := if b.last then r.lens ++ [(b.num, b.total)] else r.lens
      (d.setStream m i { r with next := b.num + b2n b.last, lens := lens }).countLanded m i

/-- The chapel may use slot `j` of die `die`: the slot's owner, or a chapel not STRICT for a slot of the shared pool (R400); a
written map waits for the next frame (R415). -/
def Dev.slotOpen (d : Dev) (die j chapel : Nat) : Bool :=
  let k := O.STARLING_SLOT_MAP (8 * die + j)
  let o := (mget d.dict.nextFrame k).getD (d.oget k)
  if o = 0xFF then !bit (d.oget (O.CHAPEL chapel)) 17 else o = chapel

/-- Sources of a die with deliverable data for a slot: group, core and context, ascending by group; none in a quiesced octant (R912). -/
def Dev.starlingReady (d : Dev) (die j : Nat) : List (Nat × Nat × Nat) :=
  let all := d.nave.cores.flatMap fun e =>
    if e.1 / 128 ≠ die || e.2.exc.isSome || d.quiescing (4 + e.1 / 32) then []
    else match e.2.task with
      | none => []
      | some t => if !d.slotOpen die j t.chapel then [] else e.2.streams.filterMap fun s =>
          if srMask s.2.record ≠ 0 && s.2.queue.any (e.2.whole s.1) then some (dget 0 t.groups s.1, e.1, s.1) else none
  sortBy (fun a b => decide (a.1 ≤ b.1)) all

/-- STARLING_DELIVERY: in one uncore clock slot `j` serves the next group round-robin: the next 128 bytes of its oldest block that has been
read go to every receiver (R398, R400). -/
def Dev.starlingDeliver (d : Dev) (die j : Nat) : Dev :=
  let l := d.starlingReady die j
  match (l.find? fun e => dget 0 d.nave.rr die < e.1 + 1).or l.head? with
  | none => d
  | some (g, n, i) =>
    match d.stream n i, (d.core n).task with
    | some s, some t =>
      match s.queue.find? fun b => (d.core n).whole i b with
      | none => d
      | some b =>
        let cs := ((blockData s b).drop (b.sent / 32)).take 4
        let k := 32 * cs.length
        let d := { d with nave := { d.nave with rr := mset d.nave.rr die (g + 1) } }
        let d := b.receivers.foldl (fun d m =>
          match (d.onCore m fun c => { c with quietFor := 0 }).starlingLand m i (m = n) b b.sent cs with
          | (d, true) => ((d.oadd O.STARLING_DELIVERED_BYTES k).oadd O.STREAM_BYTES_IN k).wake m
          | (d, false) => d) d
        if b.sent + k < b.len then d.setBlock n i b fun y => { y with sent := b.sent + k }
        else
          let d := b.receivers.foldl (fun d m => d.starlingCount m i (m = n) b) d
          let d := match d.stream n i with
            | some s => d.setStream n i { s with queue := s.queue.erase b }
            | none => d
          let d := if b.receivers.contains n then (d.countLanded n i) else d
          (b.receivers.foldl (fun d m => d.wake m) d).larkFeed n i t 16
    | _, _ => d

/-- STARLING_DELIVERY. -/
def execStarlingDelivery (die slot : Nat) (s : State) : Host.Outcome State Fault Refusal :=
  s.runIf (die < 2 && slot < 8) fun d => d.starlingDeliver die slot

end Sys2Proof.Machine
end

