-- ==== Sys2Proof/Machine/Nodes.lean ====
section
/-! DEFINITION. Machine/Nodes.lean: queues, graphs and nodes of the precentor: their records, how a node retires, fails or is
cancelled, how its cores are aborted, and how a queue halts (chapter 12). -/

namespace Sys2Proof.Machine

/-- A queue in its reset state (Table 12.12). -/
def Queue.reset : Queue :=
  { pqBase := 0, pqSlots := 16, cqBase := 0, cqSlots := 16, timeout := 0, state := .disabled, get := 0, put := 0, latch := none,
    cqPut := 0, cqGet := 0, haltCause := 0, late := 0, lastDone := 0, waits := [], fencing := false, records := [], fresh := [],
    header := 0, vector := false, readAhead := [], enabling := false }

/-- Queue `k` = 16 * owner + q. -/
def Dev.queue (d : Dev) (k : Nat) : Queue := dget Queue.reset d.prec.queues k

/-- Change queue `k`. -/
def Dev.onQueue (d : Dev) (k : Nat) (f : Queue → Queue) : Dev :=
  { d with prec := { d.prec with queues := dset Queue.reset d.prec.queues k (f (d.queue k)) } }

/-- Key of the queue a node belongs to. -/
def Node.qkey (x : Node) : Nat := 16 * x.owner + x.queue

/-- A node or a graph of another description names the same graph. -/
def Graph.is (g : Graph) (owner queue id : Nat) : Bool := g.owner = owner && g.queue = queue && g.id = id

/-- A node belongs to a graph. -/
def Node.ofGraph (x : Node) (owner queue id : Nat) : Bool := x.owner = owner && x.queue = queue && x.graph = id

/-- The live graph of a queue with an id. -/
def Dev.graph (d : Dev) (owner queue id : Nat) : Option Graph := d.prec.graphs.find? fun g => g.is owner queue id

/-- A graph of a queue has ended and its record is not yet written: its number is still in use (R572). -/
def Dev.graphEnding (d : Dev) (k id : Nat) : Bool := ((d.queue k).records ++ (d.queue k).fresh).any fun r => r.kind = 2 && r.graph = id

/-- Change a graph. -/
def Dev.onGraph (d : Dev) (owner queue id : Nat) (f : Graph → Graph) : Dev :=
  { d with prec := { d.prec with graphs := mapIf (fun g => g.is owner queue id) f d.prec.graphs } }

/-- The node accepted as number `k` of the device. -/
def Dev.node (d : Dev) (k : Nat) : Option Node := d.prec.nodes.find? fun x => x.order = k

/-- Change the node accepted as number `k`. -/
def Dev.onNode (d : Dev) (k : Nat) (f : Node → Node) : Dev :=
  { d with prec := { d.prec with nodes := mapIf (fun x => x.order = k) f d.prec.nodes } }

/-- The node of a graph with an id. -/
def Dev.nodeIn (d : Dev) (owner queue graph id : Nat) : Option Node :=
  d.prec.nodes.find? fun x => x.ofGraph owner queue graph && x.id = id

/-- The node has reached an end: RETIRED, FAILED or CANCELLED. -/
def NState.ended : NState → Bool
  | .retired => true
  | .failed => true
  | .cancelled => true
  | _ => false

/-- The node waits to run: ACCEPTED, WAITING or READY. -/
def NState.idle : NState → Bool
  | .accepted => true
  | .waiting => true
  | .ready => true
  | _ => false

/-- Packets and nodes of the owner are served: the kernel, or an ACTIVE tenant (Table 14.2). -/
def Dev.ownerLive (d : Dev) (owner : Nat) : Bool := owner = 256 || d.oget (O.TENANT_STATE owner) = 1

/-! ### Completion records -/

/-- An empty record. -/
def CRec.zero : CRec := ⟨0, 0, 0xFFFFFFFF, 0, 0, 0, 0, 0, 0, 0, 0, 0, 0, false, false, 0, 0, 0, 0, false⟩

/-- The 64 bytes of a record (Table 12.8). -/
def CRec.bytes (r : CRec) : List Byte :=
  leBytes 64 (r.packet % 2 ^ 32 * 2 ^ 448 + r.aux % 2 ^ 32 * 2 ^ 416 + r.core % 2 ^ 32 * 2 ^ 384 + r.choir % 64 * 2 ^ 368 +
    r.trapCode % 2 ^ 16 * 2 ^ 352 + r.voiceMask % 2 ^ 32 * 2 ^ 320 + r.addr % 2 ^ 64 * 2 ^ 256 + r.pc % 2 ^ 64 * 2 ^ 192 +
    r.ftime % 2 ^ 64 * 2 ^ 128 + min r.dispatches 65535 * 2 ^ 96 + r.node % 2 ^ 32 * 2 ^ 64 + r.opcode % 256 * 2 ^ 56 +
    r.graph % 2 ^ 16 * 2 ^ 40 + b2n r.unverified * 2 ^ 35 + b2n r.restartable * 2 ^ 34 + r.sev % 4 * 2 ^ 32 +
    r.detail % 256 * 2 ^ 16 + r.cause % 256 * 2 ^ 8 + r.kind % 256)

/-- A record of a queue awaits the next step 6; an owner that is torn down gets none (R601). -/
def Dev.post (d : Dev) (k : Nat) (r : CRec) : Dev :=
  if d.ownerLive (k / 16) then d.onQueue k fun q => { q with fresh := q.fresh ++ [r] } else d

/-- The NODE record of a node with an outcome. -/
def Node.record (x : Node) (cause detail sev : Nat) (r : Report) : CRec :=
  { CRec.zero with
    packet := x.count, core := if r.core < 256 then r.core else 0xFFFFFFFF, choir := r.choir, trapCode := r.trap, voiceMask := r.mask, addr := r.addr, pc := r.pc,
    dispatches := x.dispatches, node := x.id, opcode := x.opc, graph := x.graph, unverified := x.unverified,
    restartable := x.restartable, sev := sev, detail := detail, cause := cause, kind := 1, irq := x.irq }

/-- A report that names no core. -/
def Report.none : Report := ⟨2, 0, 0, 0xFFFFFFFF, 0, 0, 0, 0, 0, false⟩

/-- Log an error of a node at a severity (R602, R658, R665). -/
def Dev.nodeLog (d : Dev) (x : Node) (cause detail : Nat) (sev : Sev) (r : Report) : Dev :=
  d.raise { cause := cause, detail := detail, sev := sev, owner := x.owner, graph := x.graph, node := x.id, queue := x.queue,
            addr := r.addr, info := r.pc, eng := if r.core < 256 then (if r.stream then larkEng r.core else r.core) else if 2 ^ 32 ≤ r.core then r.core - 2 ^ 32 else 0x3000 }

/-! ### Graph end -/

/-- A graph that is SEALED ends when every node of it has ended: its GRAPH record is posted, and its nodes leave the pool (R572, R583,
R593). -/
def Dev.graphCheck (d : Dev) (owner queue id : Nat) : Dev :=
  match d.graph owner queue id with
  | none => d
  | some g =>
    let ns := d.prec.nodes.filter fun x => x.ofGraph owner queue id
    if !g.isSealed || ns.any (fun x => !x.state.ended) then d
    else
      let bad := (ns.filter fun x => x.state ≠ .retired).length
      let failed := g.failed || bad ≠ 0
      let d := { d with prec := { d.prec with
        graphs := d.prec.graphs.filter fun g => !g.is owner queue id,
        nodes := d.prec.nodes.filter fun x => !x.ofGraph owner queue id } }
      d.post (16 * owner + queue)
        { CRec.zero with
          packet := g.sealCount, aux := bad, node := if failed then g.firstFailed else 0, opcode := 3, graph := id,
          cause := if failed then g.cause else 0, detail := if failed then g.detail else 0, kind := 2, irq := g.sealIrq }

/-! ### Stopping work on cores -/

/-- Cores that hold the current dispatch of a node. -/
def Dev.coresOf (d : Dev) (x : Node) : List Nat :=
  (d.nave.cores.filter fun e => match e.2.task with
    | some t => t.order = x.order && t.dispatch = x.dispatches
    | none => false).map (·.1)

/-- Free the Starling groups of a task (R397). -/
def Dev.groupsFree (d : Dev) (t : TaskRun) : Dev :=
  let mine := t.groups.map (·.2)
  let gone := d.nave.groups.filter fun g => mine.contains g
  let d := { d with nave := { d.nave with groups := d.nave.groups.filter fun g => !mine.contains g } }
  gone.foldl (fun d g => d.oinc (O.STARLING_FREE (g / 256))) d

/-- The cores that hold a node's dispatch for the end of an abort (R632) let it go. -/
def Dev.dropHeld (d : Dev) (x : Node) : Dev :=
  (d.nave.cores.filter fun e => (e.2.next.map (·.order)) = some x.order).foldl
    (fun d e => (e.2.next.toList.foldl Dev.groupsFree d).onCore e.1 fun c => { c with next := none }) d

/-- The precentor aborts the cores of a node; `timer` marks an abort by a timer (R591). A core that has raised a cause of its own
keeps it (R146). -/
def Dev.abortCores (d : Dev) (x : Node) (timer : Bool) : Dev :=
  let d := d.dropHeld x
  (d.coresOf x).foldl (fun d n => d.coreExc n ⟨0, b2n timer, 0, 0, 0, 0, 0, []⟩) d

/-- The report of a core's exception (R147); the Lark's carries no slot. -/
def Exc.report (e : Exc) (kind n : Nat) : Report := ⟨kind, e.cause, e.detail, n, e.slot % 64, e.pc, e.addr, e.mask, e.trap, e.slot = 64⟩

/-- A cause that forbids retry, which a core of the node has raised in the clock in which the precentor aborts it (R146). -/
def Dev.ownCause (d : Dev) (x : Node) : Option Report :=
  (d.coresOf x).findSome? fun n => match (d.core n).exc with
    | some e => if e.forbids && d.excNow n then some (e.report 2 n) else none
    | none => none

/-- Forget what the fault ring holds of a node (R494, R500): its records are skipped, its waiting ones dropped. -/
def Dev.faultForget (d : Dev) (x : Node) : Dev :=
  let mine := fun (r : FaultRec) => r.owner = x.owner && r.queue = x.queue && r.graph = x.graph && r.node = x.id
  { d with tr := { d.tr with tracks := d.tr.tracks.filter fun t => !mine t.rcd,
                             waiting := d.tr.waiting.filter fun r => !mine r } }

/-! ### Outcomes of a node -/

/-- A node leaves for an end state. -/
def Dev.nodeEnd (d : Dev) (x : Node) (s : NState) : Dev :=
  ((d.faultForget x).onNode x.order fun y => { y with state := s, reports := [] }).onQueue x.qkey
    fun q => { q with lastDone := d.time }

/-- Cancel one node (R583): detail 0x0C of Table 12.11. -/
def Dev.nodeCancel (d : Dev) (x : Node) : Dev := (d.nodeEnd x .cancelled).post x.qkey (x.record 0x31 0x0C 0 .none)

/-- Cancel, in acceptance order, the nodes of a graph that depend on a node that has failed or was cancelled, or every idle node
when `all` is set (R583). -/
def Dev.cascade (d : Dev) (owner queue graph : Nat) (all : Bool) : Dev :=
  (d.prec.nodes.filter fun x => x.ofGraph owner queue graph).foldl
    (fun d x =>
      let lost := x.preds.any fun p => match d.nodeIn owner queue graph p with
        | some y => y.state = .failed || y.state = .cancelled
        | none => false
      if x.state.idle && (all || lost) then d.nodeCancel x else d) d

/-- Record the first failed node of a graph. -/
def Dev.firstFail (d : Dev) (x : Node) (cause detail : Nat) : Dev :=
  d.onGraph x.owner x.queue x.graph fun g =>
    if g.cause = 0 && g.firstFailed = 0 then { g with firstFailed := x.id, cause := cause, detail := detail } else g

/-- Halt a queue (R595): it fetches nothing; an OPEN graph of it fails and ends. The log entry carries `addr`, where an access failed, and a
failed check is counted (R658). -/
def Dev.haltQueue (d : Dev) (k cause detail aux opc addr : Nat) (logIt : Bool) : Dev :=
  if (d.queue k).state ≠ .enabled then d
  else
    let d := d.onQueue k fun q => { q with state := .halted, haltCause := cause * 256 + detail, readAhead := [], fencing := false }
    let d := d.oinc O.QUEUE_HALTS
    let d := if logIt then (d.raise { cause := cause, detail := detail, owner := k / 16, queue := k % 16, addr := addr }).violated cause else d
    let d := d.post k { CRec.zero with
      packet := (d.queue k).get, aux := aux, opcode := opc, cause := cause, detail := detail, kind := 4, irq := true }
    (d.prec.graphs.filter fun g => g.owner = k / 16 && g.queue = k % 16 && !g.isSealed).foldl
      (fun d g =>
        let d := (d.prec.nodes.filter fun x => x.ofGraph g.owner g.queue g.id && !x.state.ended).foldl
          (fun d x => d.nodeEnd x .cancelled) d
        (d.onGraph g.owner g.queue g.id fun g =>
          { g with isSealed := true, failed := true, cause := if g.cause = 0 then cause else g.cause,
                   detail := if g.cause = 0 then detail else g.detail }).graphCheck g.owner g.queue g.id) d

/-- A node fails with a cause that the logs hold (R583, R584): its record, its dependants cancelled, and its graph checked. At
CONTAINED severity the owner's context is torn down, or the kernel's queue halts (R488, R587, R669). STOP_ON_FAIL cancels the
graph's idle nodes and aborts its running ones, those that are not restartable as timed-out tasks. -/
def Dev.nodeFailed (d : Dev) (x : Node) (cause detail : Nat) (sev : Sev) (r : Report) : Dev :=
  let contain := fun (d : Dev) (x : Node) c => if x.owner = 256 then d.haltQueue x.qkey c detail 0 0 0 false else d
  let d := (((d.nodeEnd x .failed).post x.qkey (x.record cause detail sev.code r)).firstFail x cause detail)
  let d := if sev = .contained then contain d x cause else d
  let d := d.cascade x.owner x.queue x.graph false
  let stop := match d.graph x.owner x.queue x.graph with
    | some g => g.isSealed && g.stopOnFail
    | none => false
  let d := if stop then
      let d := (d.prec.nodes.filter fun y => y.ofGraph x.owner x.queue x.graph && y.state = .running).foldl
        (fun d y =>
          let d := d.abortCores y false
          if y.restartable then d.nodeCancel y
          else
            let d := d.nodeLog y 7 0 .contained .none
            contain ((d.nodeEnd y .failed).post y.qkey (y.record 7 0 2 .none)) y 7) d
      d.cascade x.owner x.queue x.graph true
    else d
  d.graphCheck x.owner x.queue x.graph

/-- A node fails with a cause (R583, R584, R602): logged, then ended. -/
def Dev.nodeFail (d : Dev) (x : Node) (cause detail : Nat) (sev : Sev) (r : Report) : Dev :=
  (d.nodeLog x cause detail sev r).nodeFailed x cause detail sev r

/-- A node becomes READY; its first READY tick stands (R585, R622). -/
def Dev.nodeReady (d : Dev) (x : Node) : Dev :=
  d.onNode x.order fun y => { y with state := .ready, readyAt := if y.readyAt = 0 then d.time else y.readyAt, reports := [] }

/-- A node retires (R581): counted, its record with CR, which names the first core that reported (R592), its successors released, its graph
checked. -/
def Dev.nodeRetire (d : Dev) (x : Node) (core : Nat) : Dev :=
  let d := (d.nodeEnd x .retired).oinc O.NODES_RETIRED
  let d := if x.tablePoison then
      d.raise { cause := 1, detail := 6, sev := .corrected, owner := x.owner, graph := x.graph, node := x.id, queue := x.queue }
    else d
  let d := if x.cr then d.post x.qkey (x.record 0 0 0 { Report.none with core := core }) else d
  let d := (d.prec.nodes.filter fun y => y.ofGraph x.owner x.queue x.graph && y.preds.contains x.id).foldl
    (fun d y =>
      let d := d.onNode y.order fun z => { z with left := z.left - 1 }
      if y.left = 1 && y.state = .waiting then d.nodeReady { y with left := 0 } else d) d
  d.graphCheck x.owner x.queue x.graph

/-- A node that the precentor aborts for `cause`, 0 for none to report: a cause of its own that forbids retry, raised in that clock, wins
its completion record, and both are logged (R146); otherwise `f` has it. -/
def Dev.ownFails (d : Dev) (x : Node) (cause : Nat) (sev : Sev) (timer : Bool) (f : Dev → Dev) : Dev :=
  match d.ownCause x with
  | some r =>
    let d := if cause = 0 then d else d.nodeLog x cause 0 sev .none
    (d.abortCores x timer).nodeFail x r.cause r.detail sev r
  | none => f (d.abortCores x timer)

/-- A running task is taken off its cores and becomes READY again, with DISPATCHES + 1 (R608, R627, R686, R690). -/
def Dev.nodeRequeue (d : Dev) (x : Node) : Dev :=
  d.ownFails x 0 .note false fun d =>
    (d.nodeReady x).onNode x.order fun y => { y with dispatches := y.dispatches + 1, counted := true, grace := false }

/-- Add a report to a running node (R562 step 1); one of a dispatch that is over is dropped (R591). -/
def Dev.report (d : Dev) (order dispatch : Nat) (r : Report) : Dev :=
  d.onNode order fun x => if x.state = .running && x.dispatches = dispatch then { x with reports := x.reports ++ [r] } else x

/-- A non-task node is complete. -/
def Dev.reportDone (d : Dev) (x : Node) : Dev := d.report x.order x.dispatches { Report.none with kind := 1 }

end Sys2Proof.Machine
end

