-- ==== Sys2Proof/Machine/Fault.lean ====
section
/-! DEFINITION. Machine/Fault.lean: fault records, the ring, batches and their page requests, FAULT_RESUME, and the replies of
the host's translation agent (chapter 10). -/

namespace Sys2Proof.Machine

/-- The 64 bytes of a fault record (Table 10.9). -/
def FaultRec.bytes (r : FaultRec) : List Byte :=
  leBytes 64 (r.ftime % 2 ^ 64 * 2 ^ 448 + r.node % 2 ^ 32 * 2 ^ 416 + r.seq % 2 ^ 32 * 2 ^ 384 + r.graph % 2 ^ 16 * 2 ^ 368 +
    r.queue % 16 * 2 ^ 364 + r.owner % 512 * 2 ^ 355 + r.window % 64 * 2 ^ 349 + b2n r.windowValid * 2 ^ 348 +
    r.level % 16 * 2 ^ 344 + r.cause % 256 * 2 ^ 336 + r.detail % 256 * 2 ^ 328 + r.engine % 2 ^ 16 * 2 ^ 312 +
    r.access % 16 * 2 ^ 308 + b2n r.pri * 2 ^ 307 + b2n r.truncated * 2 ^ 306 + b2n r.host * 2 ^ 305 +
    b2n r.restartable * 2 ^ 304 + min r.dispatches 65535 * 2 ^ 288 + r.va % 2 ^ 64 * 2 ^ 192 + r.entry % 2 ^ 64 * 2 ^ 128)

/-- No ring is set (R484, R504). -/
def Dev.ringUnset (d : Dev) : Bool := d.oget O.FAULT_RING_BASE = 0 || d.tr.ringUnset

/-- The ring takes no record: it is full (R482), or lies in host memory while the PF's Bus Master Enable is 0 (R533). -/
def Dev.ringFull (d : Dev) : Bool :=
  (d.oget O.FAULT_PUT + 2 ^ 32 - d.oget O.FAULT_GET) % 2 ^ 32 = 4096 || (d.oget O.FAULT_RING_SPACE = 0 && !(d.func 0).busMaster)

/-- A record's page goes to PRI (R477, R491). -/
def FaultRec.wantsPri (r : FaultRec) : Bool := r.host && r.detail = 9

/-- Write bytes of the ring at an offset; none where the ring is unreachable or outside device memory (R481, R504). -/
def Dev.ringPut (d : Dev) (off : Nat) (bs : List Byte) : Option Dev :=
  let a := d.oget O.FAULT_RING_BASE + off
  if d.oget O.FAULT_RING_SPACE = 0 then some (d.postWrite .ring a bs false)
  else if d.reachable a && d.reachable (a + bs.length - 1) then some (d.dpaWriteAll 259 256 a bs false)
  else none

/-- The engine of a report. -/
def engOf (e : Nat) : Nat := if e < 256 then e else 2 ^ 32 + e

/-- A ring write cannot be made: NOTE event, and the ring is unset; nodes with a record still waiting, or among `now`, the records being
written, are handled as R484 states (R504). -/
def Dev.ringLost (d : Dev) (now : List FaultRec) : Dev :=
  let w := now ++ d.tr.waiting
  let d := Dev.noteEvent { d with tr := { d.tr with ringUnset := true, waiting := [] } } 0x37 0 0x3000
  (d.prec.nodes.filter fun x => w.any fun r => r.owner = x.owner && r.queue = x.queue && r.graph = x.graph && r.node = x.id).foldl
    (fun d x =>
      let first := (d.tr.tracks.map (·.rcd) ++ w).find? fun r =>
        r.owner = x.owner && r.queue = x.queue && r.graph = x.graph && r.node = x.id
      let c := (first.map (·.cause)).getD 1
      let t := (first.map (·.detail)).getD 0
      if x.state = .awaitResume then
        d.nodeFail x c t .contained
          { Report.none with addr := (first.map (·.va)).getD 0,
                             core := match first with | some f => engOf f.engine | none => 0xFFFFFFFF }
      else d.onNode x.order fun x => { x with reports := x.reports.map fun (r : Report) => if r.kind = 3 then { r with kind := 4 } else r }) d

/-- The function a record's page request is for. -/
def FaultTrack.fn (t : FaultTrack) : Nat := fnOf t.rcd.owner

/-- The page requests of a function that the host has not answered. -/
def Dev.pagesOut (d : Dev) (fn : Nat) : Nat := (d.tr.tracks.filter fun t => t.fn = fn && t.pri = 1).length

/-- Send the page requests of a function that wait, in their order, while its Outstanding Page Request Allocation lasts: PRG index SEQ mod
512, Last on the final request of a group, which one batch makes for one function (R491). -/
def Dev.pagesGo (d : Dev) (fn : Nat) : Nat → Dev
  | 0 => d
  | f + 1 =>
    match d.tr.tracks.filter fun t => t.fn = fn && t.pri = 4 && t.rcd.seq ≠ d.tr.batchSeq with
    | [] => d
    | t :: ts =>
      if (d.func fn).prAlloc ≤ d.pagesOut fn then d
      else
        let u := match d.window t.rcd.owner t.rcd.window with
          | some w => w.hostBase + (t.rcd.va - w.base)
          | none => t.rcd.va
        let last := !ts.any fun y => y.rcd.seq = t.rcd.seq
        let d := { d with tr := { d.tr with tracks := mapIf (fun y => y = t) (fun y => { y with pri := 1, sentAt := d.time }) d.tr.tracks } }
        Dev.pagesGo ((d.emit (.page fn (u / 4096 * 4096) (t.rcd.seq % 512) (t.rcd.access = 1 || t.rcd.access = 2) last)).oinc
          O.PRI_PAGE_REQUESTS) fn f

/-- The page requests of a batch that has closed, one group for each function (R491). -/
def Dev.pageRequests (d : Dev) (seq : Nat) : Dev :=
  let mine := d.tr.tracks.filter fun t => t.rcd.seq = seq && t.pri = 4
  let fns := mine.foldl (fun (l : List Nat) t => if l.contains t.fn then l else l ++ [t.fn]) []
  fns.foldl (fun d fn => d.pagesGo fn (d.tr.tracks.length + 1)) d

/-- Close the open batch (R485, R487): the status doubleword, the page requests, the interrupt. -/
def Dev.batchClose (d : Dev) : Dev :=
  if d.tr.batchCount = 0 then d
  else
    let seq := d.tr.batchSeq
    let next := if seq = 2 ^ 32 - 1 then 1 else seq + 1
    let d := (d.ringPut 262144 (leBytes 8 (d.oget O.FAULT_PUT + seq * 2 ^ 32))).getD (d.ringLost [])
    let d := { d with tr := { d.tr with batchSeq := next, batchCount := 0 } }
    let d := (d.oset O.FAULT_LAST_CLOSED seq).oinc O.FAULT_BATCHES
    Dev.msix (d.pageRequests seq) 0 0

/-- Write one record to a free slot (R479, R481, R486, R505), and tell whether the ring took it. -/
def Dev.faultPut (d : Dev) (r : FaultRec) : Dev × Bool :=
  let prion := (d.func (fnOf r.owner)).priEnable
  let r := { r with ftime := d.time, seq := d.tr.batchSeq, pri := r.wantsPri && prion }
  let put := d.oget O.FAULT_PUT
  match d.ringPut (64 * (put % 4096)) r.bytes with
  | none => (d.ringLost [r], false)
  | some d =>
    let d := (d.oset O.FAULT_PUT ((put + 1) % 2 ^ 32)).oinc O.FAULT_RECORDS
    let track : FaultTrack := ⟨r, false, false, if !r.wantsPri then 0 else if prion then 4 else 3, 0⟩
    let n := d.tr.batchCount + 1
    let d := { d with tr := { d.tr with tracks := d.tr.tracks ++ [track], batchCount := n,
                                        batchFirst := if n = 1 then d.time else d.tr.batchFirst } }
    (if n = 32 then d.batchClose else d, true)

/-- Log a failed check (R505, R658) and count it. -/
def Dev.faultLog (d : Dev) (r : FaultRec) : Dev :=
  (d.raise { cause := r.cause, detail := r.detail, owner := r.owner, eng := r.engine, addr := r.va, queue := r.queue,
             graph := r.graph, node := r.node }).oinc O.VIOLATIONS

/-- A record is written, or waits behind those that wait or while the ring is full (R483). -/
def Dev.faultOne (d : Dev) (r : FaultRec) : Dev :=
  let d := d.faultLog r
  if d.ringUnset then d
  else if d.ringFull || !d.tr.waiting.isEmpty then
    let d := if d.tr.ringWaited then d else d.noteEvent r.cause r.detail 0x3000
    Dev.oinc { d with tr := { d.tr with waiting := d.tr.waiting ++ [r], ringWaited := true } } O.RING_FULL_WAITS
  else (d.faultPut r).1

/-- The records of one abort. -/
def Dev.faultWrite (d : Dev) (rs : List FaultRec) : Dev := rs.foldl Dev.faultOne d

/-- Write the records that wait, in their order, while slots are free (R483). -/
def Dev.faultFlush (d : Dev) : Nat → Dev
  | 0 => d
  | f + 1 =>
    match d.tr.waiting with
    | [] => { d with tr := { d.tr with ringWaited := false } }
    | r :: rs =>
      if d.ringFull || d.ringUnset then d
      else Dev.faultFlush (Dev.faultPut { d with tr := { d.tr with waiting := rs } } r).1 f

/-- A write of FAULT_GET (R482). -/
def Dev.faultGet (d : Dev) (v : Nat) : WRes :=
  let get := d.oget O.FAULT_GET
  if (v + 2 ^ 32 - get) % 2 ^ 32 ≤ (d.oget O.FAULT_PUT + 2 ^ 32 - get) % 2 ^ 32 then
    .ok (Dev.faultFlush (d.oset O.FAULT_GET v) 8192)
  else .error stRange

/-- A write of FAULT_RING_BASE (R504). -/
def Dev.faultBase (d : Dev) (v : Nat) : WRes :=
  if d.oget O.FAULT_PUT ≠ d.oget O.FAULT_GET then .error stState
  else
    let d := d.oset O.FAULT_RING_BASE v
    .ok { d with tr := { d.tr with ringUnset := false } }

/-- The timed close of a batch at a tick (R486). -/
def Dev.batchTick (d : Dev) : Dev :=
  if d.tr.batchCount ≠ 0 && d.tr.batchFirst + 20000 ≤ d.time then
    let seq := d.tr.batchSeq
    let d := d.batchClose
    { d with tr := { d.tr with timedClose := some (d.time, seq) } }
  else d

/-- A track belongs to a node. -/
def FaultTrack.of (t : FaultTrack) (x : Node) : Bool :=
  t.rcd.owner = x.owner && t.rcd.queue = x.queue && t.rcd.graph = x.graph && t.rcd.node = x.id

/-- FAULT_RESUME (R489): every record of a closed batch at or before `s`, of a selected owner, not yet acted on; a batch that this
tick closed is none of them (R499), nor is any of an owner that is TEARING_DOWN (R500, R695). -/
def Dev.faultResume (d : Dev) (s owner : Nat) (all retry : Bool) : Dev :=
  let closed := fun (t : FaultTrack) => t.rcd.seq ≠ d.tr.batchSeq && d.tr.timedClose ≠ some (d.time, t.rcd.seq) && (s + 2 ^ 32 - t.rcd.seq) % 2 ^ 32 < 2 ^ 31
  let sel := fun (t : FaultTrack) => !t.acted && closed t && (all || t.rcd.owner = owner) && t.rcd.restartable &&
    d.oget (O.TENANT_STATE t.rcd.owner) ≠ 2
  { d with tr := { d.tr with tracks := mapIf sel (fun t => { t with acted := true, retry := retry }) d.tr.tracks } }

/-- What the resumptions say of a node that awaits them (R490). -/
def Dev.resumeCheck (d : Dev) (x : Node) : Dev :=
  let ts := d.tr.tracks.filter fun t => t.of x
  let waits := d.tr.waiting.any fun r => r.owner = x.owner && r.queue = x.queue && r.graph = x.graph && r.node = x.id
  let first := (ts.map (·.rcd)).head?
  if d.oget (O.TENANT_STATE x.owner) = 2 then d
  else if ts.any (fun t => (t.acted && !t.retry) || t.pri = 3) then
    d.nodeFail x ((first.map (·.cause)).getD 1) ((first.map (·.detail)).getD 0) .contained
      { Report.none with addr := (first.map (·.va)).getD 0,
                         core := match first with | some f => engOf f.engine | none => 0xFFFFFFFF }
  else if !waits && !ts.isEmpty && ts.all (fun t => t.acted && t.pri ≠ 1 && t.pri ≠ 4) then
    let poison := ts.any fun t => t.rcd.detail = 6
    ((d.faultForget x).nodeReady x).onNode x.order fun y => { y with tablePoison := y.tablePoison || poison }
  else d

/-- TIMEOUT of a TASK in µs (Table 12.5). -/
def tkTimeout (p : Nat) : Nat := bits p 248 32

/-- The completion timer of a task, or the timer of a WAIT, is due (R587). -/
def Node.timeoutDue (x : Node) (now : Nat) : Bool :=
  let t := if x.opc = 1 then tkTimeout x.body else if x.opc = 5 then bits x.body 96 32 else 0
  t ≠ 0 && !x.timerSpent && (x.state = .ready || x.state = .running || x.state = .awaitResume) && x.readyAt + 1000 * t ≤ now

/-- A node aborts for a batch cause (R488, R484, R493); a timer of it that is due in the same tick has lost, and does not fire again
(R494; assumption 80). -/
def Dev.batchAbort (d : Dev) (x : Node) (r : Report) : Dev :=
  let rs := (d.tr.tracks.filter fun t => t.of x).map (·.rcd) ++
    d.tr.waiting.filter fun r => r.owner = x.owner && r.queue = x.queue && r.graph = x.graph && r.node = x.id
  let pages := rs.map (·.page)
  let same := !x.lastPages.isEmpty && pages.all fun p => x.lastPages.contains p
  let n := if same then x.noProgress + 1 else 0
  if !x.restartable || r.kind = 4 then d.nodeFail x r.cause r.detail .contained r
  else if same && d.oget O.FAULT_RETRY_LIMIT ≤ n then (d.nodeFail x r.cause r.detail .contained r).oinc O.NO_PROGRESS_FAILS
  else d.onNode x.order fun y =>
    { y with state := .awaitResume, lastPages := pages, noProgress := n, reports := [], timerSpent := y.timerSpent || y.timeoutDue d.time }

/-- The record of a failed check of a node that is not a task (R599). -/
def nodeRec (x : Node) (eng access va : Nat) (f : TFail) : FaultRec :=
  { ftime := 0, node := x.id, seq := 0, graph := x.graph, queue := x.queue, owner := x.owner, window := f.win,
    windowValid := f.winValid, level := f.level, cause := f.cause, detail := f.detail, engine := eng, access := access,
    pri := false, truncated := false, host := f.host, restartable := x.restartable, dispatches := min 65535 x.dispatches,
    va := va, entry := f.entry }

/-- An access of a node that is not a task fails a check: its records are written, and the node is reported aborted (R488, R579,
R599); a host check is no batch cause. -/
def Dev.nodeFault (d : Dev) (x : Node) (eng : Nat) (rs : List FaultRec) : Dev :=
  match rs with
  | [] => d
  | r :: _ =>
    let batch := r.cause ≤ 3
    let d := if batch then d.faultWrite (batchRecs rs) else d
    d.report x.order x.dispatches
      { Report.none with kind := if !batch then 2 else if d.ringUnset then 4 else 3, cause := r.cause, detail := r.detail,
                         addr := r.va, core := engOf eng }

/-! ### Replies of the host -/

/-- An ATS Translation Completion (R477) of the request it answers: a reply that grants the access is installed in the ATC for the
window that asked; any other is kept for the access that waits, one that lacks the right it asked for as a denial (R465). -/
def Dev.atsCompletion (d : Dev) (fn : Nat) (a : AtsReply) : Dev :=
  let page := a.u / 4096
  match d.host.atsSent.find? fun r => r.1 = fn && r.2.1 = page && r.2.2.2 = a.write with
  | none => d
  | some ask =>
    let d := { d with host := { d.host with atsSent := d.host.atsSent.erase ask } }
    let owner := if fn = 0 then 256 else fn - 1
    let keep := fun (a : AtsReply) => { d with host := { d.host with atsReplies := d.host.atsReplies ++ [(fn, a)] } }
    if a.kind ≠ 0 then keep a
    else if !(if a.write then a.w else a.r) then keep { a with kind := 2 }
    else
      let e : TlbEntry := ⟨owner, ask.2.2.1, false, a.u / a.size * a.size, a.size, a.pa / a.size * a.size, a.r, a.w, false⟩
      let rest := d.tr.atc.filter fun x => !(x.owner = e.owner && x.win = e.win && x.page = e.page && x.span = e.span)
      { d with tr := { d.tr with atc := (e :: rest).take 4096 } }

/-- The first cached entry that an access meets has a parity error: a leaf of the engine's µTLB or of its die's STLB, a walk-cache entry,
or an ATC entry. It is discarded and counted (R502). -/
def Dev.entryParity (d : Dev) (eng owner va : Nat) : Dev :=
  match d.windowAt owner va with
  | none => d
  | some (win, w) =>
    let die := dieOfEngine eng
    let sets := [2048 * die + stlbSet va false, 2048 * die + stlbSet va true]
    let u := w.hostBase + (va - w.base)
    let leaf := fun (e : TlbEntry) => e.hit owner win va
    let walk := fun (e : WalkEntry) => e.owner = owner && e.win = win && e.tag = va / 2 ^ 28
    let atc := fun (e : TlbEntry) => e.owner = owner && e.win = win && e.page ≤ u && u < e.page + e.span
    let count := fun (d : Dev) => d.oinc O.TRANSLATION_PARITY
    if w.home = 3 then
      if d.tr.atc.any atc then count { d with tr := { d.tr with atc := d.tr.atc.filter fun e => !atc e } } else d
    else if (dget [] d.tr.utlb eng).any leaf then
      count { d with tr := { d.tr with utlb := dset [] d.tr.utlb eng ((dget [] d.tr.utlb eng).filter fun e => !leaf e) } }
    else if sets.any fun k => (dget [] d.tr.stlb k).any leaf then
      count { d with tr := { d.tr with stlb := sets.foldl (fun m k => dset [] m k ((dget [] m k).filter fun e => !leaf e)) d.tr.stlb } }
    else if (dget [] d.tr.walk die).any walk then
      count { d with tr := { d.tr with walk := dset [] d.tr.walk die ((dget [] d.tr.walk die).filter fun e => !walk e) } }
    else d

/-! ### Accesses in flight (R455, R471, R478) -/

/-- How the stores that a core's store buffers hold came by their sectors. -/
def Core.storing (c : Core) : List Via :=
  (c.sb ++ c.choirs.flatMap fun h => match h.2.wait with
    | .stores rest _ => rest
    | _ => []).flatMap (·.vias)

/-- How the host requests that a core's Lark has yet to send came by their addresses. -/
def Core.asking (c : Core) : List Via :=
  (c.acopies.flatMap fun a => a.todo.map (·.1)) ++
    c.streams.flatMap fun s => (s.2.queue.filter fun b => !b.todo.isEmpty).flatMap fun b => b.pages.map (·.via)

/-- How the voices of a core's loads came by the lines of device memory that they await. -/
def Core.loading (c : Core) : List Via :=
  let owner := (c.task.map (·.owner)).getD 256
  c.choirs.flatMap fun h => match h.2.load with
    | none => []
    | some l => (l.voices.filter fun v => !v.2.1 && (l.lines.contains (v.2.2.1 / 128) || l.todo.any fun r => r.dpa / 128 = v.2.2.1 / 128)).map
        fun v => ⟨owner, v.2.2.2, 0, false, true, l.epoch⟩

/-- Accesses that have been translated, and have neither returned their data nor been acknowledged. -/
def Dev.flights (d : Dev) : List Via :=
  ((d.host.reads.filter fun r => !r.abandoned).map (·.via)) ++ d.host.held.map (·.via) ++
    d.nave.cores.flatMap fun e => e.2.storing ++ e.2.asking ++ e.2.loading

/-- Host requests that have been translated and not been issued on the posted or the non-posted path. -/
def Dev.unsent (d : Dev) : List Via :=
  ((d.host.reads.filter fun r => !r.abandoned && !r.sent).map (·.via)) ++ d.host.held.map (·.via) ++
    d.nave.cores.flatMap fun e => (e.2.storing ++ e.2.asking).filter (·.host)

/-- An invalidation awaits an access: a translation that it selects gave the access its address, before it began (R471). -/
def Inval.awaits (i : Inval) (v : Via) : Bool :=
  v.cached && v.epoch ≤ i.epoch && (i.mode = 0 || (v.owner = i.owner && (i.mode = 1 || (i.base ≤ v.va && v.va < i.base + i.len))))

/-- An ATS invalidation awaits an access. -/
def AtsInval.awaits (i : AtsInval) (v : Via) : Bool :=
  v.host && v.cached && v.epoch ≤ i.epoch && v.fn = i.fn && i.lo / 4096 ≤ v.u / 4096 && v.u < i.lo + i.len

/-- The completions of the ATS invalidations that await no request any more, in their order (R478); one of a function in an FLR completes
with its step 4 (R546). -/
def Dev.atsInvGo (d : Dev) : Dev :=
  if d.host.atsInvs.isEmpty then d
  else
    let busy := d.unsent
    let (wait, done) := d.host.atsInvs.partition fun i => (d.func i.fn).inFlr || busy.any i.awaits
    done.foldl (fun d i => d.emit (.invDone i.fn i.tag)) { d with host := { d.host with atsInvs := wait } }

/-- An ATS Invalidate Request (R478): the entries of its function that overlap the range go, and the completion is sent when the translated
requests that used them have been issued; that is looked at when it comes and at every tick. -/
def Dev.atsInvalidate (d : Dev) (fn addr size tag : Nat) : Dev :=
  let owner := if fn = 0 then 256 else fn - 1
  let hit := fun (e : TlbEntry) => e.owner = owner && e.page < addr + size && addr < e.page + e.span
  let i : AtsInval := ⟨fn, tag, addr, size, d.tr.epoch⟩
  let d := { d with tr := { d.tr with atc := d.tr.atc.filter fun e => !hit e, epoch := d.tr.epoch + 1 },
                    host := { d.host with atsInvs := d.host.atsInvs ++ [i] } }
  (d.atsInvGo).oinc O.ATS_INVALIDATIONS

/-- The host answers, or has not answered in time, a page request group (R490). -/
def Dev.prgEnd (d : Dev) (fn prg pri : Nat) (late : Bool) : Dev :=
  let sel := fun (t : FaultTrack) => t.pri = 1 && fnOf t.rcd.owner = fn && t.rcd.seq % 512 = prg && t.rcd.seq ≠ d.tr.batchSeq &&
    (!late || t.sentAt + 1000000 * d.oget O.PRI_TIMEOUT ≤ d.time)
  Dev.pagesGo { d with tr := { d.tr with tracks := mapIf sel (fun t => { t with pri := pri }) d.tr.tracks } } fn
    (d.tr.tracks.length + 1)

/-! ### Commands -/

/-- An engine of Table 10.2 exists. -/
def engineOk (eng : Nat) : Bool :=
  match eng / 4096 with
  | 0 => eng % 4096 < 256
  | 1 => eng % 4096 < 256
  | 2 => eng % 4096 < 2
  | 3 => eng % 4096 = 0
  | 4 => eng % 4096 = 0
  | _ => false

/-- What an access meets in the caches or the window table of its engine's die: a parity error of the entry that it hits first (R502); a
corrected error of the window table, or an uncorrectable one, after which the table is reloaded, until the next tick (R503; assumption
79). -/
def Dev.walkErr (d : Dev) (eng owner va : Nat) (e : HwErr) : Dev :=
  match e with
  | .parity => d.entryParity eng owner va
  | .corrected .. => d.corrected 0x3000 0
  | .word _ =>
    let die := dieOfEngine eng
    if d.tr.reloads.contains die then d
    else ({ d with tr := { d.tr with reloads := die :: d.tr.reloads } }).logNote 5 0 0x3000 0
  | _ => d

/-- PAGE_WALK (R458, R467): an engine translates an address; on misses the walker of its die walks and the leaf is installed. `e` is an
error that the access meets. -/
def execPageWalk (eng owner va access : Nat) (e : HwErr) (s : State) : Host.Outcome State Fault Refusal :=
  s.runIf (engineOk eng && owner ≤ 256 && va < 2 ^ 64 && access < 4) fun d => ((d.walkErr eng owner va e).translate eng owner va access).1

/-- FAULT_BATCH_CLOSE (R486, R487): 20 µs after the first record of the open batch. -/
def execFaultBatchClose (s : State) : Host.Outcome State Fault Refusal := s.run Dev.batchTick

/-- ATS_COMPLETION (R477). -/
def execAtsCompletion (fn : Nat) (a : AtsReply) (s : State) : Host.Outcome State Fault Refusal :=
  s.runIf (fn ≤ 256 && a.kind ≤ 3 && a.u < 2 ^ 64 && 4096 ≤ a.size && a.size ≤ 2 ^ 30 && a.size &&& (a.size - 1) = 0)
    fun d => d.atsCompletion fn a

/-- ATS_INVALIDATE_REQUEST (R478). -/
def execAtsInvalidateRequest (fn addr size tag : Nat) (s : State) : Host.Outcome State Fault Refusal :=
  s.runIf (fn ≤ 256) fun d => d.atsInvalidate fn addr size tag

/-- PRG_RESPONSE (R490): code 0 is Success. -/
def execPrgResponse (fn prg code : Nat) (s : State) : Host.Outcome State Fault Refusal :=
  s.runIf (fn ≤ 256 && prg < 512) fun d => d.prgEnd fn prg (if code = 0 then 2 else 3) false

/-- PRI_TIMEOUT_EXPIRY (R490): PRI_TIMEOUT ms have passed since the page requests were sent. -/
def execPriTimeoutExpiry (fn prg : Nat) (s : State) : Host.Outcome State Fault Refusal :=
  s.runIf (fn ≤ 256 && prg < 512) fun d => d.prgEnd fn prg 3 true

end Sys2Proof.Machine
end

