-- ==== Sys2Proof/Machine/Life.lean ====
section
/-! DEFINITION. Machine/Life.lean: the crypt and its lifetime record (chapter 23), and the persisting of dictionary objects
(R844, R883). -/

namespace Sys2Proof.Machine

/-! ### Persisted objects -/

/-- A persisted object has been written: its commit is due within 1 s (R844). -/
def Dev.persist (d : Dev) (k : Nat) : Dev :=
  { d with dict := { d.dict with commits := if d.dict.commits.contains k then d.dict.commits else d.dict.commits ++ [k],
                                 commitFails := mdel d.dict.commitFails k } }

/-- Set an object and persist it. -/
def Dev.osetP (d : Dev) (k v : Nat) : Dev := (d.oset k v).persist k

/-- Set an object and its copy in the crypt in one write, as the boot ROM does (R931, R936). -/
def Dev.osetNow (d : Dev) (k v : Nat) : Dev :=
  let d := d.oset k v
  { d with dict := { d.dict with crypt := mset d.dict.crypt k v, commits := d.dict.commits.filter (· ≠ k) } }

/-- The crypt takes no more writes (R1037). -/
def Dev.cryptReadOnly (d : Dev) : Bool := d.oget O.CRYPT_STATE % 4 = 2

/-- CRYPT_STATE shows what is left of the spare pool once `n` blocks have been replaced (R1037). -/
def Dev.cryptShow (d : Dev) (n : Nat) : Dev :=
  if n = 0 then d
  else
    let v := if Config.cryptSpares ≤ n then 2 else if Config.cryptSpares < n + 16 then 1 else 0
    d.oset O.CRYPT_STATE (setBits (d.oget O.CRYPT_STATE) 0 2 v)

/-- A block of the crypt fails its write verify: it is replaced from the spare pool and the write repeated there (R1037). -/
def Dev.cryptBlock (d : Dev) : Dev :=
  let n := d.life.replaced + 1
  let d := (Dev.logNote { d with life := { d.life with replaced := n } } 0x41 1 0x9000 0).cryptShow n
  if Config.cryptSpares ≤ n then d.logNote 0x41 4 0x9000 0 else d

/-- Write the value of store key `k` to the crypt; `ok` is whether the first write verifies. A write to a read-only crypt fails; the
third failure gives the value up until the next reset (R883). -/
def Dev.cryptWrite (d : Dev) (k : Nat) (ok : Bool) : Dev :=
  if !d.dict.commits.contains k then d
  else if d.cryptReadOnly then
    let n := dget 0 d.dict.commitFails k + 1
    if 3 ≤ n then
      Dev.noteEvent { d with dict := { d.dict with commits := d.dict.commits.filter (· ≠ k), commitFails := mdel d.dict.commitFails k } } 0x41 4 0x9000
    else { d with dict := { d.dict with commitFails := mset d.dict.commitFails k n } }
  else
    let d := if ok then d else d.cryptBlock
    { d with dict := { d.dict with crypt := mset d.dict.crypt k (d.oget k), commits := d.dict.commits.filter (· ≠ k),
                                   commitFails := mdel d.dict.commitFails k } }

/-! ### The lifetime record (R1020 to R1022, R1030, R1031) -/

/-- The whole power-on hours completed (R1029). -/
def Dev.hours (d : Dev) : Nat := d.oget O.POWER_ON_SECONDS / 3600

/-- The store key belongs to the lifetime record: the objects of Table 23.4 but CRYPT_SIZE, COLD_STARTS and AGING_BASE. -/
def lifeKey (k : Nat) : Bool :=
  let i := k / 1099511627776
  i / 256 = 0xA0 && i ≠ 0xA000 && i ≠ 0xA011 && i ≠ 0xA015

/-- The UTC of fabric time `t`, 0 when undated (R1030). -/
def Dev.utcAt (d : Dev) (t : Nat) : Nat :=
  if d.life.utcSet && !d.life.stepped then (d.oget (O.UTC_PAIR 0) + t - d.oget (O.UTC_PAIR 1)) % 2 ^ 64 else 0

/-- A fabric-time step leaves later records undated (R1030). -/
def Dev.utcStep (d : Dev) : Dev := { d with life := { d.life with stepped := true } }

/-- A write of UTC_SET (R1030, R1033). -/
def Dev.utcSet (d : Dev) (v : Nat) : Dev :=
  let d := (d.osetP (O.UTC_PAIR 0) v).osetP (O.UTC_PAIR 1) d.time
  { d with life := { d.life with utcSet := true, stepped := false } }

/-- A commit is in progress. -/
def Dev.committing (d : Dev) : Bool :=
  match d.life.busy with
  | some t => decide (d.time < t)
  | none => false

/-- A commit of the lifetime record (R1021): it stamps the record, writes it into the older generation, and makes that the current one. It
takes an open time of at most 20 ms (assumption 1). -/
def Dev.lifeWrite (d : Dev) : Dev :=
  if d.cryptReadOnly then d.noteEvent 0x41 4 0x9000
  else
    let utc := d.utcAt d.time
    let d := ((d.oset (O.LIFE_LAST_COMMIT 0) (d.oget O.POWER_ON_SECONDS)).oset (O.LIFE_LAST_COMMIT 1) d.time).oset (O.LIFE_LAST_COMMIT 2) utc
    let d := d.oinc O.CRYPT_COMMITS
    let d := if d.oget O.FIRST_UTC = 0 then d.oset O.FIRST_UTC utc else d
    let w := d.oget O.CRYPT_WEAR
    let d := (d.oset O.CRYPT_WEAR (w + d.freeBits 7 % (101 - w))).freed
    let n := match d.life.gens with
      | g :: _ => g.number + 1
      | [] => 1
    let g : LifeGen := ⟨n, true, d.objs.filter fun e => lifeKey e.1, d.life.peak, d.life.v, d.life.p⟩
    let done := d.time + 1 + d.freeBits 25 % 20000000
    Dev.freed { d with life := { d.life with gens := g :: d.life.gens.take 1, again := false, busy := some done } }

/-- An occasion for a commit (R1021): one that falls during a commit is served, with every other such one, by one further commit (R1032). -/
def Dev.lifeCommit (d : Dev) : Dev :=
  if d.committing && !d.cryptReadOnly then { d with life := { d.life with again := true } } else d.lifeWrite

/-- The further commit starts when the first has ended. -/
def Dev.lifePass (d : Dev) : Dev := if d.life.again && !d.committing then d.lifeWrite else d

/-- The commit before a reset that is requested, made and ended before the reset is applied; it serves the occasions that wait (R1021,
R1032; assumption 81). -/
def Dev.lifeEnd (d : Dev) : Dev :=
  let d := d.lifeWrite
  { d with life := { d.life with busy := none, again := false } }

/-- A reset or a loss of power during a commit leaves the generation before it current (R1035). -/
def Dev.gensLeft (d : Dev) : List LifeGen :=
  match d.committing, d.life.gens with
  | true, g :: gs => { g with ok := false } :: gs
  | _, gs => gs

/-- Load the newest generation whose CRC verifies (R1022); the state of the spare pool is the crypt's own. -/
def Dev.lifeLoad (d : Dev) : Dev := Dev.cryptShow (
  match d.life.gens.find? (·.ok) with
  | some g =>
    let d := g.values.foldl (fun d e => d.oset e.1 e.2) d
    let d := { d with life := { d.life with peak := g.mode, v := g.v, p := g.p } }
    (rangeFrom 0 8).foldl (fun d k =>
      { d with life := { d.life with effective := dset 0 d.life.effective k (d.oget (O.AGING_OFFSET k)) } }) d
  | none => (d.oset O.CRYPT_STATE (setBits (d.oget O.CRYPT_STATE) 7 1 1)).logNote 0x41 2 0x9000 0) d.life.replaced

/-! ### Links (R1028) -/

/-- Add one to the 32-bit half `h` of doubleword 0 of a link's lifetime entry: 0 trainings, 1 downs. -/
def Dev.linkLife (d : Dev) (l h : Nat) : Dev :=
  let k := O.LINK_LIFE (35 * l)
  let v := d.oget k
  d.oset k (setBits v (32 * h) 32 (bits v (32 * h) 32 + 1))

/-- Count an uncorrectable codeword of a link. -/
def Dev.linkLifeLost (d : Dev) (l : Nat) : Dev := d.oinc (O.LINK_LIFE (35 * l + 1))

/-- The worst-lane margin of a link, 0.1 mV: the lifetime minimum and the day's, each of which reads 0 before any. -/
def Dev.linkMargin (d : Dev) (l margin lane : Nat) : Dev :=
  let k := O.LINK_LIFE (35 * l + 2)
  let v := d.oget k
  let d := if v % 65536 = 0 || margin < v % 65536 then d.oset k (setBits v 0 16 margin) else d
  match mget d.life.dayMin l with
  | some m => if margin < m / 8 then { d with life := { d.life with dayMin := mset d.life.dayMin l (8 * margin + lane) } } else d
  | none => { d with life := { d.life with dayMin := mset d.life.dayMin l (8 * margin + lane) } }

/-- Append a day's entry to a link's ring of 32, oldest first: an entry not yet written reads zero. -/
def Dev.linkDay (d : Dev) (l : Nat) : Dev :=
  match mget d.life.dayMin l with
  | none => d
  | some m =>
    let k := fun i => O.LINK_LIFE (35 * l + 3 + i)
    let e := d.hours % 2 ^ 32 + (m / 8) % 65536 * 2 ^ 32 + (m % 8) * 2 ^ 48
    match (rangeFrom 0 32).find? fun i => d.oget (k i) = 0 with
    | some i => d.oset (k i) e
    | none => ((rangeFrom 0 31).foldl (fun d i => d.oset (k i) (d.oget (k (i + 1)))) d).oset (k 31) e

/-! ### Aging (R1025, R1026) -/

/-- Whether octant `k` qualifies for an aging measurement at this second (R1025). -/
def Dev.agingFit (d : Dev) (k : Nat) : Bool :=
  let t := toSigned 16 (d.oget (O.OCT_TEMP k))
  let m := dget 0 d.power.margin k
  let target : Int := d.oget O.VOLT_MARGIN
  d.oget (O.PD_STATE (4 + k)) = 2 && d.oget (O.OCT_CLOCK k) = 950 && d.oget (O.VOLT_FREEZE k) = 0 &&
    decide (target - 5 < m) && decide (m < target + 5) && decide (160 ≤ t) && decide (t ≤ 360)

/-- Accumulate one second of measurement of octant `k`. -/
def Dev.agingSecond (d : Dev) (k : Nat) : Dev :=
  if d.agingFit k then
    let t := toSigned 16 (d.oget (O.OCT_TEMP k))
    let v : Int := 8 * (d.oget (O.OCT_VOLT k) : Int) - (t - 240) - 8 * ((d.oget O.VOLT_MARGIN : Int) - 25)
    { d with life := { d.life with secs := mset d.life.secs k (dget 0 d.life.secs k + 1), sums := mset d.life.sums k (dget 0 d.life.sums k + v) } }
  else d

/-- The hour's measurement of octant `k`, and the raise it allows. -/
def Dev.agingHour (d : Dev) (k : Nat) : Dev :=
  let n := dget 0 d.life.secs k
  if n < 10 then d
  else
    let m := (dget 0 d.life.sums k / (8 * n : Nat)).toNat
    let d := d.oset (O.AGING_MEASURED k) (m % 65536)
    let cand := min 50 ((m - Config.agingBase k) / 5 * 5)
    let cur := d.oget (O.AGING_OFFSET k)
    let free := match mget d.life.raised k with
      | some h => decide (h + 720 ≤ d.hours)
      | none => true
    if cand ≤ cur || !free then d
    else
      let v := min cand (cur + 5)
      let d := d.oset (O.AGING_OFFSET k) v
      let d := { d with life := { d.life with raised := mset d.life.raised k d.hours, pendingRaise := mset d.life.pendingRaise k v } }
      if v = 50 then d.logNote 0x41 3 0x9000 0 else d

/-- The daily entries of the links, at every 24th hourly commit (R1028). -/
def Dev.linkDays (d : Dev) : Dev :=
  let d := (rangeFrom 0 20).foldl Dev.linkDay d
  { d with life := { d.life with dayMin := [] } }

/-- The hour's measurements are used and forgotten (R1026). -/
def Dev.agingHours (d : Dev) : Dev :=
  let d := (rangeFrom 0 8).foldl Dev.agingHour d
  { d with life := { d.life with secs := [], sums := [], hour := d.hours } }

/-- A whole power-on hour has been completed and not committed. -/
def Dev.hourDue (d : Dev) : Bool :=
  d.boot.running.isSome && decide (d.oget O.POWER_ON_SECONDS = 3600 * d.hours) && decide (d.hours ≠ 0) && decide (d.hours ≠ d.life.hour)

/-- HOURLY_COMMIT (R1021, R1026, R1028). -/
def Dev.hourly (d : Dev) : Dev :=
  if d.hourDue then (if d.agingHours.hours % 24 = 0 then d.agingHours.linkDays else d.agingHours).lifeCommit else d

/-! ### Each second (R1019, R1023, R1024) -/

/-- The thermal-cycle tracker takes the hottest reading of a second. -/
def Dev.trackCycle (d : Dev) (r : Int) : Dev :=
  let l := d.life
  if l.peak then
    if r ≤ l.p - 120 then Dev.oinc { d with life := { l with peak := false, v := r } } O.THERMAL_CYCLES
    else { d with life := { l with p := max l.p r } }
  else if l.v + 120 ≤ r then { d with life := { l with peak := true, p := r } }
  else { d with life := { l with v := min l.v r } }

/-- The bin of TJ_HISTOGRAM of a reading (R1024). -/
def tjBin (t : Int) : Nat := if t < 120 then 0 else min 15 (((t / 4 - 25) / 5).toNat)

/-- The hottest reading of this second of octant `k` or uncore die `k - 8`. -/
def Dev.secondMax (d : Dev) (k : Nat) : Int :=
  (mget d.life.peaks k).getD (toSigned 16 (d.oget (if k < 8 then O.OCT_TEMP k else O.UNCORE_TEMP (k - 8))))

/-- LIFETIME_SECOND. -/
def Dev.lifetimeSecond (d : Dev) : Dev :=
  if d.boot.running.isNone then d
  else
    let ts := (rangeFrom 0 10).map d.secondMax
    let d := (d.oinc O.POWER_ON_SECONDS).trackCycle (ts.foldl max (-32768))
    let d := (rangeFrom 0 8).foldl (fun d k =>
      let on := d.oget (O.PD_STATE (4 + k)) = 2 || d.oget (O.PD_STATE (4 + k)) = 3
      let d := if on then d.oinc (O.TJ_HISTOGRAM (16 * k + tjBin (d.secondMax k))) else d
      d.agingSecond k) d
    { d with life := { d.life with peaks := [] } }

/-- Note a reading of the second (R1023, R1024). -/
def Dev.peakNote (d : Dev) (k : Nat) (t : Int) : Dev :=
  { d with life := { d.life with peaks := mset d.life.peaks k (max ((mget d.life.peaks k).getD t) t) } }

/-! ### Commands -/

/-- HOURLY_COMMIT. -/
def execHourlyCommit (s : State) : Host.Outcome State Fault Refusal := s.run Dev.hourly
/-- LIFETIME_SECOND. -/
def execLifetimeSecond (s : State) : Host.Outcome State Fault Refusal := s.run Dev.lifetimeSecond
/-- CRYPT_OBJECT_COMMIT: the first attempt to write the value of a store key; `ok` is whether it verifies. -/
def execCryptObjectCommit (key : Nat) (ok : Bool) (s : State) : Host.Outcome State Fault Refusal :=
  s.run fun d => if (mget d.dict.commitFails key).isNone then d.cryptWrite key ok else d
/-- CRYPT_COMMIT_RETRY: a further attempt after a failed one. -/
def execCryptCommitRetry (key : Nat) (ok : Bool) (s : State) : Host.Outcome State Fault Refusal :=
  s.run fun d => if (mget d.dict.commitFails key).isSome then d.cryptWrite key ok else d

end Sys2Proof.Machine
end

