-- ==== Sys2Proof/Machine/Link.lean ====
section
/-! DEFINITION. Machine/Link.lean: the Transept links: training and its handshake, going down, the receipt, acknowledgement and replay
of flits, transmitter presets, and fabric time (R745 to R758, R774 to R793). -/

namespace Sys2Proof.Machine

/-- A Transept link event: PF vector 4 and NOTIFY event 4, naming LINK_STATE of the link (R751, R868). -/
def Dev.linkEvent (d : Dev) (l cause : Nat) : Dev := (d.msix 0 4).notify ⟨4, cause, 0, 0, 0x7100 + l, 2⟩

/-- The domain of a link is ON. -/
def Dev.linkPowered (d : Dev) (l : Nat) : Bool := d.oget (O.PD_STATE (linkDomain l)) = 2

/-! ### Fabric time (R774 to R783) -/

/-- Log ERR_TIME_SYNC, raise PF vector 4 and notify (R780). -/
def Dev.timeLost (d : Dev) : Dev :=
  (((d.logNote 0x39 0 0x9000 0).msix 0 4).notify ⟨5, 0x39, 0, 0, 0x7010, 4⟩).oinc O.TIME_SYNC_LOSSES

/-- Enter a time state (Table 16.11); leaving LOCKED is reported. -/
def Dev.timeState (d : Dev) (s : Nat) : Dev :=
  let was := d.oget O.TIME_STATE
  if was = s then d
  else
    let d := (d.oset O.TIME_STATE s)
    let d := { d with fab := { d.fab with lockRun := 0 } }
    if was = 2 then d.timeLost else d

/-- A link carries time: UP, and fewer than 4 exchanges skipped in a row (R782). -/
def Dev.timeLink (d : Dev) (l : Nat) : Bool := d.up l && (d.link l).skips ≤ 4

/-- The link the chip takes time from (R776). -/
def Dev.parentLink (d : Dev) : Option Nat :=
  let p := d.oget O.TIME_PARENT
  let a := d.oget O.TIME_PARENT_ALT
  if d.timeLink p then some p else if d.timeLink a then some a else none

/-- Bring TIME_STATE up to date after a change of the links or of the time objects (Table 16.11). -/
def Dev.timeEval (d : Dev) : Dev :=
  if d.oget O.TIME_ROOT = 1 then
    ((d.timeState 2).oset O.TIME_DEPTH 0).oset O.TIME_ROOT_ID (d.oget O.CHIP_ID)
  else if 20 ≤ d.oget O.TIME_PARENT && 20 ≤ d.oget O.TIME_PARENT_ALT then (d.timeState 0).oset O.TIME_DEPTH 255
  else match d.parentLink with
    | none => if d.oget O.TIME_STATE = 0 then d else d.timeState 3
    | some _ => if d.oget O.TIME_STATE = 0 || d.oget O.TIME_STATE = 3 then d.timeState 1 else d

/-- Fabric time in 1/16 ns, `sub` sixteenths after the chip's present count. -/
def Dev.time16 (d : Dev) (sub : Nat) : Nat := 16 * d.time + d.fab.frac + sub

/-- Step fabric time by an offset (R778). -/
def Dev.timeStep (d : Dev) (o : Int) : Dev :=
  let t := ((d.time16 0 : Int) + o).toNat
  (Dev.oinc { d with time := t / 16, fab := { d.fab with frac := t % 16, offsets := [], slew := 0 } } O.TIME_STEPS).utcStep

/-- Magnitude of an integer. -/
def magnitude (x : Int) : Nat := x.natAbs

/-- The filtered offset of the last 16 at most, newest first (R778): equal offsets pass through the filter, and what it makes of others is
open (assumption 38). -/
def filteredOffset (os : List Int) : Int :=
  if os.all (· == os.headD 0) then os.headD 0 else Config.offsetFilter os

/-- Apply a filtered offset (R778, R779), with the parent's state. -/
def Dev.timeApply (d : Dev) (mean : Int) (parent : Nat) : Dev :=
  let big := 16 * d.oget O.TIME_STEP_THRESHOLD < magnitude mean
  let st := d.oget O.TIME_STATE
  if st = 2 then
    let d := if parent ≠ 2 || big then d.timeState 1 else d
    if big then d else { d with fab := { d.fab with slew := mean } }
  else if big then d.timeStep mean
  else
    let run := if parent = 2 && magnitude mean ≤ 32 then d.fab.lockRun + 1 else 0
    let d := { d with fab := { d.fab with slew := mean, lockRun := run } }
    if 16 ≤ run then d.timeState 2 else d

/-- A LOCKED chip first seen at a depth above 13 reports it (R780). -/
def Dev.timeDeep (d : Dev) : Dev :=
  let deep := d.oget O.TIME_STATE = 2 && 13 < d.oget O.TIME_DEPTH && d.oget O.TIME_ROOT = 0
  let d' := if deep && !d.fab.deep then d.timeLost else d
  { d' with fab := { d'.fab with deep := deep } }

/-- A TIME flit arrives `sub` sixteenths after the chip's count (R757, R777, R778): it is echoed from now on, and one from the
parent that echoes one of the last 4 sent completes an exchange. -/
def Dev.timeReceive (d : Dev) (l sub : Nat) (f : TimeFlit) : Dev :=
  if !d.up l then d
  else
    let t4 := d.time16 sub
    let k := d.link l
    let known := f.echoValid && k.txTimes.contains f.echoTx
    let d := d.onLink l fun k => { k with echoTx := f.tx, echoRx := t4, echoValid := true, skips := if known then 0 else k.skips }
    let d := if known then d.count 3 l 6 1 else d
    let d := d.timeEval
    if !known || d.oget O.TIME_ROOT = 1 || d.parentLink ≠ some l then d
    else
      let a := toSigned 64 ((f.echoRx + 2 ^ 64 - f.echoTx % 2 ^ 64) % 2 ^ 64)
      let b := toSigned 64 ((t4 + 2 ^ 64 - f.tx % 2 ^ 64) % 2 ^ 64)
      let off := (a - b) / 2 - k.asym
      let d := d.oset (O.LINK_DELAY l) (((a + b) / 2).toNat % 2 ^ 32)
      let offs := (off :: d.fab.offsets).take 16
      let mean := filteredOffset offs
      let d := { d with fab := { d.fab with offsets := offs } }
      let d := (d.oset O.TIME_OFFSET (ofSigned 32 mean)).oset O.TIME_DEPTH (if 254 ≤ f.depth then 255 else f.depth + 1)
      let d := if f.rootValid then d.oset O.TIME_ROOT_ID f.root else d
      (d.timeApply mean (f.state % 4)).timeDeep

/-- The body of a TIME flit (Table 16.15). -/
def Dev.timeBody (d : Dev) (l sub : Nat) : List Byte :=
  let k := d.link l
  let id := if d.oget O.TIME_ROOT = 1 then d.oget O.CHIP_ID else d.oget O.TIME_ROOT_ID
  leBytes 8 (d.time16 sub) ++ leBytes 8 k.echoTx ++ leBytes 8 k.echoRx ++
    leBytes 1 (d.oget O.TIME_STATE + 4 * b2n k.echoValid) ++ leBytes 1 (d.oget O.TIME_DEPTH) ++
    leBytes 2 (id + b2n (d.oget O.TIME_DEPTH ≠ 255) * 2 ^ 15) ++ leBytes 2 k.exchange

/-- The TIME flit whose body is these bytes. -/
def timeFlitOf (bs : List Byte) : TimeFlit :=
  let n := fun i k => leNat ((bs.drop i).take k)
  ⟨n 0 8, n 8 8, n 16 8, n 24 1 % 4, bit (n 24 1) 2, n 25 1, n 26 2 % 4096, bit (n 26 2) 15, n 28 2⟩

/-- A TIME flit has been sent in the exchange interval of 10 µs that fabric time `t`, in 1/16 ns, lies in (R762). -/
def Link.sentTime (k : Link) (t : Nat) : Bool := (k.txTimes.head?.map (· / 160000)) = some (t / 160000)

/-- Send the TIME flit of an exchange interval (R762, R777, R782). -/
def Dev.timeSend (d : Dev) (l sub : Nat) : Dev :=
  if !d.up l || (d.link l).sentTime (d.time16 sub) then d
  else
    let t := d.time16 sub
    let d := d.flitOut l 5 0 (d.timeBody l sub)
    (d.onLink l fun k => { k with txTimes := (t :: k.txTimes).take 4, exchange := (k.exchange + 1) % 65536, skips := k.skips + 1 }).timeEval

/-- A write of TIME_SET on the root (R787); it takes effect at the next tick, as every write does that a caller can time no
closer. -/
def Dev.timeSet (d : Dev) (v : Nat) : Dev := Dev.utcStep { d with time := v, fab := { d.fab with frac := 0 } }

/-! ### Going down (R751, Table 16.4) -/

/-- Count a training of a link, since reset and over life. -/
def Dev.trainCount (d : Dev) (l : Nat) : Dev := (d.oinc (O.TRAINS l)).linkLife l 0

/-- The state a link takes when it is not UP: DISABLED, OFFLINE, TRAINING with a partner's signal, or NO_SIGNAL. -/
def Dev.linkIdle (d : Dev) (l : Nat) : Dev :=
  if !d.linkPowered l then d.oset (O.LINK_STATE l) 5
  else if d.oget (O.LINK_ENABLE l) = 0 then d.oset (O.LINK_STATE l) 0
  else if (d.link l).signal then
    ((d.oset (O.LINK_STATE l) 2).trainCount l).onLink l fun k => { k with partner := none, seen := false, told := false, exchange := 0 }
  else d.oset (O.LINK_STATE l) 1

/-- An UP link goes down: the steps of Table 16.4, each packet queued for it dropped under R769. -/
def Dev.linkDown (d : Dev) (l : Nat) : Dev :=
  if !d.up l then d
  else
    let qs := (d.link l).waiting
    let d := d.onLink l fun k =>
      { Link.reset with signal := k.signal, fails := k.fails, asym := k.asym, presets := k.presets, want := k.want, token := k.token,
                        ctle := k.ctle, dfe := k.dfe }
    let d := d.linkIdle l
    let d := qs.foldl (fun d q => ((d.creditBack q.input q.inVc q.ded q.shr).settle q.input 16).dropPacket q.p 0x0F 2 l) d
    let d := ((d.logNote 0x0F 0 (linkEng l) 0).oinc (O.DOWNS l)).linkLife l 1
    (d.linkEvent l 0x0F).timeEval

/-! ### Training (Table 16.3) -/

/-- The partner's signal appears or is lost (R747, R751). -/
def Dev.linkSignal (d : Dev) (l : Nat) (present : Bool) : Dev :=
  let was := d.oget (O.LINK_STATE l)
  let d := d.onLink l fun k => { k with signal := present }
  if present then (if was = 1 then d.linkIdle l else d)
  else if was = 3 then d.linkDown l
  else if was = 2 then d.linkIdle l
  else d

/-- The body of this side's HANDSHAKE (Table 16.16). -/
def Dev.handshakeBody (d : Dev) (l : Nat) (seen : Bool) : List Byte :=
  leBytes 1 1 ++ leBytes 1 (b2n d.idValid + 2 * b2n seen) ++ leBytes 2 (d.oget O.CHIP_ID) ++ leBytes 1 l ++ leBytes 1 1 ++
    leBytes 2 16 ++ leBytes 2 384 ++ leBytes 2 512 ++ leBytes 8 (d.oget O.SERIAL_NUMBER)

/-- Send a HANDSHAKE: SEQ 0, ACK 0, not sequenced (R758). -/
def Dev.handshakeOut (d : Dev) (l : Nat) : Dev :=
  let seen := (d.link l).partner.isSome
  let f : Flit := ⟨0, 0, false, 0, 0, 0, 6, 0, padBytes 240 (d.handshakeBody l seen), 0, 0, false⟩
  (d.onLink l fun k => { k with told := k.told || seen }).emit (.flit l { f with crc := flitCheck f })

/-- A HANDSHAKE of the partner arrives in step 5 (R749, R758): PARTNER records it, and it is answered until both sides have sent
and received one with SEEN set. -/
def Dev.handshake (d : Dev) (l : Nat) (h : Handshake) : Dev :=
  if d.oget (O.LINK_STATE l) ≠ 2 then d
  else
    let done := (d.link l).told && (d.link l).seen
    let d := d.onLink l fun k => { k with partner := some h, seen := k.seen || h.seen }
    let d := d.oset (O.PARTNER l) (h.chip % 4096 + b2n h.valid * 2 ^ 12 + h.link % 32 * 2 ^ 16)
    if done then d else d.handshakeOut l

/-- A training attempt ends (R748, R750): with success after the handshake, the link enters UP with the credits the partner grants;
before the handshake has been exchanged, step 5 sends one; the third failure within 1 s makes the link FAILED. -/
def Dev.linkTraining (d : Dev) (l : Nat) (ok : Bool) (delay : Nat) (asym : Int) : Dev :=
  if d.oget (O.LINK_STATE l) ≠ 2 then d
  else
    let k := d.link l
    if ok then
      match k.partner with
      | some h =>
        if k.seen && k.told then
          let d := d.onLink l fun k =>
            { k with txSeq := 0, rxAck := 4095, nak := false, asked := false, replay := [], replayRun := 0,
                     ded := List.replicate 8 h.ded, shared := h.shared, rxDed := List.replicate 8 0, rxShared := 0,
                     owed := List.replicate 8 0, owedShared := 0, parts := [], asym := asym, txTimes := [], echoValid := false,
                     skips := 0, fails := [] }
          let d := (d.oset (O.LINK_STATE l) 3).oset (O.LINK_DELAY l) (delay % 2 ^ 32)
          (d.linkEvent l 0).timeEval
        else d.handshakeOut l
      | none => d.handshakeOut l
    else
      let fails := d.time :: k.fails.filter fun t => d.time < t + 1000000000
      let d := d.onLink l fun k => { k with fails := fails, partner := none, seen := false, told := false }
      if 3 ≤ fails.length then
        let d := (d.oset (O.LINK_STATE l) 4).onLink l fun k => { k with fails := [] }
        (d.logNote 0x0F 0 (linkEng l) 0).linkEvent l 0x0F
      else d

/-- A write of LINK_ENABLE (R746, R750, R751). -/
def Dev.linkEnable (d : Dev) (l v : Nat) : Dev :=
  let d := d.oset (O.LINK_ENABLE l) v
  if v = 0 then (if d.up l then d.linkDown l else d.linkIdle l)
  else if d.oget (O.LINK_STATE l) = 0 then d.linkIdle l else d

/-- The links of a die as its complex's domain turns on or off (R790). -/
def Dev.linksPower (d : Dev) (die : Nat) : Dev :=
  (rangeFrom (10 * die) 10).foldl (fun d l =>
    if d.up l then d.linkDown l
    else if d.linkPowered l && d.oget (O.LINK_STATE l) ≠ 5 then d
    else (d.onLink l fun k => { k with signal := k.signal && d.linkPowered l }).linkIdle l) d

/-! ### Replay (R755) -/

/-- Send the unacknowledged flits again from the oldest one, in order, with the present acknowledgement and credits; the eighth
replay in a row of one flit takes the link down (R751). -/
def Dev.replayAll (d : Dev) (l : Nat) : Dev :=
  let k := d.link l
  match k.replay with
  | [] => d.onLink l fun k => { k with asked := false }
  | (_, f0) :: _ =>
    let run := if k.replaySeq = f0.seq then k.replayRun + 1 else 1
    if 8 ≤ run then d.linkDown l
    else
      let d := d.onLink l fun k => { k with asked := false, replaySeq := f0.seq, replayRun := run,
                                            replay := k.replay.map fun (e : Nat × Flit) => (d.time, e.2) }
      let d := (d.oadd (O.REPLAYS l) k.replay.length).count 3 l 4 k.replay.length
      k.replay.foldl (fun d e =>
        let k := d.link l
        let f := { e.2 with ack := k.rxAck, nak := k.nak, crVc := 0, crCount := 0, crShared := 0 }
        d.emit (.flit l { f with crc := flitCheck f })) d

/-- The partner acknowledges every flit up to a SEQ; one that names no unacknowledged flit acknowledges nothing new. -/
def Link.acked (k : Link) (ack : Nat) : Link :=
  match k.replay.findIdx? fun e => e.2.seq = ack with
  | some i => { k with replay := k.replay.drop (i + 1), replayRun := 0 }
  | none => k

/-! ### Presets and CONTROL flits (R758) -/

/-- The partner asks for a transmitter preset: applied within 1 µs and answered; one above 15 is refused. -/
def Dev.presetRequest (d : Dev) (l lane preset token : Nat) : Dev :=
  if !d.up l || 7 < lane then d
  else
    let ok := preset ≤ 15
    let d := if ok then d.onLink l fun k => { k with presets := setAt k.presets lane preset } else d
    d.flitOut l 6 0 (leBytes 1 3 ++ leBytes 1 lane ++ leBytes 1 (at0 (d.link l).presets lane) ++ leBytes 1 token ++ leBytes 1 (b2n (!ok)))

/-- The partner answers a preset request; its TOKEN names the request, and a refused one leaves the lane as it was. -/
def Dev.presetAck (d : Dev) (l lane preset token : Nat) : Dev :=
  if !d.up l || 7 < lane || token ≠ (d.link l).token then d
  else d.onLink l fun k => { k with want := setAt k.want lane preset }

/-- Log an intact CONTROL flit with a reserved KIND or a nonzero reserved byte (R758). -/
def Dev.badControl (d : Dev) (l : Nat) : Dev := d.logNote 0x0B 0 (linkEng l) 0

/-- Act on the body of a CONTROL flit. -/
def Dev.control (d : Dev) (l : Nat) (bs : List Byte) : Dev :=
  let n := fun i k => leNat ((bs.drop i).take k)
  let zero := fun i => (bs.drop i).all (· = 0)
  match n 0 1 with
  | 1 =>
    if !zero 20 || 3 < n 1 1 || 4095 < n 2 2 || 19 < n 4 1 then d.badControl l
    else d.handshake l ⟨bit (n 1 1) 0, bit (n 1 1) 1, n 2 2, n 4 1, n 5 1, n 6 2, n 8 2, n 10 2, n 12 8⟩
  | 2 => if !zero 4 || 7 < n 1 1 then d.badControl l else d.presetRequest l (n 1 1) (n 2 1) (n 3 1)
  | 3 => if !zero 5 || 7 < n 1 1 || 1 < n 4 1 then d.badControl l else d.presetAck l (n 1 1) (n 2 1) (n 3 1)
  | _ => d.badControl l

/-! ### Receipt of flits (R754, R755, R760) -/

/-- A sequenced flit of a packet takes a place in the receive buffer; the last one hands the packet to the router. -/
def Dev.flitBody (d : Dev) (l : Nat) (f : Flit) (broken : Bool) : Dev :=
  let k := d.link l
  let ded := at0 k.rxDed f.vc < 16
  let old := if f.type = 1 || f.type = 4 then (Partial.mk f.vc [] 0 0 0)
    else (k.parts.find? fun p => p.vc = f.vc).getD (Partial.mk f.vc [] 0 0 0)
  let part : Partial := ⟨f.vc, old.bytes ++ f.body, old.flits + 1, old.ded + b2n ded, old.shr + b2n (!ded)⟩
  let last := f.type = 3 || f.type = 4
  let d := d.onLink l fun k =>
    { k with rxDed := if ded then setAt k.rxDed f.vc (at0 k.rxDed f.vc + 1) else k.rxDed,
             rxShared := if ded then k.rxShared else k.rxShared + 1,
             parts := (k.parts.filter fun p => p.vc ≠ f.vc) ++ (if last then [] else [part]) }
  let d := d.count 3 l 1 1
  if !last then d
  else
    let p := packetOf part.bytes
    if broken then ((d.creditBack l f.vc part.ded part.shr).settle l 16).dropPacket p 0x0F 3 255
    else if p.flits ≠ part.flits then ((d.creditBack l f.vc part.ded part.shr).settle l 16).logNote 0x0B 0 (linkEng l) 0
    else d.route l f.vc part.ded part.shr p

/-- An uncorrectable codeword is counted; more than 1,000 within 1 s take the link down (R751). -/
def Dev.codewordLost (d : Dev) (l : Nat) : Dev :=
  let ts := d.time :: (d.link l).uncorr.filter fun t => d.time < t + 1000000000
  let d := ((d.oinc (O.FEC_UNCORRECTED l)).linkLifeLost l).onLink l fun k => { k with uncorr := ts }
  if 1000 < ts.length then d.linkDown l else d

/-- Discard sequenced flits from here on and ask for a replay. -/
def Dev.askReplay (d : Dev) (l : Nat) : Dev := (d.onLink l fun k => { k with nak := true }).flitOut l 0 0 []

/-- A flit arrives on an UP link (R755, R760): a broken one is discarded and answered with NAK; an intact one brings its
acknowledgement and credits; a sequenced one in order is accepted and acknowledged. -/
def Dev.flitReceive (d : Dev) (l : Nat) (f : Flit) (e : HwErr) : Dev :=
  if d.oget (O.LINK_STATE l) = 2 && f.type = 6 then (if f.lost || f.crc ≠ flitCheck f then d else d.control l f.body)
  else if !d.up l then d
  else
    let d := (d.oadd (O.FEC_CORRECTED l) f.corrected).count 3 l 5 f.corrected
    if f.lost then
      let d := d.codewordLost l
      if d.up l then d.askReplay l else d
    else if f.crc ≠ flitCheck f then d.askReplay l
    else
      let d := match e with
        | .corrected .. => d.corrected (linkEng l) 0
        | _ => d
      let broken := match e with
        | .word _ => true
        | _ => false
      let d := d.onLink l fun k =>
        let k := k.acked f.ack
        { k with ded := setAt k.ded f.crVc (at0 k.ded f.crVc + f.crCount), shared := k.shared + f.crShared, asked := k.asked || f.nak }
      let d := if f.type = 5 then d.timeReceive l 0 (timeFlitOf f.body)
        else if f.type = 0 || 6 < f.type then d
        else
          let k := d.link l
          if f.seq = (k.rxAck + 1) % 4096 then
            let d := (d.onLink l fun k => { k with rxAck := f.seq, nak := false }).oinc (O.RX_FLITS l)
            let d := if f.type = 6 then d.control l f.body else d.flitBody l f broken
            let k := d.link l
            if d.up l then (if k.owedShared = 0 && k.owed.all (· = 0) then d.flitOut l 0 0 [] else d.settle l 16) else d
          else if k.nak then d
          else if (f.seq + 4096 - k.rxAck) % 4096 ≤ 2048 && f.seq ≠ k.rxAck then d.askReplay l
          else d.flitOut l 0 0 []
      d.drive l

/-- FLIT_REPLAY: the partner has sent NAK. -/
def Dev.flitReplay (d : Dev) (l : Nat) : Dev := if d.up l && (d.link l).asked then d.replayAll l else d

/-- REPLAY_TIMEOUT: the oldest unacknowledged flit was sent 2 µs ago. -/
def Dev.replayTimeout (d : Dev) (l : Nat) : Dev :=
  match (d.link l).replay with
  | [] => d
  | (t, _) :: _ => if d.up l && t + 2000 ≤ d.time then d.replayAll l else d

/-! ### Commands -/

/-- LINK_SIGNAL_DETECT. -/
def execLinkSignalDetect (link : Nat) (present : Bool) (s : State) : Host.Outcome State Fault Refusal :=
  s.runIf (link < 20) fun d => d.linkSignal link present

/-- LINK_TRAINING. -/
def execLinkTraining (link : Nat) (ok : Bool) (delay : Nat) (asym : Int) (s : State) : Host.Outcome State Fault Refusal :=
  s.runIf (link < 20) fun d => d.linkTraining link ok delay asym

/-- FLIT_REPLAY. -/
def execFlitReplay (link : Nat) (s : State) : Host.Outcome State Fault Refusal := s.runIf (link < 20) fun d => d.flitReplay link

/-- REPLAY_TIMEOUT. -/
def execReplayTimeout (link : Nat) (s : State) : Host.Outcome State Fault Refusal := s.runIf (link < 20) fun d => d.replayTimeout link

/-- HANDSHAKE. -/
def execHandshake (link : Nat) (h : Handshake) (s : State) : Host.Outcome State Fault Refusal :=
  s.runIf (link < 20 && h.chip < 4096 && h.link < 20) fun d => d.handshake link h

/-- PRESET_REQUEST. -/
def execPresetRequest (link lane preset token : Nat) (s : State) : Host.Outcome State Fault Refusal :=
  s.runIf (link < 20 && lane < 8 && preset < 256 && token < 256) fun d => d.presetRequest link lane preset token

/-- PRESET_ACK: a refused request leaves the lane's preset, which the answer repeats. -/
def execPresetAck (link lane preset token : Nat) (refused : Bool) (s : State) : Host.Outcome State Fault Refusal :=
  s.runIf (link < 20 && lane < 8 && preset < 16 && token < 256) fun d =>
    if refused then d else d.presetAck link lane preset token

/-- TIME_FLIT_SEND. -/
def execTimeFlitSend (link sub : Nat) (s : State) : Host.Outcome State Fault Refusal :=
  s.runIf (link < 20 && sub < 16000) fun d => d.timeSend link sub

/-- TIME_FLIT_RECEIVE. -/
def execTimeFlitReceive (link sub : Nat) (f : TimeFlit) (s : State) : Host.Outcome State Fault Refusal :=
  s.runIf (link < 20 && sub < 16000) fun d => d.timeReceive link sub f

end Sys2Proof.Machine
end

