-- ==== Sys2Proof/Machine/FabOps.lean ====
section
/-! DEFINITION. Machine/FabOps.lean: RESHARD, COLLECTIVE and COPY on one chip: placement maps, the rank tree and its barriers, pulls,
reductions, the exact superaccumulator, remote writes, attempts and failures (chapter 17). -/

namespace Sys2Proof.Machine

/-! ### Operations in progress -/

/-- The operation of the node accepted as number `k`. -/
def Dev.op (d : Dev) (k : Nat) : Option FabOp := d.fab.ops.find? fun o => o.order = k

/-- Change an operation. -/
def Dev.onOp (d : Dev) (k : Nat) (f : FabOp → FabOp) : Dev :=
  { d with fab := { d.fab with ops := mapIf (fun o => o.order = k) f d.fab.ops } }

/-- An operation is over. -/
def Dev.opGone (d : Dev) (k : Nat) : Dev := { d with fab := { d.fab with ops := d.fab.ops.filter fun o => o.order ≠ k } }

/-- The cause a failed check or peer gives (Table 17.9). -/
def opCause (opc : Nat) : Nat := if opc = 8 then 0x3B else 0x3A

/-- CHIP of a rank entry (Table 17.3). -/
def reOwn (e : Nat) : Nat := bits e 0 12
/-- PARENT. -/
def reParent (e : Nat) : Nat := bits e 12 12
/-- PARENT_LINK. -/
def reLink (e : Nat) : Nat := bits e 24 5
/-- PIECE_COUNT. -/
def reCount (e : Nat) : Nat := bits e 32 16
/-- FIRST_PIECE. -/
def reFirst (e : Nat) : Nat := bits e 48 16

/-- Entry of a rank. -/
def FabOp.entry (o : FabOp) (r : Nat) : Nat := at0 o.table r

/-- The children of a rank, ascending (R803). -/
def FabOp.kids (o : FabOp) (r : Nat) : List Nat := (rangeFrom 1 (o.table.length - 1)).filter fun c => reParent (o.entry c) = r

/-- Group size. -/
def FabOp.size (o : FabOp) : Nat := o.table.length

/-! ### Packets (R825) -/

/-- The operation header (Table 17.8): kind, detail, FATAL, ranks and box. -/
structure OpHdr where
  kind : Nat
  detail : Nat := 0
  group : Nat := 0
  opseq : Nat := 0
  attempt : Nat := 0
  fatal : Bool := false
  src : Nat := 0
  dest : Nat := 0
  lead : Nat := 0
  row : Nat := 0
  col : Nat := 0
  rows : Nat := 0
  cols : Nat := 0
  deriving DecidableEq, Repr

/-- The 32 bytes of an operation header. -/
def OpHdr.bytes (h : OpHdr) : List Byte :=
  leBytes 32 (h.kind % 256 + h.detail % 256 * 2 ^ 8 + h.group % 2 ^ 16 * 2 ^ 16 + h.opseq % 2 ^ 32 * 2 ^ 32 + h.attempt % 256 * 2 ^ 64 +
    b2n h.fatal * 2 ^ 72 + h.src % 4096 * 2 ^ 76 + h.dest % 4096 * 2 ^ 88 + h.lead % 2 ^ 32 * 2 ^ 128 + h.row % 2 ^ 32 * 2 ^ 160 +
    h.col % 2 ^ 32 * 2 ^ 192 + h.rows % 2 ^ 16 * 2 ^ 224 + h.cols % 2 ^ 16 * 2 ^ 240)

/-- The operation header of a packet. -/
def opHdrOf (p : FPacket) : OpHdr :=
  let n := leNat (p.content.take 32)
  ⟨bits n 0 8, bits n 8 8, bits n 16 16, bits n 32 32, bits n 64 8, bit n 72, bits n 76 12, bits n 88 12, bits n 128 32, bits n 160 32,
    bits n 192 32, bits n 224 16, bits n 240 16⟩

/-- The payload of a packet. -/
def opLoad (p : FPacket) : List Byte := p.content.drop 32

/-- The header an operation's packets begin with. -/
def FabOp.hdr (o : FabOp) (kind : Nat) : OpHdr := { kind := kind, group := o.group, opseq := o.opseq, attempt := o.attempt, src := o.rank }

/-- The link to a tree neighbour (R803): PARENT_LINK, or the link whose partner is the child's end of its PARENT_LINK. -/
def Dev.treeLink (d : Dev) (o : FabOp) (r : Nat) : Nat :=
  if o.rank ≠ 0 && r = reParent (o.entry o.rank) then reLink (o.entry o.rank)
  else
    let want := reOwn (o.entry r) + 2 ^ 12 + reLink (o.entry r) * 2 ^ 16
    ((rangeFrom 0 20).find? fun l => d.up l && d.oget (O.PARTNER l) = want).getD 20

/-- Send a COLLECTIVE packet to a tree neighbour. -/
def Dev.treeSend (d : Dev) (o : FabOp) (r : Nat) (h : OpHdr) (load : List Byte) : Dev :=
  d.originateOn (d.treeLink o r) ⟨o.owner, 0, 0, 3, 0, true, 0, reOwn (o.entry r), 0, OpHdr.bytes { h with dest := r } ++ load⟩

/-- Send a routed packet of a class to a chip. -/
def Dev.opRoute (d : Dev) (owner cls chip : Nat) (h : OpHdr) (load : List Byte) : Dev :=
  d.originate ⟨owner, 0, 0, cls, 0, false, 0, chip, 0, h.bytes ++ load⟩

/-- The tree neighbours of the own rank: parent and children. -/
def FabOp.near (o : FabOp) : List Nat :=
  (if o.rank = 0 || o.table.isEmpty then [] else [reParent (o.entry o.rank)]) ++ o.kids o.rank

/-! ### Ends of an operation -/

/-- Report an operation of a node to the precentor. -/
def Dev.opReport (d : Dev) (k : Nat) (r : Report) : Dev :=
  match d.node k with
  | some x => d.report k x.dispatches r
  | none => d

/-- An operation fails (R831 to R834): a FATAL ABORT to every tree neighbour but `skip`, and the node's report. -/
def Dev.opFail (d : Dev) (k cause detail carried : Nat) (skip : Option Nat) : Dev :=
  match d.op k with
  | none => d
  | some o =>
    let d := (o.near.filter fun r => some r ≠ skip).foldl
      (fun d r => d.treeSend o r { o.hdr 3 with fatal := true, detail := carried } []) d
    ((d.opReport k { Report.none with cause := cause, detail := detail }).oinc O.OPS_FAILED).opGone k

/-- An operation has completed. -/
def Dev.opDone (d : Dev) (k : Nat) : Dev := ((d.opReport k { Report.none with kind := 1 }).oinc O.OPS_DONE).opGone k

/-- A FATAL ABORT of PEER_FAILED for every operation of an owner as its context is torn down; what it has waiting is discarded
(R830). -/
def Dev.opsTeardown (d : Dev) (owner : Nat) : Dev :=
  let d := (d.fab.ops.filter fun o => o.owner = owner).foldl (fun d o =>
    (o.near.foldl (fun d r => d.treeSend o r { o.hdr 3 with fatal := true, detail := 7 } []) d).opGone o.order) d
  { d with fab := { d.fab with early := d.fab.early.filter fun p => p.owner ≠ owner } }

/-! ### Accesses of an operation -/

/-- What an access of an operation yields. -/
inductive OpRes where
  | lines (l : List VLine)
  | wait
  | host
  | fault (rs : List FaultRec)
  deriving DecidableEq, Repr

/-- ENGINE of an operation's link complex. -/
def FabOp.eng (o : FabOp) : Nat := 0x2000 + o.die

/-- Translate addresses for an operation, in ascending order: of each page the lowest that it reaches (R479). -/
def Dev.opTrans (d : Dev) (o : FabOp) (access : Nat) (vas : List Nat) : Dev × List (Nat × TRes) :=
  let (d, rs) := d.translateEach o.eng o.owner access vas
  (d, vas.zip rs)

/-- Fields of a COPY packet (Table 12.6). -/
def cpRemote (p : Nat) : Bool := bit p 76
/-- DST_CHIP. -/
def cpChip (p : Nat) : Nat := bits p 64 12
/-- SRC. -/
def cpSrc (p : Nat) : Nat := bits p 128 64
/-- DST. -/
def cpDst (p : Nat) : Nat := bits p 192 64
/-- LENGTH. -/
def cpLength (p : Nat) : Nat := bits p 256 40

/-- The failure of a set of translations: a wait while one is not complete, else the records of the failed pages (R436). -/
def opTransFail (x : Node) (o : FabOp) (access : Nat) (rs : List (Nat × TRes)) : Option OpRes :=
  let bad := rs.filterMap fun e => match e.2 with
    | .fail f => some (nodeRec x o.eng access e.1 f)
    | _ => none
  if rs.any fun e => e.2.waits then some .wait
  else if !bad.isEmpty then some (.fault bad) else none

/-- The translation of a line, and its physical line number. -/
def opLineAt (rs : List (Nat × TRes)) (l : Nat) : TRes × Nat :=
  let r := ((rs.find? fun e => e.1 / 4096 = l / 32).map (·.2)).getD .wait
  (r, r.phys.2 / 4096 * 32 + l % 32)

/-- Read lines for an operation, of whose pages `vas` are the lowest addresses reached (R434, R797). Lines of a host window are asked of
the host and taken when they have come. -/
def Dev.opRead (d : Dev) (x : Node) (o : FabOp) (vas ls : List Nat) : Dev × OpRes :=
  let (d, rs) := d.opTrans o 0 vas
  match opTransFail x o 0 rs with
  | some f => (d, f)
  | none =>
    let hosts := (ls.filter fun l => (opLineAt rs l).1.isHost).map fun l => ((opLineAt rs l).2, d.via o.owner (128 * l) (opLineAt rs l).1)
    let lack := hosts.filter fun h => !(o.hbuf.any fun b => b.1 = h.1)
    if !lack.isEmpty then
      (lack.foldl (fun d h =>
        if ((d.op o.order).map fun o => o.hreq.contains h.1) = some true then d
        else (d.onOp o.order fun o => { o with hreq := h.1 :: o.hreq }).hostReadReq h.2 (128 * h.1) 128 9 o.order) d, .host)
    else
      let r := ls.foldl (fun (acc : Dev × List VLine) l =>
        match opLineAt rs l with
        | (.dev _ w _, p) =>
          let (d, v, po) := acc.1.l2Access (winReq (256 + o.die) o.owner w (128 * p) false 0 0 0)
          (d, acc.2 ++ [(l, v, po)])
        | (_, h) =>
          let b := (o.hbuf.find? fun b => b.1 = h).map (·.2)
          (acc.1, acc.2 ++ [(l, (b.getD (0, false)).1, if (b.getD (0, false)).2 then 15 else 0)])) (d, [])
      (r.1.onOp o.order fun o => { o with hbuf := o.hbuf.filter fun b => !hosts.any fun h => h.1 = b.1 }, .lines r.2)

/-- The lowest address that writes reach in each of their pages, ascending. -/
def writePages (ws : List VWrite) : List Nat :=
  elementPages (ws.flatMap fun w => ((maskRuns 128 0 w.2.1 []).head?.toList).map fun r => some (8 * (128 * w.1 + r.1)))

/-- Write parts of lines for an operation. -/
def Dev.opWrite (d : Dev) (x : Node) (o : FabOp) (ws : List VWrite) : Dev × OpRes :=
  let (d, rs) := d.opTrans o 1 (writePages ws)
  match opTransFail x o 1 rs with
  | some f => (d, f)
  | none =>
    (ws.foldl (fun d w =>
      match opLineAt rs w.1 with
      | (.dev _ win _, p) => (d.l2Access (winReq (256 + o.die) o.owner win (128 * p) true w.2.1 w.2.2.1 w.2.2.2)).1
      | (r', h) => (rangeFrom 0 4).foldl (fun d s =>
          (maskRuns 32 0 (bits w.2.1 (32 * s) 32) []).foldl (fun d r =>
            d.postWrite (d.via o.owner (128 * w.1 + 32 * s + r.1) r') (128 * h + 32 * s + r.1) (leBytes r.2 (w.2.2.1 / 2 ^ (8 * (32 * s + r.1)))) (bit w.2.2.2 s)) d) d) d,
      .lines [])

/-- A host line arrives for an operation (use code 9). -/
def Dev.opHostLine (d : Dev) (k line v : Nat) (poison : Bool) : Dev :=
  d.onOp k fun o => if o.hreq.contains line then { o with hreq := o.hreq.erase line, hbuf := o.hbuf ++ [(line, v, poison)] } else o

/-- The value and poison of the `n` bits at a bit address, from lines. -/
def bitsIn (ls : List VLine) (b n : Nat) : Nat × Bool :=
  let l := lineOf ls (b / 1024)
  (bits l.1 (b % 1024) n, bit l.2 (b % 1024 / 256))

/-- An operation aborts for a failed access: its node's records and report. A restartable member sends ABORT for its attempt and waits
for FAULT_RESUME; any other member's failure is FATAL for the rest (R815, R832). -/
def Dev.opFault (d : Dev) (x : Node) (o : FabOp) (rs : List FaultRec) : Dev :=
  let d := d.nodeFault x o.eng rs
  let batch := (rs.head?.map (·.cause)).getD 0 ≤ 3
  if o.opc = 6 then d.opGone o.order
  else if x.restartable && batch then
    let abort := o.hdr 3
    let d := if o.table.isEmpty then d
      else if o.rank = 0 then ((o.kids 0).foldl (fun d r => d.treeSend o r abort []) d).oinc O.ATTEMPTS_ABORTED
      else d.treeSend o (reParent (o.entry o.rank)) abort []
    d.onOp o.order fun o => { o with phase := 4, todo := [], pulls := [], vals := [], result := [], hreq := [], hbuf := [] }
  else
    ((o.near.foldl (fun d r => d.treeSend o r { o.hdr 3 with fatal := true, detail := 7 } []) d).oinc O.OPS_FAILED).opGone o.order

/-! ### Elements -/

/-- The bit addresses of a box of a descriptor's elements, in logical row-major order. -/
def boxBits (x lead row col rows cols : Nat) : List Nat :=
  let lo := tdLead x lead
  (rangeFrom row rows).flatMap fun r => (rangeFrom col cols).map fun c => tdElem x lo r c

/-- The bit addresses of every element of a descriptor, in logical row-major order. -/
def allBits (x : Nat) : List Nat := (rangeFrom 0 (tdLeadCount x)).flatMap fun l => boxBits x l 0 0 (tdRows x) (tdCols x)

/-- Number of elements of a descriptor. -/
def elemCount (x : Nat) : Nat := tdLeadCount x * tdRows x * tdCols x

/-- Write elements at bit addresses; the other half of a byte that holds one 4-bit element is kept. -/
def Dev.writeElems (d : Dev) (x : Node) (o : FabOp) (wb : Nat) (es : List (Nat × Nat × Bool)) : Dev × OpRes :=
  let lone := if wb ≠ 4 then [] else es.filter fun e => !(es.any fun y => y.1 / 8 = e.1 / 8 && y.1 ≠ e.1)
  match if lone.isEmpty then (d, OpRes.lines []) else d.opRead x o (elementPages (lone.map fun e => some e.1)) (linesOf (lone.map fun e => some e.1)) with
  | (d, .lines ls) =>
    let halves := lone.map fun e =>
      let b := if e.1 % 8 = 0 then e.1 + 4 else e.1 - 4
      let v := bitsIn ls b 4
      (b, v.1, v.2)
    let ws := (es ++ halves).foldl (fun l e => addWrite l e.1 wb e.2.1 e.2.2) ([] : List VWrite)
    d.opWrite x o (sortBy (fun a b => decide (a.1 ≤ b.1)) ws)
  | r => r

/-- Values packed into bytes, `w` bits each. -/
def packBits (w : Nat) (vs : List Nat) : List Byte :=
  leBytes (cdiv (w * vs.length) 8) (vs.zipIdx.foldl (fun a e => a + e.1 % 2 ^ w * 2 ^ (w * e.2)) 0)

/-- The poison mask of values of `w` bits, one bit per 32 bytes of data (R812). -/
def poisonMask (w : Nat) (ps : List Bool) : Nat :=
  ps.zipIdx.foldl (fun m e => if e.1 then m ||| ((2 ^ (cdiv (w * (e.2 + 1)) 256 - w * e.2 / 256) - 1) * 2 ^ (w * e.2 / 256)) else m) 0

/-- The values of a payload: a 16-byte poison mask, then `n` values of `w` bits. -/
def unpackVals (w n : Nat) (bs : List Byte) : List (Nat × Bool) :=
  let m := leNat (bs.take 16)
  let v := leNat (bs.drop 16)
  (rangeFrom 0 n).map fun i => (bits v (w * i) w, bits m (w * i / 256) (cdiv (w * (i + 1)) 256 - w * i / 256) ≠ 0)

/-! ### Placement maps (R800 to R802) -/

/-- A box of a map: its global and local origin and its extents. -/
structure MBox where
  grow : Nat
  gcol : Nat
  rows : Nat
  cols : Nat
  lrow : Nat
  lcol : Nat
  deriving DecidableEq, Repr

/-- The boxes of a piece, one per repetition (R801). -/
def pieceBoxes (p : Nat) : List MBox :=
  (rangeFrom 0 (bits p 224 16)).map fun j =>
    ⟨bits p 0 32, bits p 32 32 + j * bits p 192 32, bits p 64 32, bits p 96 32, bits p 128 32, bits p 160 32 + j * bits p 240 16⟩

/-- The boxes of a rank in a map. -/
def rankBoxes (table pieces : List Nat) (r : Nat) : List MBox :=
  ((pieces.drop (reFirst (at0 table r))).take (reCount (at0 table r))).flatMap pieceBoxes

/-- The SRC boxes of a rank. -/
def FabOp.srcBoxes (o : FabOp) (r : Nat) : List MBox := rankBoxes o.table o.srcPieces r

/-- The DST boxes of the own rank. -/
def FabOp.dstBoxes (o : FabOp) : List MBox := rankBoxes o.dtable o.dstPieces o.rank

/-- A box holds a global row and column. -/
def MBox.holds (b : MBox) (r c : Nat) : Bool := b.grow ≤ r && r < b.grow + b.rows && b.gcol ≤ c && c < b.gcol + b.cols

/-- The lowest rank whose SRC pieces hold a global row and column (R808). -/
def FabOp.holder (o : FabOp) (r c : Nat) : Option Nat :=
  (rangeFrom 0 o.size).find? fun k => (o.srcBoxes k).any fun b => b.holds r c

/-- The overlap of two boxes by global place: origin and extents. -/
def MBox.meet (a b : MBox) : Option (Nat × Nat × Nat × Nat) :=
  let r := max a.grow b.grow
  let c := max a.gcol b.gcol
  let re := min (a.grow + a.rows) (b.grow + b.rows)
  let ce := min (a.gcol + a.cols) (b.gcol + b.cols)
  if r < re && c < ce then some (r, c, re - r, ce - c) else none

/-- Cut `n` from `a` into spans of at most `k`. -/
def spans (k : Nat) : Nat → Nat → Nat → List (Nat × Nat)
  | 0, _, _ => []
  | f + 1, a, n => if n = 0 then [] else (a, min n (max k 1)) :: spans k f (a + min n (max k 1)) (n - min n (max k 1))

/-- The boxes pulled from a source rank, in ascending leading index, row and column, of at most 4,096 data bytes each (R810). -/
def FabOp.pullsFrom (o : FabOp) (s : Nat) : List Pull :=
  let wb := tdBits o.dst
  let bs := o.dstBoxes.flatMap fun b => (o.srcBoxes s).filterMap fun a => (a.meet b).map fun m => (a, b, m)
  let one := fun (lead : Nat) => bs.flatMap fun e =>
    let (a, b, r, c, nr, nc) := e
    (spans (32768 / wb) (nc + 1) c nc).flatMap fun cs =>
      (spans (32768 / (cs.2 * wb)) (nr + 1) r nr).map fun rs =>
        Pull.mk s lead (a.lrow + (rs.1 - a.grow)) (a.lcol + (cs.1 - a.gcol)) rs.2 cs.2 (b.lrow + (rs.1 - b.grow))
          (b.lcol + (cs.1 - b.gcol)) rs.1 cs.1
  (rangeFrom 0 (tdLeadCount o.dst)).flatMap fun l =>
    sortBy (fun p q => decide (p.grow < q.grow) || (p.grow = q.grow && decide (p.gcol ≤ q.gcol))) (one l)

/-- Every pull of the own rank: source ranks from the own rank + 1 on, the own rank last. -/
def FabOp.allPulls (o : FabOp) : List Pull :=
  ((rangeFrom 1 o.size).map fun i => (o.rank + i) % o.size).flatMap o.pullsFrom

/-- The hash of a byte string as R431 hashes a name (R802). -/
def mapHash (ws : List Nat) (n : Nat) : Nat := nameHash (ws.flatMap fun w => leBytes n w)

/-- A header and rank table break the format of Table 17.2 or 17.3; a group map has no global rank (R800). -/
def mapBad (grp : Bool) (h : Nat) (table pieces : List Nat) : Bool :=
  let t := bits h 32 3
  let n := bits h 0 16
  bits h 35 29 ≠ 0 || h / 2 ^ 256 % 2 ^ 256 ≠ 0 || n = 0 || 4096 < n ||
  (if grp then t ≠ 0 || bits h 16 16 ≠ 0 || bits h 64 192 ≠ 0
   else t = 0 || 6 < t || (rangeFrom 0 6).any (fun k => (bits h (64 + 32 * k) 32 = 0) = decide (k < t))) ||
  table.zipIdx.any (fun e => bits e.1 29 3 ≠ 0 || 19 < reLink e.1 || (if e.2 = 0 then reParent e.1 ≠ 0 || reLink e.1 ≠ 0 else e.2 ≤ reParent e.1) ||
    bits h 16 16 < reFirst e.1 + reCount e.1) ||
  pieces.any fun p => bits p 224 16 = 0 || (t = 1 && (bits p 64 32 ≠ 1 || bits p 0 32 ≠ 0 || bits p 128 32 ≠ 0))

/-- A piece leaves the global extents. -/
def pieceOut (h p : Nat) : Bool :=
  let t := bits h 32 3
  let rows := if t < 2 then 1 else bits h (64 + 32 * (t - 2)) 32
  let cols := bits h (64 + 32 * (t - 1)) 32
  rows < bits p 0 32 + bits p 64 32 || cols < bits p 32 32 + (bits p 224 16 - 1) * bits p 192 32 + bits p 96 32

/-- Two boxes overlap by local place. -/
def MBox.clash (a b : MBox) : Bool :=
  a.lrow < b.lrow + b.rows && b.lrow < a.lrow + a.rows && a.lcol < b.lcol + b.cols && b.lcol < a.lcol + a.cols

/-- Some two boxes of a list overlap. -/
def anyClash : List MBox → Bool
  | [] => false
  | b :: bs => bs.any (fun c => b.clash c) || anyClash bs

/-! ### Barriers (R803 to R805, R826, R827) -/

/-- Smallest k · 1,000 − 500 ns that is at least `t` (R804). -/
def releaseTime (t : Nat) : Nat := 1000 * cdiv (t + 500) 1000 - 500

/-- Barrier of a phase: 0 entry, 1 exit. -/
def FabOp.barrier (o : FabOp) : Nat := if o.phase = 3 then 1 else 0

/-- ENTER's payload for the present barrier. -/
def FabOp.enterLoad (o : FabOp) : List Byte := leBytes 16 (o.key + o.barrier * 2 ^ 120)

/-- Send RELEASE to the children. -/
def Dev.releaseDown (d : Dev) (o : FabOp) (t : Nat) : Dev := (o.kids o.rank).foldl (fun d r => d.treeSend o r (o.hdr 2) (leBytes 8 t)) d

/-- A rank that has arrived and holds every child's ENTER sends its own, or as the root releases the barrier. -/
def Dev.enterCheck (d : Dev) (k : Nat) : Dev :=
  match d.op k with
  | none => d
  | some o =>
    if (o.phase ≠ 1 && o.phase ≠ 3) || o.release.isSome || o.sentAt.isSome ||
        !((o.kids o.rank).all fun c => o.entered.contains (2 * c + o.barrier)) then d
    else if o.rank = 0 then
      let t := releaseTime (d.time + 1000 * o.lead)
      (d.releaseDown o t).onOp k fun o => { o with release := some t, exitSent := o.exitSent || o.phase = 3 }
    else
      (d.treeSend o (reParent (o.entry o.rank)) (o.hdr 1) o.enterLoad).onOp k fun o => { o with sentAt := some d.time }

/-- A child's ENTER (R804, R828): for the present attempt it is kept; one whose operation differs fails every member. -/
def Dev.enterTake (d : Dev) (k : Nat) (p : FPacket) : Dev :=
  match d.op k with
  | none => d
  | some o =>
    let h := opHdrOf p
    let load := leNat ((opLoad p).take 16)
    if load % 2 ^ 120 ≠ o.key then d.opFail k (opCause o.opc) 6 6 none
    else (d.onOp k fun o => { o with entered := if o.entered.contains (2 * h.src + load / 2 ^ 120 % 2) then o.entered
                                                else o.entered ++ [2 * h.src + load / 2 ^ 120 % 2] }).enterCheck k

/-- A packet belongs to an operation instance (R798). -/
def OpHdr.names (h : OpHdr) (owner : Nat) (o : FabOp) : Bool := o.owner = owner && o.opc ≠ 6 && o.group = h.group && o.opseq = h.opseq

/-- Take from the early-arrival table what belongs to the present attempt of an operation. -/
def Dev.drainEarly (d : Dev) (k : Nat) : Dev :=
  match d.op k with
  | none => d
  | some o =>
    let mine := fun (p : FPacket) => (opHdrOf p).names p.owner o && (opHdrOf p).attempt = o.attempt
    let ps := d.fab.early.filter mine
    let d := { d with fab := { d.fab with early := d.fab.early.filter fun p => !mine p } }
    ps.foldl (fun d p =>
      if (opHdrOf p).kind = 3 then d.opFail k (opCause o.opc) (opHdrOf p).detail (opHdrOf p).detail (some (opHdrOf p).src)
      else d.enterTake k p) d

/-- The rank arrives at a barrier. -/
def Dev.arrive (d : Dev) (k phase : Nat) : Dev :=
  ((d.onOp k fun o => { o with phase := phase, since := d.time, sentAt := none, release := none }).drainEarly k).enterCheck k

/-- A new attempt begins at the entry barrier (R815). -/
def Dev.restart (d : Dev) (k : Nat) : Dev :=
  (d.onOp k fun o => { o with attempt := (o.attempt + 1) % 256, entered := [], todo := [], pulls := [], serve := [], vals := [],
                              result := [], sentUp := false, filled := false, exitSent := false }).arrive k 1

/-! ### The data phase of a RESHARD (R807 to R813) -/

/-- The elements of a pulled box that this source supplies: place in the box, and bit address in DST. -/
def FabOp.wins (o : FabOp) (p : Pull) : List (Nat × Nat) :=
  ((boxBits o.dst p.lead p.drow p.dcol p.rows p.cols).zipIdx.filter fun e =>
    o.holder (p.grow + e.2 / p.cols) (p.gcol + e.2 % p.cols) = some p.src).map fun e => (e.2, e.1)

/-- Store the values of a pulled box. -/
def Dev.storeBox (d : Dev) (x : Node) (o : FabOp) (p : Pull) (vs : List (Nat × Bool)) : Dev × OpRes :=
  d.writeElems x o (tdBits o.dst) ((o.wins p).map fun e => let v := (vs[e.1]?).getD (0, false); (e.2, v.1, v.2))

/-- Write FILL to the own DST elements that no source holds (R808). -/
def Dev.fillDst (d : Dev) (x : Node) (o : FabOp) : Dev × OpRes :=
  let es := (rangeFrom 0 (tdLeadCount o.dst)).flatMap fun l =>
    o.dstBoxes.flatMap fun b =>
      ((boxBits o.dst l b.lrow b.lcol b.rows b.cols).zipIdx.filter fun e =>
        (o.holder (b.grow + e.2 / b.cols) (b.gcol + e.2 % b.cols)).isNone).map fun e => (e.1, tdFill o.dst, false)
  if es.isEmpty then (d, .lines []) else d.writeElems x o (tdBits o.dst) es

/-- Every pull has been served and stored: the exit barrier. -/
def Dev.pullsDone (d : Dev) (k : Nat) : Dev :=
  match d.op k with
  | some o => if o.phase = 2 && o.filled && o.todo.isEmpty && o.pulls.isEmpty then d.arrive k 3 else d
  | none => d

/-- PULLs the chip has outstanding (R810). -/
def Dev.pullsOut (d : Dev) : Nat := (d.fab.ops.map fun o => o.pulls.length).sum

/-- Ask for boxes while the pull window of the chip has room; the own rank's boxes move locally. -/
def Dev.pullGo (d : Dev) (x : Node) (k : Nat) : List Pull → Dev
  | [] => d.pullsDone k
  | p :: ps =>
    match d.op k with
    | none => d
    | some o =>
      if p.src = o.rank then
        let es := (boxBits o.src p.lead p.srow p.scol p.rows p.cols).map some
        match d.opRead x o (elementPages es) (linesOf es) with
        | (d, .lines ls) =>
          let vs := (boxBits o.src p.lead p.srow p.scol p.rows p.cols).map fun b => bitsIn ls b (tdBits o.src)
          match d.storeBox x o p vs with
          | (d, .lines _) => Dev.pullGo (d.onOp k fun o => { o with todo := o.todo.drop 1 }) x k ps
          | (d, .fault rs) => d.opFault x o rs
          | (d, _) => d
        | (d, .fault rs) => d.opFault x o rs
        | (d, _) => d
      else if o.window ≤ d.pullsOut then d
      else
        let h := { o.hdr 4 with dest := p.src, lead := p.lead, row := p.srow, col := p.scol, rows := p.rows, cols := p.cols }
        let d := d.onOp k fun o => { o with todo := o.todo.drop 1, pulls := o.pulls ++ [p] }
        Dev.pullGo (d.opRoute o.owner 1 (reOwn (o.entry p.src)) h []) x k ps

/-- Write FILL where it is due, then pull; a write of FILL that awaits the host is made again. -/
def Dev.dataGo (d : Dev) (x : Node) (k : Nat) : Dev :=
  match d.op k with
  | none => d
  | some o =>
    if o.phase ≠ 2 then d
    else if o.filled then d.pullGo x k o.todo
    else
      match d.fillDst x o with
      | (d, .lines _) => (d.onOp k fun o => { o with filled := true }).pullGo x k o.todo
      | (d, .fault rs) => d.opFault x o rs
      | (d, _) => d

/-- The RESHARDs in their data phase go on, as a place in the pull window or a translation comes. -/
def Dev.pullNext (d : Dev) : Dev :=
  d.fab.ops.foldl (fun d o =>
    match d.node o.order with
    | some x => if o.opc = 7 then d.dataGo x o.order else d
    | none => d) d

/-- Serve a PULL (R811, R812): the box through the SRC descriptor, in row-major order. A window or permission check that fails
gives zeros with poison (Table 14.5); false while a read awaits the host. -/
def Dev.serveOne (d : Dev) (x : Node) (o : FabOp) (p : FPacket) : Dev × Bool :=
  let h := opHdrOf p
  let wb := tdBits o.src
  let n := h.rows * h.cols
  let send := fun (d : Dev) (vs : List (Nat × Bool)) =>
    let load := leBytes 16 (poisonMask wb (vs.map (·.2))) ++ packBits wb (vs.map (·.1))
    (d.oadd O.PULL_BYTES_SERVED (cdiv (wb * n) 8)).opRoute o.owner 2 p.src
      { h with kind := 5, src := o.rank, dest := h.src } load
  let bs := boxBits o.src h.lead h.row h.col h.rows h.cols
  match d.opRead x o (elementPages (bs.map some)) (linesOf (bs.map some)) with
  | (d, .lines ls) => (send d (bs.map fun b => bitsIn ls b wb), true)
  | (d, .fault rs) =>
    if rs.all fun r => r.cause = 2 || r.cause = 3 then
      (send (rs.foldl Dev.faultLog d) (List.replicate n (0, true)), true)
    else (d.opFault x o rs, true)
  | (d, _) => (d, false)

/-- Serve the PULLs that wait, in arrival order. -/
def Dev.serveAll (d : Dev) (x : Node) (k : Nat) : List FPacket → Dev
  | [] => d
  | p :: ps =>
    match d.op k with
    | none => d
    | some o =>
      if o.phase < 2 || o.phase = 4 then d
      else match d.serveOne x o p with
        | (d, true) => Dev.serveAll (d.onOp k fun o => { o with serve := o.serve.drop 1 }) x k ps
        | (d, false) => d

/-- DATA arrives for a box asked for (R812, R813). -/
def Dev.dataTake (d : Dev) (x : Node) (o : FabOp) (p : FPacket) : Dev :=
  let h := opHdrOf p
  match o.pulls.find? fun q => q.src = h.src && q.lead = h.lead && q.srow = h.row && q.scol = h.col && q.rows = h.rows && q.cols = h.cols with
  | none => d
  | some q =>
    let wb := tdBits o.dst
    let n := q.rows * q.cols
    match d.storeBox x o q (unpackVals wb n (opLoad p)) with
    | (d, .lines _) =>
      let d := (d.oadd O.PULL_BYTES_IN (cdiv (wb * n) 8)).onOp o.order fun o => { o with pulls := o.pulls.erase q }
      (d.pullGo x o.order o.todo).pullNext
    | (d, .fault rs) => d.opFault x o rs
    | (d, _) => { d with fab := { d.fab with inbox := d.fab.inbox ++ [(20, p)] } }

/-! ### Collectives (R817 to R823) -/

/-- Bits of a superaccumulator. -/
def accBits : Nat := 2176

/-- The superaccumulator of one FP64 input (R821, R822). -/
def accOf (x : Nat) (poison : Bool) : Nat :=
  let e := bits x 52 11
  let f := bits x 0 52
  let neg := bit x 63
  let st := b2n poison * 2 ^ 2172 + b2n (x ≠ 2 ^ 63) * 2 ^ 2171
  if e = 2047 then
    st + (if f ≠ 0 then 2 ^ 2170 else if neg then 2 ^ 2169 else 2 ^ 2168)
  else
    let m := (if e = 0 then f else f + 2 ^ 52) * 2 ^ (e - 1)
    st + ofSigned 2168 (signedM neg m)

/-- Two superaccumulators foldVals: the integers add, the status bits are ORed (R822). -/
def accAdd (a b : Nat) : Nat := (bits a 0 2168 + bits b 0 2168) % 2 ^ 2168 + ((bits a 2168 5) ||| (bits b 2168 5)) * 2 ^ 2168

/-- The final value of a superaccumulator (R823). -/
def accRound (a : Nat) : Nat × Bool :=
  let i := toSigned 2168 a
  let v :=
    if bit a 2170 || (bit a 2168 && bit a 2169) then fmtNan 4
    else if bit a 2168 then fpInf 4 false
    else if bit a 2169 then fpInf 4 true
    else if i = 0 then (if bit a 2171 then 0 else 2 ^ 63)
    else (fpRound 4 0 false false (decide (i < 0)) i.natAbs (-1074)).bits
  (v, bit a 2172)

/-- The combination of MODE on values of a format (R818, R820). -/
def foldVals (mode f : Nat) (a b : Nat × Bool) : Nat × Bool :=
  let v :=
    match mode with
    | 0 => if isIntFmt f then (a.1 + b.1) % 2 ^ fmtWidth f else (fpAdd f 0 false a.1 b.1).bits
    | 3 => accAdd a.1 b.1
    | m =>
      if isIntFmt f then (if decide (intDecode f a.1 ≤ intDecode f b.1) = (m = 1) then a.1 else b.1)
      else (fpMinMax f (m = 2) false a.1 b.1).bits
  (v, a.2 || b.2)

/-- EXACT_SUM carries superaccumulators. -/
def FabOp.exact (o : FabOp) : Bool := (o.op = 2 || o.op = 3) && o.mode = 3

/-- Bits of one element in UP and DOWN. -/
def FabOp.width (o : FabOp) : Nat := if o.exact then accBits else tdBits (if o.src = 0 then o.dst else o.src)

/-- Elements that travel from one rank. -/
def FabOp.count (o : FabOp) : Nat :=
  match o.op with
  | 1 => elemCount o.dst
  | 4 => elemCount o.src
  | _ => if elemCount o.dst = 1 then 1 else elemCount o.src

/-- Elements of the result. -/
def FabOp.resultCount (o : FabOp) : Nat := elemCount o.dst

/-- `a` lies on the path from `r` to rank 0, ends included. -/
def FabOp.onPath (o : FabOp) (a : Nat) : Nat → Nat → Bool
  | 0, r => a = r
  | f + 1, r => a = r || (r ≠ 0 && o.onPath a f (reParent (o.entry r)))

/-- The ranks the result goes to from the own rank: every child, or for REDUCE the child towards ROOT. -/
def FabOp.downTo (o : FabOp) : List Nat :=
  (o.kids o.rank).filter fun c => o.op ≠ 2 || o.onPath c o.size o.root

/-- The own rank receives the result. -/
def FabOp.gets (o : FabOp) : Bool := o.op ≠ 2 || o.onPath o.rank o.size o.root

/-- Send values in packets of at most 4,096 data bytes. -/
def Dev.sendVals (d : Dev) (o : FabOp) (dests : List Nat) (kind src : Nat) (vs : List (Nat × Bool)) : Dev :=
  let w := o.width
  (spans (32768 / w) (vs.length + 1) 0 vs.length).foldl (fun d s =>
    let part := (vs.drop s.1).take s.2
    let load := leBytes 16 (poisonMask w (part.map (·.2))) ++ packBits w (part.map (·.1))
    dests.foldl (fun d r => d.treeSend o r { o.hdr kind with src := src, col := s.1, cols := s.2 } load) d) d

/-- The values received from a rank, when all have come. -/
def valsOf (l : List (Nat × Nat × Bool)) (n : Nat) : Option (List (Nat × Bool)) :=
  let vs := (rangeFrom 0 n).filterMap fun i => (l.find? fun e => e.1 = i).map (·.2)
  if vs.length = n then some vs else none

/-- The values received from rank `r`, when all have come. -/
def FabOp.valsFrom (o : FabOp) (r : Nat) : Option (List (Nat × Bool)) := valsOf (dget [] o.vals r) o.count

/-- The own contribution, from the elements of SRC (R817, R822). -/
def FabOp.own (o : FabOp) (vs : List (Nat × Bool)) : List (Nat × Bool) :=
  let vs := if o.exact then vs.map fun v => (accOf v.1 v.2, v.2) else vs
  if (o.op = 2 || o.op = 3) && elemCount o.dst = 1 then
    match vs with
    | [] => []
    | v :: rest => [rest.foldl (foldVals o.mode (tdFormat o.src)) v]
  else vs

/-- The own rank has the result: it passes it down, stores it, and arrives at the exit barrier. -/
def Dev.resultHere (d : Dev) (x : Node) (o : FabOp) (vs : List (Nat × Bool)) : Dev :=
  let writes := o.op ≠ 2 || o.rank = o.root
  let out := if o.exact then vs.map fun v => accRound v.1 else vs
  match if writes then d.writeElems x o (tdBits o.dst) ((allBits o.dst).zip out |>.map fun e => (e.1, e.2.1, e.2.2)) else (d, .lines []) with
  | (d, .lines _) =>
    let d := if writes && o.exact then d.oadd O.EXACT_ELEMENTS vs.length else d
    (d.sendVals o o.downTo 7 o.rank vs).arrive o.order 3
  | (d, .fault rs) => d.opFault x o rs
  | (d, _) => d

/-- Advance the data phase of a COLLECTIVE. -/
def Dev.collGo (d : Dev) (x : Node) (k : Nat) : Dev :=
  match d.op k with
  | none => d
  | some o =>
    if o.phase ≠ 2 then d
    else
      let up := fun (d : Dev) (vs : List (Nat × Bool)) =>
        (d.sendVals o [reParent (o.entry o.rank)] 6 o.rank vs).onOp k fun o => { o with sentUp := true }
      let wait := fun (d : Dev) =>
        match d.op k with
        | none => d
        | some o =>
          if o.rank ≠ 0 && o.gets then (match valsOf o.result o.resultCount with
            | some vs => d.resultHere x o vs
            | none => d)
          else if o.sentUp then d.arrive k 3 else d
      let needOwn := !o.sentUp && (o.op ≠ 1 || o.rank = o.root) &&
        (o.op = 1 || o.op = 4 || (o.kids o.rank).all fun c => (o.valsFrom c).isSome)
      if o.op = 1 && o.rank ≠ o.root then
        if o.rank = 0 then
          match (o.kids 0).findSome? fun c => if o.onPath c o.size o.root then o.valsFrom c else none with
          | some vs => d.resultHere x o vs
          | none => d
        else if !o.sentUp && o.onPath o.rank o.size o.root then
          match (o.kids o.rank).findSome? fun c => if o.onPath c o.size o.root then o.valsFrom c else none with
          | some vs => wait (up d vs)
          | none => wait d
        else wait d
      else if needOwn then
        let bs := allBits o.src
        match d.opRead x o (elementPages (bs.map some)) (linesOf (bs.map some)) with
        | (d, .lines ls) =>
          let mine := o.own (bs.map fun b => bitsIn ls b (tdBits o.src))
          if o.op = 1 then (if o.rank = 0 then d.resultHere x o mine else wait (up d mine))
          else if o.op = 4 then
            if o.rank = 0 then d.onOp k fun o => { o with sentUp := true, vals := mset o.vals 0 (mine.zipIdx.map fun e => (e.2, e.1.1, e.1.2)) }
            else wait (up d mine)
          else
            let v := (o.kids o.rank).foldl (fun acc c =>
              (acc.zip ((o.valsFrom c).getD [])).map fun e => foldVals o.mode (tdFormat o.src) e.1 e.2) mine
            if o.rank = 0 then d.resultHere x o v else wait (up d v)
        | (d, .fault rs) => d.opFault x o rs
        | (d, _) => d
      else if o.op = 4 && o.rank = 0 then
        let all := (rangeFrom 0 o.size).map o.valsFrom
        if all.all (·.isSome) then d.resultHere x o (all.flatMap fun v => v.getD []) else d
      else wait d

/-- UP arrives (R819): an ALLGATHER's values go on to the parent as they are. -/
def Dev.upTake (d : Dev) (x : Node) (o : FabOp) (p : FPacket) : Dev :=
  let h := opHdrOf p
  if o.op = 4 && o.rank ≠ 0 then d.treeSend o (reParent (o.entry o.rank)) { h with dest := reParent (o.entry o.rank) } (opLoad p)
  else
    let vs := (unpackVals o.width h.cols (opLoad p)).zipIdx.map fun e => (h.col + e.2, e.1.1, e.1.2)
    let d := d.onOp o.order fun o => { o with vals := mset o.vals h.src (dget [] o.vals h.src ++ vs) }
    (d.collGo x o.order).collGo x o.order

/-- DOWN arrives. -/
def Dev.downTake (d : Dev) (x : Node) (o : FabOp) (p : FPacket) : Dev :=
  let h := opHdrOf p
  let vs := (unpackVals o.width h.cols (opLoad p)).zipIdx.map fun e => (h.col + e.2, e.1.1, e.1.2)
  (d.onOp o.order fun o => { o with result := o.result ++ vs }).collGo x o.order

/-! ### COPY (R824) -/

/-- Move the rest of a COPY in pieces of at most 4,096 bytes; poison cannot travel in a WRITE, so a remote COPY that reads it fails. -/
def Dev.copyGo (d : Dev) (x : Node) (k : Nat) : Nat → Dev
  | 0 => d
  | f + 1 =>
    match d.op k with
    | none => d
    | some o =>
      let n := min 4096 (cpLength x.body - o.next)
      if n = 0 then (if o.acks = 0 then d.opDone k else d)
      else
        let a := cpSrc x.body + o.next
        let b := cpDst x.body + o.next
        match d.opRead x o (rangePages a n) (rangeLines a n) with
        | (d, .lines ls) =>
          let cs := rangeChunks a n ls
          if !cpRemote x.body then
            match d.opWrite x o (rangeWrites b cs) with
            | (d, .lines _) => Dev.copyGo (d.onOp k fun o => { o with next := o.next + n }) x k f
            | (d, .fault rs) => d.opFault x o rs
            | (d, _) => d
          else if cs.any fun c => c.2 then d.opFail k 6 0 7 none
          else
            let h := { o.hdr 8 with col := o.next % 2 ^ 32, cols := n, rows := 1 }
            let load := leBytes 8 b ++ cs.flatMap fun c => leBytes 32 c.1
            let d := d.onOp k fun o => { o with next := o.next + n, acks := o.acks + 1 }
            Dev.copyGo (d.opRoute o.owner 1 (cpChip x.body) h load) x k f
        | (d, .fault rs) => d.opFault x o rs
        | (d, _) => d

/-- ACK arrives. -/
def Dev.ackTake (d : Dev) (x : Node) (o : FabOp) (h : OpHdr) : Dev :=
  if h.detail ≠ 0 then d.opFail o.order 0x3A 7 7 none
  else (d.onOp o.order fun o => { o with acks := o.acks - 1 }).copyGo x o.order (cpLength x.body / 4096 + 2)

/-- WRITE arrives (R824): checked against the owner's windows; one that fails is dropped, logged and answered with ERR_WINDOW; false
while its translation awaits the host. -/
def Dev.writeTake (d : Dev) (p : FPacket) : Dev × Bool :=
  let h := opHdrOf p
  let va := leNat ((opLoad p).take 8)
  let bs := ((opLoad p).drop 8).take h.cols
  let die := match d.windowAt p.owner va with
    | some (_, w) => if w.home = 1 then 1 else 0
    | none => 0
  let answer := fun (d : Dev) c => d.opRoute p.owner 2 p.src { h with kind := 9, detail := c, src := h.dest, dest := h.src } []
  match d.vaWrite (0x2000 + die) p.owner va bs false with
  | (d, .ok ..) => (answer d 0, true)
  | (d, .fail f) =>
    (answer ((d.raise { cause := f.cause, detail := f.detail, owner := p.owner, eng := 0x2000 + die, addr := va }).oinc O.VIOLATIONS) 3, true)
  | (d, .wait) => (d, false)

/-! ### Dispatch of an operation (R796 to R798, R806, R814, R831) -/

/-- SRC_HANDLE and DST_HANDLE of a RESHARD or a COLLECTIVE. -/
def fxHandles (opc p : Nat) : Nat × Nat := if opc = 7 then (bits p 64 12, bits p 76 12) else (bits p 76 12, bits p 88 12)

/-- GROUP. -/
def fxGroup (opc p : Nat) : Nat := if opc = 7 then bits p 256 16 else if opc = 8 then bits p 192 16 else 0

/-- OP and MODE of a COLLECTIVE; a RESHARD has neither. -/
def fxOp (opc p : Nat) : Nat × Nat := if opc = 8 then (bits p 64 8, bits p 72 4) else (0, 0)

/-- The operation's descriptors, as their table entries stand: SRC, DST. -/
def Dev.opDescs (d : Dev) (x : Node) : Dev × Nat × Nat :=
  if x.opc = 6 || (x.opc = 8 && (fxOp 8 x.body).1 = 0) then (d, 0, 0)
  else
    let h := fxHandles x.opc x.body
    let table := dget 0 d.prec.descTable x.owner
    let (d, a, _) := d.dpaRead 259 256 (table + 128 * h.1) 128
    let (d, b, _) := d.dpaRead 259 256 (table + 128 * h.2) 128
    (d, a, b)

/-- The die of an operation by the home of its SRC window (R797). -/
def Dev.opDie (d : Dev) (x : Node) (src : Nat) : Nat :=
  let home := if x.opc = 6 then (d.windowAt x.owner (cpSrc x.body)).map fun w => w.2.home
    else if src = 0 then none else (d.window x.owner (tdWindow src)).map (·.home)
  if home = some 1 then 1 else 0

/-- A failed check of a dispatch: its detail, with a FATAL ABORT once the tree is known (R831); none goes over a PARENT_LINK that does not
lead to the parent. -/
def Dev.opCheckFail (d : Dev) (k det : Nat) : Dev :=
  match d.op k with
  | some o => d.opFail k (opCause o.opc) det 7 (if det = 8 then some (reParent (o.entry o.rank)) else none)
  | none => d

/-- The words of `n` bytes each at a map's address, read as the owner. -/
def wordsAt (ls : List VLine) (a n count : Nat) : List Nat :=
  (rangeFrom 0 count).map fun i =>
    let x := a + n * i
    bits (lineOf ls (x / 128)).1 (8 * (x % 128)) (8 * n)

/-- What the reading of a map yields: its header, rank table and pieces; none while it waits or has failed. -/
def Dev.readMap (d : Dev) (x : Node) (o : FabOp) (a : Nat) : Dev × Option (Nat × List Nat × List Nat) :=
  let stop := fun (r : Dev × OpRes) => match r with
    | (d, .fault rs) => (d.opFault x o rs, none)
    | (d, _) => (d, none)
  match d.opRead x o (rangePages a 64) (rangeLines a 64) with
  | (d, .lines l0) =>
    let h := bits (lineOf l0 (a / 128)).1 (8 * (a % 128)) 512
    let n := bits h 0 16
    let np := bits h 16 16
    match d.opRead x o (rangePages a (64 + 8 * n + 32 * np)) (rangeLines a (64 + 8 * n + 32 * np)) with
    | (d, .lines ls) =>
      let pieces := (rangeFrom 0 (4 * np)).map fun i => (wordsAt ls (a + 64 + 8 * n + 8 * i) 8 1).headD 0
      let quad := (rangeFrom 0 np).map fun i =>
        at0 pieces (4 * i) + at0 pieces (4 * i + 1) * 2 ^ 64 + at0 pieces (4 * i + 2) * 2 ^ 128 + at0 pieces (4 * i + 3) * 2 ^ 192
      if (l0 ++ ls).any fun l => l.2.2 ≠ 0 then (d.opFail o.order 6 0 7 none, none)
      else (d, some (h, wordsAt ls (a + 64) 8 n, quad))
    | r => stop r
  | r => stop r

/-- Two byte ranges are disjoint. -/
def apart (a an b bn : Nat) : Bool := a + an ≤ b || b + bn ≤ a

/-- The operation is restartable (R814): DST is apart from SRC and from the bytes of its maps. -/
def opRestartable (src dst : Nat) (maps : List (Nat × Nat)) : Bool :=
  dst = 0 || (apart (tdBase dst) (tdEnd dst - tdBase dst) (tdBase src) (tdEnd src - tdBase src) &&
    maps.all fun m => apart (tdBase dst) (tdEnd dst - tdBase dst) m.1 m.2)

/-- Bytes of a map. -/
def mapBytes (h : Nat) : Nat := 64 + 8 * bits h 0 16 + 32 * bits h 16 16

/-- The chip's rank in a rank table: the one entry that names its ID (NOT_MEMBER of Table 17.10). -/
def Dev.rankOf (d : Dev) (table : List Nat) : Option Nat :=
  match table.zipIdx.filter fun e => reOwn e.1 = d.oget O.CHIP_ID with
  | [(_, r)] => if d.idValid then some r else none
  | _ => none

/-- The partner on a rank's PARENT_LINK is its parent's chip (R803). -/
def Dev.parentOk (d : Dev) (table : List Nat) (r : Nat) : Bool :=
  let e := at0 table r
  r = 0 || (d.up (reLink e) && bits (d.oget (O.PARTNER (reLink e))) 0 13 = reOwn (at0 table (reParent e)) + 4096)

/-- The first failed check of a dispatch: `early` before the tree (Table 17.10), then membership, PARENT_LINK, and `late`. -/
def Dev.dispatchChecks (d : Dev) (table : List Nat) (early : Option Nat) (late : Nat → Option Nat) : Option Nat :=
  early.or (match d.rankOf table with
    | none => some 3
    | some r => if !d.parentOk table r then some 8 else late r)

/-- A COLLECTIVE's OP, MODE, ROOT, formats and counts fail a check (R817, R818): the detail. -/
def collBad (op mode root n src dst self : Nat) : Option Nat :=
  let f := tdFormat src
  let cs := elemCount src
  let cd := elemCount dst
  if op = 0 then (if mode ≠ 0 || root ≠ 0 then some 0x10 else none)
  else if (op = 1 || op = 4) && mode ≠ 0 then some 0x10
  else if (op = 3 || op = 4) && root ≠ 0 then some 0x10
  else if n ≤ root then some 0x10
  else if (op = 2 || op = 3) && (if mode = 3 then f ≠ 4 else 5 < f) then some 0x10
  else if (op ≠ 1 || self = root) && f ≠ tdFormat dst then some 4
  else if op = 1 then (if self = root && cd ≠ cs then some 0x11 else none)
  else if op = 4 then (if cd ≠ n * cs then some 0x11 else none)
  else if cd ≠ cs && cd ≠ 1 then some 0x11
  else if mode = 3 && 1024 < cd then some 0x11
  else none

/-- The payload of ENTER with phase 0: rank hash, piece hashes, opcode, OP and MODE, and format. -/
def enterKey (o : FabOp) : Nat :=
  mapHash o.table 8 + mapHash o.srcPieces 32 * 2 ^ 32 + mapHash o.dstPieces 32 * 2 ^ 64 + o.opc * 2 ^ 96 + (o.op + 16 * o.mode) * 2 ^ 104 +
    tdFormat o.dst * 2 ^ 112

/-- An operation with the chip's rank in its rank table; a chip that is no member has no tree. -/
def Dev.placed (d : Dev) (o : FabOp) : FabOp :=
  match d.rankOf o.table with
  | some r => { o with rank := r }
  | none => { o with table := [] }

/-- The SRC and DST maps of a RESHARD differ in RANKS, TRANK, GEXT or in the chips and tree of their ranks (R806; assumption 88). -/
def mapsDiffer (h : Nat) (table : List Nat) (h' : Nat) (table' : List Nat) : Bool :=
  bits h 0 16 ≠ bits h' 0 16 || bits h 32 224 ≠ bits h' 32 224 || table.map (fun e => e % 2 ^ 32) ≠ table'.map (fun e => e % 2 ^ 32)

/-- SHAPE or PIECE of Table 17.10 for a RESHARD whose SRC map has header `h` (R806, R809). -/
def reshardBad (o : FabOp) (h _ : Nat) : Option Nat :=
  let t := bits h 32 3
  let shape := tdFormat o.src ≠ tdFormat o.dst || tdRank o.src ≠ t || tdRank o.dst ≠ t ||
    (rangeFrom 0 (t - 2)).any fun i => tdExtent o.src i ≠ bits h (64 + 32 * i) 32 || tdExtent o.dst i ≠ bits h (64 + 32 * i) 32
  let out := fun (y : Nat) (m : MBox) => tdRows y < m.lrow + m.rows || tdCols y < m.lcol + m.cols
  if shape then some 4
  else if (o.srcPieces ++ o.dstPieces).any (pieceOut h) || (o.srcBoxes o.rank).any (out o.src) || o.dstBoxes.any (out o.dst) ||
      anyClash o.dstBoxes then some 5
  else none

/-- Read the inputs of an operation, apply the checks of Table 17.10, and arrive at the entry barrier (Table 17.5 steps 1 and 2). -/
def Dev.opStart (d : Dev) (x : Node) (k : Nat) : Dev :=
  match d.op k with
  | none => d
  | some o =>
    if o.phase ≠ 0 then d
    else if o.opc = 6 then d.copyGo x k (cpLength x.body / 4096 + 2)
    else if o.opc = 8 then
      let a := bits x.body 128 64
      match d.readMap x o a with
      | (d, none) => d
      | (d, some (h, table, pieces)) =>
        if mapBad true h table pieces then d.opCheckFail k 1
        else
          let o := d.placed { o with table := table }
          let d := d.onNode k fun y => { y with restartable := opRestartable o.src o.dst [(a, mapBytes h)] }
          let d := d.onOp k fun p => { p with table := o.table, rank := o.rank, key := enterKey o }
          match d.dispatchChecks table none fun r => collBad o.op o.mode o.root table.length o.src o.dst r with
          | some det => d.opCheckFail k det
          | none => d.arrive k 1
    else
      let a := bits x.body 128 64
      let b := bits x.body 192 64
      match d.readMap x o a with
      | (d, none) => d
      | (d, some (h, table, pieces)) =>
        match d.readMap x o b with
        | (d, none) => d
        | (d, some (h', table', pieces')) =>
          if mapBad false h table pieces || mapBad false h' table' pieces' then d.opCheckFail k 1
          else
            let o := d.placed { o with table := table, dtable := table', srcPieces := pieces, dstPieces := pieces' }
            let d := d.onNode k fun y => { y with restartable := opRestartable o.src o.dst [(a, mapBytes h), (b, mapBytes h')] }
            let d := d.onOp k fun p => { p with table := o.table, dtable := table', rank := o.rank, srcPieces := pieces, dstPieces := pieces',
                                                key := enterKey o }
            match d.dispatchChecks table (if mapsDiffer h table h' table' then some 2 else none) (reshardBad o h) with
            | some det => d.opCheckFail k det
            | none => d.arrive k 1

/-- A node of the link complex is dispatched (R796, R798): a new operation, or the next attempt of one that awaited FAULT_RESUME
(R815). -/
def Dev.opDispatch (d : Dev) (x : Node) : Dev :=
  match d.op x.order with
  | some o =>
    if o.table.isEmpty then (d.onOp x.order fun o => { o with phase := 0 }).opStart x x.order else d.restart x.order
  | none =>
    let (d, src, dst) := d.opDescs x
    let g := fxGroup x.opc x.body
    let n := dget 0 d.fab.opseq (65536 * x.owner + g) + 1
    let d := if x.opc = 6 then { d with fab := { d.fab with copies := d.fab.copies + 1 } }
      else { d with fab := { d.fab with opseq := mset d.fab.opseq (65536 * x.owner + g) n } }
    let o : FabOp :=
      { order := x.order, opc := x.opc, owner := x.owner, group := g, opseq := if x.opc = 6 then d.fab.copies else n, attempt := 0,
        die := d.opDie x src, phase := 0, since := d.time, entered := [], sentAt := none, release := none, exitSent := false, key := 0,
        rank := 0, table := [], dtable := [], lead := d.oget O.BARRIER_LEAD, limit := d.oget O.OP_TIMEOUT, window := d.oget O.PULL_WINDOW,
        srcPieces := [], dstPieces := [], src := src, dst := dst, op := (fxOp x.opc x.body).1,
        mode := (fxOp x.opc x.body).2, root := if x.opc = 8 then bits x.body 208 12 else 0, todo := [], pulls := [], serve := [],
        vals := [], result := [], sentUp := false, filled := false, next := 0, acks := 0, hreq := [], hbuf := [] }
    Dev.opStart { d with fab := { d.fab with ops := d.fab.ops ++ [o] } } x x.order

/-! ### Passing barriers, and time limits -/

/-- A rank passes its barrier at T_rel (R804): the data phase begins, or the operation ends. -/
def Dev.pass (d : Dev) (k : Nat) : Dev :=
  match d.op k, d.node k with
  | some o, some x =>
    match o.release with
    | none => d
    | some t =>
      if d.time < t then d
      else if o.phase = 3 || (o.phase = 1 && o.opc = 8 && o.op = 0) then d.opDone k
      else if o.phase ≠ 1 then d
      else
        let d := d.onOp k fun o => { o with phase := 2, todo := if o.opc = 7 then o.allPulls else [] }
        if o.opc = 8 then (d.collGo x k).collGo x k
        else
          let d := d.dataGo x k
          match d.op k with
          | some o => d.serveAll x k o.serve
          | none => d
  | _, _ => d

/-- RELEASE arrives: it goes on down the tree, and a rank it reaches late passes at once. -/
def Dev.releaseTake (d : Dev) (o : FabOp) (t : Nat) : Dev :=
  if (o.phase ≠ 1 && o.phase ≠ 3) || o.release.isSome then d
  else
    let d := (d.releaseDown o t).onOp o.order fun o => { o with release := some t }
    if t < d.time then (d.oinc O.BARRIERS_LATE).pass o.order else d

/-- Every barrier whose T_rel has come is passed. -/
def Dev.passAll (d : Dev) : Dev := (d.fab.ops.map (·.order)).foldl (fun d k => d.pass k) d

/-- An operation whose barrier has not passed within OP_TIMEOUT of its arrival fails (R826, R833). -/
def Dev.opTimeout (d : Dev) (k : Nat) : Dev :=
  let d := d.pass k
  match d.op k with
  | none => d
  | some o =>
    if (o.phase = 1 || o.phase = 3) && o.since + 1000000 * o.limit ≤ d.time then
      (d.oinc O.TIMER_EXPIRIES).opFail k 7 0 7 none
    else d

/-- An ENTER that has had no RELEASE for 10 µs is sent again (R805). -/
def Dev.resend (d : Dev) (k : Nat) : Dev :=
  match d.op k with
  | none => d
  | some o =>
    match o.sentAt with
    | some t =>
      if (o.phase = 1 || o.phase = 3) && o.release.isNone && t + 10000 ≤ d.time then
        (d.treeSend o (reParent (o.entry o.rank)) (o.hdr 1) o.enterLoad).onOp k fun o => { o with sentAt := some d.time }
      else d
    | none => d

/-- Operations whose PARENT_LINK is down fail with ERR_LINK (R834). -/
def Dev.opsLinks (d : Dev) : Dev :=
  d.fab.ops.foldl (fun d o =>
    if o.opc ≠ 6 && o.rank ≠ 0 && 1 ≤ o.phase && o.phase ≤ 3 && !d.up (reLink (o.entry o.rank)) then d.opFail o.order 0x0F 0 7 none else d) d

/-- Host data has come for an operation: it goes on. -/
def Dev.opGo (d : Dev) (k : Nat) : Dev :=
  match d.op k, d.node k with
  | some o, some x =>
    if o.phase = 0 then d.opStart x k
    else if o.phase = 1 || o.phase = 4 then d
    else
      let d := if o.opc = 8 then d.collGo x k else if o.opc = 7 then d.dataGo x k else d
      match d.op k with
      | some o => d.serveAll x k o.serve
      | none => d
  | _, _ => d

/-! ### Receipt of packets -/

/-- ABORT arrives (R815, R816, R828, R831). -/
def Dev.abortTake (d : Dev) (o : FabOp) (h : OpHdr) : Dev :=
  let parent := reParent (o.entry o.rank)
  if h.fatal then d.opFail o.order (opCause o.opc) h.detail h.detail (some h.src)
  else if h.attempt ≠ o.attempt then d
  else if o.rank ≠ 0 && h.src = parent then
    let d := (o.kids o.rank).foldl (fun d r => d.treeSend o r (o.hdr 3) []) d
    let d := d.oinc O.ATTEMPTS_ABORTED
    if o.phase = 4 then d else d.restart o.order
  else if o.rank = 0 then
    if o.exitSent || o.phase = 4 then d
    else
      let d := (o.kids 0).foldl (fun d r => d.treeSend o r (o.hdr 3) []) d
      (d.oinc O.ATTEMPTS_ABORTED).restart o.order
  else d.treeSend o parent (o.hdr 3) []

/-- Keep a packet in the early-arrival table, unless its operation has been dispatched and is over; one that finds the table full is
dropped and counted (R805). -/
def Dev.keepEarly (d : Dev) (p : FPacket) : Dev :=
  let h := opHdrOf p
  if h.opseq ≤ dget 0 d.fab.opseq (65536 * p.owner + h.group) && !(d.fab.ops.any fun o => h.names p.owner o) then d
  else if d.fab.early.length < 1024 then
    if d.fab.early.contains p then d else { d with fab := { d.fab with early := d.fab.early ++ [p] } }
  else d.oinc O.EARLY_FULL_DROPS

/-- A packet of a fabric operation is delivered (R805, R815, R824, R829); one whose owner is not ACTIVE is discarded and, but for an
answer or an ABORT, answered with a FATAL ABORT of detail OWNER. False while it waits for the host. -/
def Dev.opPacket (d : Dev) (p : FPacket) : Dev × Bool :=
  let h := opHdrOf p
  if !d.ownerLive p.owner then
    (if h.kind ≠ 3 && h.kind ≠ 9 then
       d.opRoute p.owner 2 p.src { h with kind := 3, detail := 9, fatal := true, src := h.dest, dest := h.src } []
     else d, true)
  else if h.kind = 8 then d.writeTake p
  else if h.kind = 9 || (h.kind = 3 && h.fatal && h.group = 0 && (d.fab.ops.any fun o => o.opc = 6 && o.owner = p.owner && o.opseq = h.opseq) &&
      !(d.fab.ops.any fun o => h.names p.owner o)) then
    match d.fab.ops.find? fun o => o.opc = 6 && o.owner = p.owner && o.opseq = h.opseq with
    | some o =>
      match d.node o.order with
      | some x => (if h.kind = 9 then d.ackTake x o h else d.opFail o.order 0x3A h.detail 7 none, true)
      | none => (d, true)
    | none => (d, true)
  else
    match d.fab.ops.find? fun o => h.names p.owner o with
    | none => (if h.kind = 1 || (h.kind = 3 && h.fatal) then d.keepEarly p else d, true)
    | some o =>
      match d.node o.order with
      | none => (d, true)
      | some x =>
        if h.kind = 3 && (h.fatal || h.attempt = o.attempt) then
          (if o.table.isEmpty && h.fatal then d.opFail o.order (opCause o.opc) h.detail h.detail none else d.abortTake o h, true)
        else if h.kind = 1 && (o.phase = 0 || h.attempt ≠ o.attempt) then
          (if (h.attempt + 256 - o.attempt) % 256 < 128 then d.keepEarly p else d, true)
        else if h.attempt ≠ o.attempt then (d, true)
        else
          let d := match h.kind with
            | 1 => d.enterTake o.order p
            | 2 => d.releaseTake o (leNat ((opLoad p).take 8))
            | 4 =>
              let d := d.onOp o.order fun o => { o with serve := o.serve ++ [p] }
              if o.serve.isEmpty then d.serveAll x o.order [p] else d
            | 5 => if o.phase = 2 then d.dataTake x o p else d
            | 6 => d.upTake x o p
            | 7 => d.downTake x o p
            | _ => d
          (d, true)

/-- An ERROR packet for a PULL or a WRITE fails its operation with ERR_LINK (R834). -/
def Dev.errorTake (d : Dev) (p : FPacket) : Dev :=
  let hdr := leNat ((p.content.drop 8).take 16)
  let n := leNat ((p.content.drop 24).take 16)
  let kind := bits n 0 8
  if p.cls ≠ 4 || bits hdr 40 8 ≠ 1 then d
  else
    match d.fab.ops.find? fun o => o.owner = p.owner && o.opseq = bits n 32 32 && 
      (if kind = 8 then o.opc = 6 else o.opc ≠ 6 && o.group = bits n 16 16 && o.attempt = bits n 64 8) with
    | some o => if kind = 4 || kind = 8 then d.opFail o.order 0x0F 0 7 none else d
    | none => d

end Sys2Proof.Machine
end

