-- ==== Sys2Proof/Machine/TaskRun.lean ====
section
/-! DEFINITION. Machine/TaskRun.lean: a task on its cores: start (R32, R141, R370), completion (R183, R290, R383), abort (Table
2.8), the deadlock detector with its snapshot (R91 to R97, R979, R980), and the tandem comparator (R682 to R692). -/

namespace Sys2Proof.Machine

/-! ### Fields of a TASK packet (Table 12.5) -/

/-- ENTRY as an address. -/
def tkEntry (p : Nat) : Nat := 16 * bits p 64 48
/-- GRID_X, GRID_Y, GRID_Z. -/
def tkGrid (p k : Nat) : Nat := bits p (112 + 16 * k) 16
/-- STREAM_TABLE as an address. -/
def tkTable (p : Nat) : Nat := 64 * bits p 160 46
/-- STREAM_COUNT. -/
def tkStreams (p : Nat) : Nat := bits p 206 5
/-- C. -/
def tkChoirs (p : Nat) : Nat := bits p 211 6 + 1
/-- N. -/
def tkRegs (p : Nat) : Nat := 8 * (bits p 217 5 + 1)
/-- Cores of GANG. -/
def tkGang (p : Nat) : Nat := 4 ^ bits p 222 2
/-- BUDGET in µs. -/
def tkBudget (p : Nat) : Nat := if bits p 224 14 = 0 then 250 else bits p 224 14
/-- LEVEL. -/
def tkLevel (p : Nat) : Nat := bits p 238 2
/-- TANDEM. -/
def tkTandem (p : Nat) : Bool := bit p 240
/-- NORESTART. -/
def tkNoRestart (p : Nat) : Bool := bit p 241
/-- IN_MASK. -/
def tkIn (p : Nat) : Nat := bits p 280 16
/-- OUT_MASK. -/
def tkOut (p : Nat) : Nat := bits p 296 16
/-- HANDLE_i. -/
def tkHandle (p i : Nat) : Nat := bits p (312 + 12 * i) 12
/-- Slots the task uses, as a mask. -/
def tkSlots (p : Nat) : Nat := slotsUsed p

/-! ### Start -/

/-- The uniform registers at kernel entry (Table 3.8). -/
def entryUniforms (p rank k : Nat) : List (Nat × Nat) :=
  ((rangeFrom 0 16).map (fun i => (i, if bit (tkSlots p) i then tkHandle p i else 2 ^ 32 - 1)) ++
    [(16, tkGrid p 0), (17, tkGrid p 1), (18, tkGrid p 2), (19, rank), (20, k), (21, tkChoirs p), (22, tkRegs p)]).foldl
    (fun (m : List (Nat × Nat)) (e : Nat × Nat) => dset 0 m e.1 e.2) []

/-- A choir at task start (R30, R137, R141). -/
def startChoir (p rank k : Nat) : Choir :=
  ⟨tkEntry p, 2 ^ 32 - 1, none, [], [], [], [], entryUniforms p rank k, [], [], 0, 0, .none, none⟩

/-- A context at task start (R367, R371). -/
def startStream (t : TaskRun) (i x : Nat) : Stream :=
  { record := x, index := i, desc := dget 0 t.descs (srSource x % 16), next := 0, listAt := 0, segOff := 0, segLm := 0, cursor := srRing x,
    queue := [], landed := 0, lens := [], entries := [], prog := [], ready := false, bpc := 0, a := [0, 0, 0, 0], c := [0, 0, 0, 0, 0, 0, 0, 0],
    loops := [], ended := false }

/-- Steer the columns that await it to free spares, at the next task boundary, which is the start of the core's next task (R104;
assumption 76). -/
def Dev.steerColumns (d : Dev) (n : Nat) : Dev :=
  let d := (d.core n).steer.foldl (fun d s =>
    let k := dget 0 (d.core n).spareUse s.1
    if k < 2 then
      (d.onCore n fun c => { c with spareUse := dset 0 c.spareUse s.1 (k + 1) }).oinc (O.SPARES_USED n)
    else d.noteEvent 0x12 0 n) d
  d.onCore n fun c => { c with steer := [] }

/-- The core as it stands before its task's first instruction: registers, counters, barriers, tiles and choirs at their start
values, no L1 line valid, LM scrubbed on a change of tenant (R30, R32, R76, R194, R291). -/
def Core.clearFor (c : Core) (t : TaskRun) : Core :=
  let scrub := c.lastOwner ≠ t.owner
  { c with
    lm := if scrub then [] else c.lm, lmp := if scrub then [] else c.lmp, lastOwner := t.owner, scrubbed := false,
    boot := 1, choirs := [], l1 := [], l1order := [], mshrs := [], sb := [], icache := [], acts := [], bars := [], gbar := [],
    acopies := [], streams := [], reads := [], served := 16, mmq := [], mmIssued := 0, mmDone := 0, mmFlags := [], tiles := [],
    resp := [], sig := 2 ^ 64 - 1, sigRef := 2 ^ 64 - 1, sigQ := [], writers := [], last := [], quietFor := 0 }

/-- Invalidate the µTLBs of a core (R32, R475). -/
def Dev.utlbClear (d : Dev) (n : Nat) : Dev :=
  { d with tr := { d.tr with utlb := mdel (mdel d.tr.utlb n) (larkEng n) } }

/-- The Starling arrangement of a gang is legal (R396, R407): per context index at most one source, and RECEIVE records at exactly
the other ranks its mask names. -/
def Dev.starlingOk (d : Dev) (g : List Nat) : Bool :=
  let recs := fun i => g.map fun m => match d.stream m i with
    | some s => some s.record
    | none => none
  (rangeFrom 0 16).all fun i =>
    let rs := (recs i).zipIdx
    let src := rs.filter fun e => match e.1 with
      | some x => srMask x ≠ 0
      | none => false
    let mask := match src.head? with
      | some (some x, _) => srMask x
      | _ => 0
    let own := match src.head? with
      | some (_, r) => r
      | none => 64
    src.length ≤ 1 && rs.all fun e =>
      let recv := match e.1 with
        | some x => decide (srMode x = 3)
        | none => false
      recv = (bit mask e.2 && e.2 ≠ own)

/-- What a check of the stream records of a task finds (R369, R437): a cause, if any. -/
def recordsBad (t : TaskRun) (recs : List Nat) : Option Nat :=
  let tile := fun (x : Nat) => decide (srMode x = 2)
  if recs.any fun x => !srOk t.gang x || (tile x && !bit (tkSlots t.body) (srSource x % 16)) then some 0x2E
  else if recs.any fun x => tile x && !tdBoxOk (dget 0 t.descs (srSource x % 16)) (bits (srParam x 0) 0 32)
      (bits (srParam x 0) 32 32) (bits (srParam x 1) 0 16 + 1) (bits (srParam x 1) 16 16 + 1) (bits (srParam x 1) 32 32) then some 0x2F
  else none

/-- The core's clearing and scrubbing at the start of its task (R32, R104, R475). -/
def Dev.taskClear (d : Dev) (n : Nat) (t : TaskRun) : Dev :=
  let d := d.steerColumns n
  let d := if (d.core n).lastOwner ≠ t.owner then d.utlbClear n else d
  (d.onCore n fun c => c.clearFor t).wake n

/-- Step 3 of Table 8.3 and the start of the choirs on core `n` (R141, R370). -/
def Dev.coreBegin (d : Dev) (n : Nat) (t : TaskRun) : Dev :=
  let d := (d.core n).streams.foldl (fun d e =>
    (d.lmWrite n (srLanded e.2.record) 8 0 false 0).lmWrite n (srRelease e.2.record) 8 0 false 0) d
  d.onCore n fun c => { c with
    state := 1, started := true,
    choirs := (rangeFrom 0 t.choirs).map fun j => (j, startChoir t.body (n - t.first) j) }

/-- Core `m` has checked the stream records of task `t`. -/
def Dev.checked (d : Dev) (t : TaskRun) (m : Nat) : Bool :=
  decide (((d.core m).task.map (·.order)) = some t.order) && (d.core m).boot = 2

/-- Step 2 of Table 8.3 is done on core `n`: with streams, the cores of a gang check their Starling arrangement together, each of them
raising ERR_STREAM when it is not legal, and go on together (R407; assumption 77). -/
def Dev.gangBegin (d : Dev) (n : Nat) (t : TaskRun) : Dev :=
  let g := if tkStreams t.body = 0 then [n] else d.gangOf n
  if !(g.all fun m => d.checked t m) then d
  else if !d.starlingOk g then g.foldl (fun d m => d.larkExc m 0x2E 0 0 []) d
  else g.foldl (fun d m => if (d.core m).started || (d.core m).exc.isSome then d else match (d.core m).task with
    | some u => d.coreBegin m u
    | none => d) d

/-- The stream records of a task have been read on core `n`: they are checked, and its contexts set. -/
def Dev.recordsRead (d : Dev) (n : Nat) (t : TaskRun) (recs : List Nat) : Dev :=
  match recordsBad t recs with
  | some c => d.larkExc n c 0 0 []
  | none =>
    let ss := if t.tandem = 2 then
        (d.core (n - 1)).streams.map fun e => (e.1, startStream t e.1 e.2.record)
      else recs.zipIdx.map fun e => (e.2, startStream t e.2 e.1)
    (d.onCore n fun c => { c with streams := ss, boot := 2 }).gangBegin n t

/-- TASK_START on a core that holds a dispatch (R32, R76, R141, R291, R367 to R370): the core clears and scrubs, its Lark reads and
checks the stream records, and the choirs start; programs and block lists are read as they run. -/
def Dev.taskStart (d : Dev) (n : Nat) : Dev :=
  match (d.core n).task with
  | none => d
  | some t =>
    if (d.core n).started || (d.core n).boot = 2 || (d.core n).exc.isSome || (d.core n).state = 4 ||
      (t.tandem = 2 && !(d.core (n - 1)).started) then d
    else
      let d := if (d.core n).boot = 0 then d.taskClear n t else d
      let k := if t.tandem = 2 then 0 else tkStreams t.body
      let va := tkTable t.body + 64 * ((n - t.first) * k)
      match if k = 0 then (d, LarkRes.lines []) else d.larkRange n t 16 .none va (64 * k) with
      | (d, .fail c det a recs) => d.larkExc n c det a recs
      | (d, .wait) => d
      | (d, .lines ls) =>
        if ls.any fun l => l.2.2 ≠ 0 then d.larkExc n 6 0 va []
        else d.recordsRead n t ((rangeFrom 0 k).map fun i => let a := va + 64 * i; bits (lineOf ls (a / 128)).1 (8 * (a % 128)) 512)

/-! ### Freeing a core -/

/-- Host reads of a core that are still awaited bring data no one takes (R102). -/
def Dev.readsAbandon (d : Dev) (n : Nat) : Dev :=
  let mine := fun (r : HostRead) => (r.use = 1 && r.arg / 64 = n) || (r.use = 2 && r.arg / 4096 = n) || (r.use = 3 && r.arg % 256 = n)
  { d with host := { d.host with reads := mapIf mine (fun r => { r with abandoned := true }) (d.host.reads.filter fun r => r.sent || !mine r) } }

/-! ### Abort (Table 2.8) -/

/-- Count a cause in the object of its chapter. -/
def Dev.countCause (d : Dev) (c : Nat) : Dev :=
  if 0x20 ≤ c && c ≤ 0x24 then d.oinc O.PROGRAM_ABORTS
  else if c = 0x25 || c = 0x26 then d.oinc O.ILLEGAL_EVENTS
  else if c = 0x27 then d.oinc O.TRAP_EVENTS
  else if c = 0x28 || c = 0x29 then d.oinc O.MATRIX_ERRORS
  else if c = 0x2D || c = 0x2E then d.oinc O.STREAM_ERRORS
  else if c = 0x2F then d.oinc O.TENSOR_RANGE_ERRORS
  else d

/-- The report of one core's exception (R147, Table 2.8 step 6), with its fault records for a batch cause; the precentor logs any
other cause when it latches the report. -/
def Dev.coreReport (d : Dev) (n : Nat) (t : TaskRun) (e : Exc) : Dev :=
  if e.cause = 0 then d
  else
    let d := if e.batch then d.faultWrite e.recs else d
    (d.countCause e.cause).report t.order t.dispatch (e.report (if !e.batch then 2 else if d.ringUnset then 4 else 3) n)

/-- The exception is of a kind of R410 and arose in a stream, list or program of the Lark. -/
def Exc.ofStream (e : Exc) : Bool := e.slot = 64 && [1, 2, 3, 5, 0x21].contains e.cause

/-- A core gives up its part of a dispatch: what it has in flight is discarded, LM and registers are cleared (Table 2.8 steps 2 to 5). -/
def Dev.coreDiscard (d : Dev) (n : Nat) (t : TaskRun) : Dev :=
  ((d.onCore n fun c => { c.release with lm := [], lmp := [], lastOwner := t.owner, scrubbed := true, icache := [] }).l1Forget n
    fun _ => true).readsAbandon n

/-- Cores that hold a dispatch for the end of an abort (R632) let it go. -/
def Dev.unhold (d : Dev) (t : TaskRun) : Dev :=
  (d.nave.cores.filter fun e => match e.2.next with
    | some u => u.order = t.order && u.dispatch = t.dispatch
    | none => false).foldl (fun d e => d.onCore e.1 fun c => { c with next := none }) d

/-- TASK_ABORT: the steps of Table 2.8 on every core of the gang (R101, R218, R219, R293): matrix work, store buffers, copies,
streams and dirty lines are discarded, LM and registers cleared; each core's own cause is reported. The choirs of a cloister look at
the cleared LM (R80). -/
def Dev.taskAbort (d : Dev) (n cause detail : Nat) : Dev :=
  match (d.core n).task with
  | none => d
  | some t =>
    let own := match (d.core n).exc with
      | some e => some e
      | none => if d.failed then some ⟨0, 0, 0, 0, 0, 0, 0, []⟩ else if cause = 0 || (d.core n).isDone then none else some ⟨cause, detail, 0, 0, 0, 0, 0, []⟩
    match own with
    | none => d
    | some e0 =>
      let mine := t.cores.filter fun m => match (d.core m).task with
        | some u => u.order = t.order && u.dispatch = t.dispatch
        | none => false
      let es := mine.filterMap fun m => if m = n then some (m, e0) else (d.core m).exc.map fun e => (m, e)
      let d := mine.foldl (fun d m => d.coreDiscard m t) d
      let d := mine.foldl (fun d m => d.wake m) ((d.unhold t).groupsFree t)
      let d := if es.any fun e => e.2.ofStream then d.oinc O.STREAM_FAULT_ABORTS else d
      es.foldl (fun d e => d.coreReport e.1 t e.2) d

/-! ### Tandem comparison (R682 to R692) -/

/-- Cloister `k` is in tandem service. -/
def Dev.inTandem (d : Dev) (k : Nat) : Bool := bit (d.oget O.TANDEM_SERVICE) k

/-- A cloister leaves tandem service. -/
def Dev.tandemLeave (d : Dev) (k : Nat) : Dev :=
  if d.inTandem k then d.oset O.TANDEM_SERVICE (d.oget O.TANDEM_SERVICE - 2 ^ k) else d

/-- A mismatch on the pair whose trailing core is `n` (R686, R687). -/
def Dev.tandemMismatch (d : Dev) (n : Nat) (t : TaskRun) : Dev :=
  let k := n / 4
  let c := d.core n
  let x := c.sig ^^^ c.sigRef
  let d := d.raise { cause := 0x0D, owner := t.owner, eng := 0xA000 + k, info := x % 2 ^ 64, queue := t.queue, graph := t.graph,
                     node := t.node }
  let d := (d.oinc O.TANDEM_MISMATCHES).oinc O.LIFE_TANDEM_MISMATCHES
  let m := dget 0 d.logs.mismatches k + 1
  let d := { d with logs := { d.logs with mismatches := mset d.logs.mismatches k m } }
  let d := if d.oget O.TANDEM_MISMATCH_LIMIT ≤ m && d.inTandem k then (d.tandemLeave k).noteEvent 0x0D 0 (0xA000 + k) else d
  (d.coreExc (n - 1) ⟨0, 0, 0, 0, 0, 0, 0, []⟩).coreExc n ⟨0x0D, 0, 0, 0, 0, 0, 0, []⟩

/-- TANDEM_COMPARE on a trailing core (R685). -/
def Dev.tandemCompare (d : Dev) (n : Nat) : Dev :=
  match (d.core n).task with
  | none => d
  | some t =>
    let c := d.core n
    if t.tandem ≠ 2 || t.unverified || !c.started || c.exc.isSome || c.sig = c.sigRef then d else d.tandemMismatch n t

/-! ### Completion -/

/-- An OUT stream has landed every block below its R (R383). -/
def Dev.outLanded (d : Dev) (n : Nat) (s : Stream) : Bool :=
  !srOut s.record || d.released n s.record ≤ s.landed || (s.ended && s.queue.isEmpty)

/-- The core may report its task complete (R183, R290, R383). -/
def Dev.completable (d : Dev) (n : Nat) : Bool :=
  let c := d.core n
  match c.task with
  | none => false
  | some t =>
    c.started && !c.isDone && (rangeFrom 0 t.choirs).all (fun k => (c.choir k).ended) && c.mmq.isEmpty && c.acopies.isEmpty &&
    c.streams.all fun e => d.outLanded n e.2

/-- A stream has landed its last block (R382); a receiver's is its source's. -/
def Dev.streamOver (d : Dev) (t : TaskRun) (i : Nat) (s : Stream) : Bool :=
  let src := if srMode s.record ≠ 3 then some s
    else (t.cores.findSome? fun m => (d.stream m i).bind fun r => if srMask r.record ≠ 0 then some r else none)
  match src with
  | some s => s.ended && s.queue.isEmpty
  | none => true

/-- The task has ended on every core: streams that have not finished are cancelled and counted, and the Starling groups go back
(R383, R397). -/
def Dev.streamsEnd (d : Dev) (t : TaskRun) : Dev :=
  let live := t.cores.flatMap fun m => (d.core m).streams.filter fun e => !d.streamOver t e.1 e.2
  let d := (d.oadd O.STREAM_CANCELLED live.length).groupsFree t
  t.cores.foldl (fun d m => (d.onCore m fun c => { c with streams := [], reads := [] }).readsAbandon m) d

/-- A core ends its part of the task: store buffer drained, dirty lines written back, its report latched (R290). It holds the task,
its LM open to the gang (R65) and its streams going on, until the last core of the task is done, and the task until the precentor has
the report of every core (R383, R625; assumption 51). A write that no channel group takes is an exception of the task, which does
not complete (R301). -/
def Dev.coreDone (d : Dev) (n : Nat) (t : TaskRun) : Dev :=
  let d := (d.drainAll n ((d.core n).sb.length + 1)).l1Flush n
  if (d.core n).exc.isSome then d
  else
    let d := d.onCore n Core.finished
    let rest := t.cores.any fun m => ((d.core m).task.map (·.order)) = some t.order && !(d.core m).isDone
    (if rest then d else d.streamsEnd t).report t.order t.dispatch ⟨1, 0, 0, n, 0, 0, 0, 0, 0, false⟩

/-- TASK_COMPLETE. A tandem pair completes together, after the final comparison and the self-test (R685, R689). A completion of a
task that a timer has aborted is counted as late (R591). -/
def Dev.taskComplete (d : Dev) (n : Nat) : Dev :=
  match (d.core n).task with
  | none => d
  | some t =>
    match (d.core n).exc with
    | some e =>
      if e.cause = 0 && e.detail = 1 && d.completable n then
        (((d.onCore n fun c => { c with exc := some { e with detail := 2 } }).onQueue (16 * t.owner + t.queue)
          fun q => { q with late := q.late + 1 }).oinc O.LATE_COMPLETIONS)
      else d
    | none =>
      if t.tandem = 0 then (if d.completable n then d.coreDone n t else d)
      else
        let lead := if t.tandem = 1 then t.first else t.first - 1
        let trail := lead + 1
        if !(d.completable lead && d.completable trail) then d
        else
          let c := d.core trail
          match c.task, (d.core lead).task with
          | some u, some l =>
            if !u.unverified && c.sig ≠ (d.core lead).sig then
              Dev.tandemMismatch (d.onCore trail fun c => { c with sigRef := (d.core lead).sig }) trail u
            else
              let d := if u.unverified then d.onNode t.order fun x => { x with unverified := true } else d.oinc O.SELF_TESTS
              (d.coreDone lead l).coreDone trail u
          | _, _ => d

/-! ### Comparator faults -/

/-- The tandem tasks on a cloister, by their leading cores. -/
def Dev.tandemTasks (d : Dev) (k : Nat) : List (Nat × TaskRun) :=
  [4 * k, 4 * k + 2].filterMap fun n => match (d.core n).task with
    | some t => if t.tandem = 1 then some (n, t) else none
    | none => none

/-- ERR_COMPARATOR (R690): the cloister leaves tandem service until reset; its tandem tasks that are restartable and still run are
requeued, the others run on or complete without comparison. -/
def Dev.comparatorFault (d : Dev) (k : Nat) : Dev :=
  let ts := d.tandemTasks k
  let d := ((d.tandemLeave k).oinc O.COMPARATOR_FAULTS).oinc O.LIFE_COMPARATOR_FAULTS
  let err := fun (t : Option TaskRun) => match t with
    | some t => ({ cause := 0x0E, owner := t.owner, eng := 0xA000 + k, queue := t.queue, graph := t.graph, node := t.node } : Err)
    | none => { cause := 0x0E, eng := 0xA000 + k }
  let d := match ts with
    | [] => d.raise (err none)
    | (_, t) :: rest =>
      let d := d.raise (err (some t))
      rest.foldl (fun d e =>
        if e.2.owner = t.owner || e.2.owner = 256 then d
        else d.writeLog e.2.owner ⟨d.time, e.2.node, e.2.graph, e.2.queue, e.2.owner, 0xA000 + k, 0, 0, 0, false, false, false, false,
          .note, 0, 0x0E⟩) d
  ts.foldl (fun d e =>
    let (n, t) := e
    let on := fun (d : Dev) => [n, n + 1].foldl (fun d m => d.onCore m fun c =>
      { c with task := c.task.map fun u => { u with unverified := true } }) d
    if d.completable n && d.completable (n + 1) then on d
    else if t.restartable then
      match d.node t.order with
      | some x => if x.state = .running && x.dispatches = t.dispatch then (d.nodeRequeue x).onNode x.order fun y => { y with avoid := some k } else d
      | none => d
    else on d) d

/-- The pattern of a comparator's present test (R689). -/
def Dev.testPattern (d : Dev) (k : Nat) : Nat := 2 ^ ((mget d.logs.selfTests k).elim 0 (·.1) % 64)

/-- A comparator's millisecond test is due: the fabric time is a multiple of 1,000,000 ns at which it has not been tested (R689). -/
def Dev.testDue (d : Dev) (k : Nat) : Bool :=
  d.time % 1000000 = 0 && (mget d.logs.selfTests k).all fun e => e.2 ≠ d.time

/-- COMPARATOR_SELF_TEST (R689), of a millisecond or of the end of a tandem task: the injection is missed when the comparator misses it,
or when the pair's signatures differ by exactly the pattern. A test at a task's end that passes is counted as the task completes. -/
def Dev.selfTest (d : Dev) (k : Nat) (missed : Bool) : Dev :=
  let p := d.testPattern k
  let due := d.testDue k
  let ending := (d.tandemTasks k).any fun e => !e.2.unverified && d.completable e.1 && d.completable (e.1 + 1)
  let hit := (d.tandemTasks k).any fun e =>
    let c := d.core (e.1 + 1)
    c.started && !e.2.unverified && (c.sig ^^^ p) = c.sigRef
  if !due && !ending then d
  else
    let d := if missed || hit then d.comparatorFault k else if due then d.oinc O.SELF_TESTS else d
    if due then
      { d with logs := { d.logs with selfTests := mset d.logs.selfTests k ((mget d.logs.selfTests k).elim 1 (·.1 + 1), d.time) } }
    else d

/-! ### Deadlock (R91 to R97) and the snapshot (R979, R980) -/

/-- A stream is outstanding (R91, R382): a block of it has begun and not landed, its next block may issue, a read of it is in flight, or
it has yet to make its next block. One that waits only on its pacing is not. -/
def Dev.streamBusy (d : Dev) (n : Nat) (t : TaskRun) (e : Nat × Stream) : Bool :=
  let s := e.2
  !((d.core n).readsOf e.1 none).isEmpty || s.queue.any (fun b => b.begun) ||
  (match s.queue.head? with
   | some b => d.mayIssue n e.1 t s b
   | none => !s.ended && srMode s.record < 3)

/-- The core is quiet for its task (R91). -/
def Dev.quiet (d : Dev) (n : Nat) : Bool :=
  let c := d.core n
  match c.task with
  | none => true
  | some t =>
    let blocked := fun (h : Choir) => match h.wait with
      | .act .. => true
      | .bar _ => true
      | .gbar => true
      | .cwait .. => true
      | _ => false
    let hs := (rangeFrom 0 t.choirs).map c.choir
    c.started && c.exc.isNone && hs.all (fun h => h.ended || blocked h) && hs.any (fun h => !h.ended && blocked h) &&
    c.sb.isEmpty && hs.all (fun h => h.load.isNone) && c.mshrs.isEmpty && c.acopies.isEmpty && c.mmq.isEmpty &&
    c.streams.all fun e => !d.streamBusy n t e

/-- The object a blocked choir waits on: kind, owning core, index, aux (Table 21.5). -/
def waitObject (first n : Nat) (w : Wait) : Option (Nat × Nat × Nat × Nat) :=
  match w with
  | .act i _ => some (1, n, i, 0)
  | .bar i => some (2, n, i, 0)
  | .gbar => some (3, first, 0, 0)
  | .cwait c a _ _ _ => some (4, c, 0, a / 8 * 8)
  | .token t => some (5, n, 0, t)
  | .flags t _ => some (5, n, 0, t)
  | _ => none

/-- STATE of a choir record. -/
def waitState (h : Choir) : Nat :=
  if h.ended then 1
  else match h.wait with
    | .none => 0
    | .act .. => 2
    | .bar _ => 3
    | .gbar => 4
    | .cwait .. => 5
    | .token _ => 6
    | .flags .. => 6
    | _ => 7

/-- The 32 bytes of an object record (Table 21.5), as four doublewords. -/
def Dev.objectRecord (d : Dev) (g : List Nat) (o : Nat × Nat × Nat × Nat) : List Nat :=
  let (kind, n, i, x) := o
  let c := d.core n
  let a := c.act i
  let b := dget Bar.zero c.bars i
  let aux := match kind with
    | 1 => a.farCur % 16 + a.farPrev % 16 * 16
    | 2 => b.k
    | 3 => 0
    | _ => x
  let st := match kind with
    | 1 => a.word
    | 2 => b.n
    | 3 => g.foldl (fun k m => k + (d.core m).gbar.length) 0
    | 4 => (c.lmRead x 8).1
    | _ => c.mmDone
  let cur := match kind with
    | 1 => a.cur
    | 2 => b.cur
    | 4 => dget 0 c.writers x
    | _ => 0
  let prev := match kind with
    | 1 => a.prev
    | 2 => b.prev
    | _ => 0
  [kind + n * 2 ^ 4 + i * 2 ^ 12 + aux % 2 ^ 32 * 2 ^ 32, st, cur, prev]

/-- Take a snapshot of the gang of core `n` (R979, R980); one that finds the store occupied is counted as lost. -/
def Dev.snapshot (d : Dev) (n cause : Nat) (nonatomic : Bool) : Dev :=
  match (d.core n).task with
  | none => d
  | some t =>
    if d.clr.snap.isSome then d.clrLose 4
    else
      let g := gangCores t.first t.gang
      let chs := g.flatMap fun m => (rangeFrom 0 t.choirs).map fun k => (m, k, (d.core m).choir k)
      let objs := chs.foldl (fun (l : List (Nat × Nat × Nat × Nat)) e =>
        if e.2.2.ended then l
        else match waitObject t.first e.1 e.2.2.wait with
          | some o => if l.contains o then l else l ++ [o]
          | none => l) []
      let ch := chs.flatMap fun e =>
        let (m, k, h) := e
        let o := if h.ended then 0xFFFF else match waitObject t.first m h.wait with
          | some o => (objs.findIdx? fun x => x = o).getD 0xFFFF
          | none => 0xFFFF
        let par := match h.wait with
          | .act _ p => p
          | _ => 0
        [h.pc, m + k * 2 ^ 8 + waitState h * 2 ^ 16 + par % 2 * 2 ^ 20 + o * 2 ^ 32, h.mask, 0]
      let ob := objs.flatMap (d.objectRecord g)
      let head := [t.node + t.graph * 2 ^ 32 + t.owner * 2 ^ 48,
        cause + b2n nonatomic * 2 ^ 8 + t.first * 2 ^ 16 + t.gang * 2 ^ 24 + chs.length * 2 ^ 32 + objs.length * 2 ^ 48]
      let len := 16 + 8 * (2 + ch.length + ob.length)
      { d with clr := { d.clr with snap := some ⟨4, 0, cdiv len 64 * 64, d.time, head ++ ch ++ ob⟩, snapTokens := 0 } }

/-- Quiet core clocks after which the detector fires (R93, Table 2.9). -/
def quietLimit : Nat := 65536

/-- DEADLOCK_DETECTOR_FIRE (R92, R93, R95): every core of the gang is quiet and has counted 65,536 quiet core clocks. -/
def Dev.deadlock (d : Dev) (n : Nat) : Dev :=
  match (d.core n).task with
  | none => d
  | some t =>
    let g := t.cores
    if !(g.all fun m => d.quiet m && decide (quietLimit ≤ (d.core m).quietFor)) then d
    else
      let d := (d.oinc O.DEADLOCK_EVENTS).snapshot n 9 false
      g.foldl (fun d m => d.coreExc m (if m = n then ⟨9, 0, 0, 0, 0, 0, 0, []⟩ else ⟨0, 0, 0, 0, 0, 0, 0, []⟩)) d

/-! ### Commands -/

/-- TASK_ABORT: the cause the core has raised, or the given one. -/
def execTaskAbort (core cause detail : Nat) (s : State) : Host.Outcome State Fault Refusal :=
  s.runIf (core < 256 && cause < 256 && detail < 256) fun d => d.taskAbort core cause detail

/-- TASK_COMPLETE. -/
def execTaskComplete (core : Nat) (s : State) : Host.Outcome State Fault Refusal := s.runIf (core < 256) fun d => d.taskComplete core

/-- DEADLOCK_DETECTOR_FIRE. -/
def execDeadlockDetectorFire (core : Nat) (s : State) : Host.Outcome State Fault Refusal := s.runIf (core < 256) fun d => d.deadlock core

/-- TANDEM_COMPARE. -/
def execTandemCompare (core : Nat) (s : State) : Host.Outcome State Fault Refusal := s.runIf (core < 256) fun d => d.tandemCompare core

/-- COMPARATOR_SELF_TEST. -/
def execComparatorSelfTest (clo : Nat) (missed : Bool) (s : State) : Host.Outcome State Fault Refusal :=
  s.runIf (clo < 64) fun d => d.selfTest clo missed

/-- COMPARATOR_FAULT. -/
def execComparatorFault (clo : Nat) (s : State) : Host.Outcome State Fault Refusal := s.runIf (clo < 64) fun d => d.comparatorFault clo

end Sys2Proof.Machine
end

