-- ==== Sys2Proof/Machine/Clerestory.lean ====
section
/-! DEFINITION. Machine/Clerestory.lean: the latch and the sampler, drops, tokens, tensor watches and their captures, and wait-for
snapshots (chapter 21). -/

namespace Sys2Proof.Machine

/-! ### Counters (R960 to R962) -/

/-- Units of a counter block. -/
def blockUnits (b : Nat) : Nat := match b with
  | 0 => 256
  | 1 => 96
  | 2 => 256
  | _ => 20

/-- Copy every counter to the shadow copy (R961). -/
def Dev.latch (d : Dev) : Dev :=
  let keep := d.objs.filter fun e => !(0x9031 ≤ e.1 / 2 ^ 40 && e.1 / 2 ^ 40 ≤ 0x9034)
  let objs := d.clr.counters.foldl (fun m e => dset 0 m (okey (0x9031 + e.1 / 65536) 0 (e.1 % 65536)) (e.2 % 2 ^ 64)) keep
  Dev.oset { d with objs := objs } O.LATCH_TIME d.time

/-- The doublewords of a SAMPLE record after the first two (Table 21.3). -/
def Dev.sampleBody (d : Dev) (mask n : Nat) : List Nat :=
  let blocks := (rangeFrom 0 4).filter (bit mask ·)
  [mask, n, 0, 0, 0, 0] ++ blocks.flatMap fun b => (rangeFrom 0 (8 * blockUnits b)).map fun w => d.oget (okey (0x9031 + b) 0 w)

/-- SAMPLER: at a multiple of SAMPLE_PERIOD the counters are latched and a SAMPLE record is formed (R962). -/
def Dev.sample (d : Dev) : Dev :=
  let p := 1000 * d.oget O.SAMPLE_PERIOD
  if p = 0 || d.time % p ≠ 0 || (d.clr.samples ≠ 0 && d.clr.lastSample = d.time) then d
  else
    let d := d.latch
    let mask := bits (d.oget O.SAMPLE_MASK) 0 4
    let n := d.clr.samples
    let len := 64 + ((rangeFrom 0 4).filter (bit mask ·)).foldl (fun a b => a + 64 * blockUnits b) 0
    Dev.clrForm { d with clr := { d.clr with samples := n + 1, lastSample := d.time } } ⟨1, 0, len, d.time, d.sampleBody mask n⟩

/-- DROPS_RECORD: at a millisecond after a loss (R968); it spends no tokens (R969). -/
def Dev.dropsRecord (d : Dev) : Dev :=
  if d.time % 1000000 ≠ 0 || d.clr.lost.isEmpty then d
  else
    let r : ClrRec := ⟨5, 0, 64, d.time, (rangeFrom 1 4).map fun k => dget 0 d.clr.lost k⟩
    if d.clrUnset then d
    else Dev.clrFlush { d with clr := { d.clr with lost := [], staged := d.clr.staged ++ [r] } } 4096

/-! ### Tokens (R969 to R972) -/

/-- The bytes a waiting record takes of the bucket, in steps of 4,096 (R971). -/
def tokenShare (need tokens : Nat) : Nat := if need ≤ tokens then need else tokens / 4096 * 4096

/-- TOKEN_REFILL: each microsecond the bucket gains its bytes and serves the snapshot store, then the capture engine. -/
def Dev.tokenRefill (d : Dev) : Dev :=
  let t := min 1048576 (d.oget O.CLR_TOKENS + 16400 * d.oget O.CLR_CAP)
  let ns := match d.clr.snap with
    | some r => r.length - d.clr.snapTokens
    | none => 0
  let gs := tokenShare ns t
  let nc := match d.clr.captures with
    | c :: _ => if c.started then c.len - d.clr.capTokens else 0
    | [] => 0
  let gc := tokenShare nc (t - gs)
  Dev.oset { d with clr := { d.clr with snapTokens := d.clr.snapTokens + gs, capTokens := d.clr.capTokens + gc } } O.CLR_TOKENS
    (t - gs - gc)

/-! ### Snapshots (R979, R980, R987) -/

/-- A staged record has an uncorrectable error (R987): it is dropped, counted as lost, and a NOTE event is raised. -/
def Dev.stagedLost (d : Dev) (i : Nat) : Dev :=
  match d.clr.staged[i]? with
  | none => d
  | some r =>
    let d : Dev := { d with clr := { d.clr with staged := d.clr.staged.eraseIdx i } }
    (if r.kind = 5 then d else d.clrLose r.kind).noteEvent 5 0 0x4000

/-- What the ECC of the staging buffer and of the snapshot store finds (R987, R1060): `word i` is an uncorrectable error of staged record
`i`, `none` and `corrected` leave the records whole, and any other is an uncorrectable error of the store. -/
def Dev.clerErr (d : Dev) (e : HwErr) : Dev :=
  match e with
  | .none => d
  | .corrected .. => d.corrected 0x4000 0
  | .word i => d.stagedLost i
  | _ => if d.clr.snap.isSome then Dev.clrLose { d with clr := { d.clr with snap := none, snapTokens := 0 } } 4 else d

/-- SNAPSHOT_WRITE: the record in the store goes to the kernel ring once its tokens are there. -/
def Dev.snapshotWrite (d : Dev) (e : HwErr) : Dev :=
  let d := d.clerErr e
  match d.clr.snap with
  | none => d
  | some r =>
    if d.clrUnset || d.clr.snapTokens < r.length then d
    else
      let size := d.oget O.CLR_RING_SIZE
      let base := d.oget O.CLR_RING_BASE
      let d := d.clrFlush 4096
      if !d.clr.staged.isEmpty then d
      else if d.oget O.CLR_RING_SPACE = 1 && (!d.reachable base || !d.reachable (base + size - 1)) then d.clrFail
      else
        let d := if ringRoom size d.clr.put d.clr.get r.length then d else d.clrGetAgain
        if ringRoom size d.clr.put d.clr.get r.length then
          Dev.oinc (Dev.clrWrite { d with clr := { d.clr with snap := none, snapTokens := 0 } } r) O.SNAPSHOTS
        else if d.oget O.CLR_RING_SPACE = 0 && !(d.host.reads.any fun x => x.use = useClrGet && x.arg = 0) then
          d.hostReadReq .ring (base + 8) 8 useClrGet 0
        else d

/-- SNAP_REQUEST (R979): a snapshot of a RUNNING task node; the lowest queue whose graph holds such a node. -/
def Dev.snapRequest (d : Dev) (v : Nat) : WRes :=
  let (owner, g, n) := (bits v 0 9, bits v 16 16, bits v 32 32)
  match (rangeFrom 0 16).findSome? fun q => (d.nodeIn owner q g n).filter fun x => x.state = .running && x.opc = 1 with
  | some x => .ok (d.snapshot x.core 0 (tkGang x.body ≠ 1 || tkTandem x.body))
  | none => .error stState

/-! ### Tensor watches (R973, R974) -/

/-- An empty capture entry of a watch. -/
def Armed.entry (w : Armed) (status : Nat) (failed : Bool) (now : Nat) : Capture :=
  ⟨w, 0, 0, status, failed, false, false, now, false, 0, 64, false, [], []⟩

/-- Queue an entry for the capture engine. -/
def Dev.capQueue (d : Dev) (c : Capture) : Dev := { d with clr := { d.clr with captures := d.clr.captures ++ [c] } }

/-- The watch a WATCH packet arms. -/
def watchOf (x : Node) : Armed := ⟨x.owner, x.queue, leBytes 48 (x.body / 2 ^ 128), bits x.body 96 32, bits x.body 64 32, x.graph, x.id⟩

/-- Arm a watch at a WATCH node's dispatch, or queue a FULL record (R973). -/
def Dev.armWatch (d : Dev) (x : Node) : Dev :=
  let w := watchOf x
  if 16 ≤ (d.clr.armed.filter fun a => a.owner = x.owner).length || 256 ≤ d.clr.armed.length then d.capQueue (w.entry 4 false d.time)
  else { d with clr := { d.clr with armed := d.clr.armed ++ [w] } }

/-- LIVE descriptors of an owner that a watch matches, ascending, with their images (R432, R974); one whose stored image has an
uncorrectable error becomes STALE (R448). -/
def Dev.watchMatches (d : Dev) (w : Armed) : Dev × List (Nat × Nat) :=
  if (nameBytes (leNat w.name)).isEmpty then (d, [])
  else
    ((d.prec.descState.filter fun e => e.1 / 4096 = w.owner && e.2 = 1).map fun e => e.1 % 4096).foldl
      (fun (a : Dev × List (Nat × Nat)) h =>
        let (d, v, bad) := a.1.dpaRead 259 256 (dget 0 d.prec.descTable w.owner + 128 * h) 128
        if bad then (d.descSpoilNoted w.owner h, a.2)
        else (d, if tdHash v = w.hash && tdName v = leNat w.name then a.2 ++ [(h, v)] else a.2)) (d, [])

/-- The watches of a graph fire as its GRAPH record is written (R974, R983). -/
def Dev.watchFire (d : Dev) (owner queue graph : Nat) (failed : Bool) : Dev :=
  (d.clr.armed.filter fun w => w.owner = owner && w.queue = queue && w.graph = graph).foldl
    (fun d w =>
      let d := { d with clr := { d.clr with armed := d.clr.armed.erase w } }
      let (d, ms) := d.watchMatches w
      if ms.isEmpty then d.capQueue (w.entry 5 failed d.time)
      else ms.foldl (fun d m => d.capQueue { w.entry 0 failed d.time with handle := m.1, desc := m.2 }) d) d

/-- The watches of an owner and their records are discarded (R981). -/
def Dev.watchesDrop (d : Dev) (owner : Nat) : Dev :=
  let mine := fun (c : Capture) => decide (c.watch.owner = owner)
  let running := match d.clr.captures with
    | c :: _ => mine c
    | [] => false
  { d with clr := { d.clr with armed := d.clr.armed.filter fun w => w.owner ≠ owner, captures := d.clr.captures.filter fun c => !mine c,
                               capTokens := if running then 0 else d.clr.capTokens } }

/-! ### Captures (R975 to R978) -/

/-- Base and size of an owner's watch ring. -/
def Dev.watchBuf (d : Dev) (owner : Nat) : Nat × Nat := (d.oget (O.WATCH_BUFS (2 * owner)), d.oget (O.WATCH_BUFS (2 * owner + 1)) % 2 ^ 32)

/-- PUT and GET of an owner's watch ring. -/
def Dev.wring (d : Dev) (owner : Nat) : WRing := dget ⟨0, 0⟩ d.clr.wrings owner

/-- Set PUT or GET of an owner's watch ring. -/
def Dev.setWring (d : Dev) (owner : Nat) (r : WRing) : Dev := { d with clr := { d.clr with wrings := dset ⟨0, 0⟩ d.clr.wrings owner r } }

/-- The head of the capture queue is done, counted in an element of WATCH_OUTCOMES. -/
def Dev.capPop (d : Dev) (outcome : Nat) : Dev :=
  Dev.oinc { d with clr := { d.clr with captures := d.clr.captures.drop 1, capTokens := 0 } } (O.WATCH_OUTCOMES outcome)

/-- Change the head of the capture queue. -/
def Dev.capSet (d : Dev) (c : Capture) : Dev := { d with clr := { d.clr with captures := c :: d.clr.captures.drop 1 } }

/-- Data bytes of a capture. -/
def Capture.dataBytes (c : Capture) : Nat := if c.status = 0 then cdiv (elemCount c.desc * tdBits c.desc) 8 else 0

/-- Bytes of a capture's record. -/
def Capture.bytes (c : Capture) : Nat := if c.status = 0 then 192 + cdiv c.dataBytes 64 * 64 else 64

/-- Element of WATCH_OUTCOMES for a status. -/
def outcomeOf (status : Nat) : Nat := match status with
  | 4 => 3
  | 5 => 4
  | n => n

/-- The header of a WATCH record (Table 21.4). -/
def Capture.header (c : Capture) (status cause poisoned : Nat) : List Byte :=
  leBytes 64 (6 + status * 2 ^ 8 + cause * 2 ^ 24 + c.len % 2 ^ 32 * 2 ^ 32 + c.time % 2 ^ 64 * 2 ^ 64 + c.watch.step * 2 ^ 128 +
    c.watch.hash * 2 ^ 160 + c.watch.graph * 2 ^ 192 + c.handle * 2 ^ 208 + c.watch.node * 2 ^ 224 + b2n c.graphFailed * 2 ^ 256 +
    poisoned % 2 ^ 32 * 2 ^ 288 + c.dataBytes * 2 ^ 320)

/-- A check of a capture's access has failed: a window or permission check is logged and counted (R657, R658). -/
def Dev.capFailed (d : Dev) (c : Capture) (f : TFail) (va : Nat) : Dev :=
  if 1 ≤ f.cause && f.cause ≤ 3 then
    (d.raise { cause := f.cause, detail := f.detail, owner := c.watch.owner, eng := 0x4000, addr := va, queue := c.watch.queue,
               graph := c.watch.graph, node := c.watch.node }).violated f.cause
  else d

/-- A ring write of a capture has failed (R978): counted, and the entry's size is 0. -/
def Dev.capRingFail (d : Dev) (owner : Nat) : Dev := (d.oset (O.WATCH_BUFS (2 * owner + 1)) 0).capPop 5

/-- Write a record to the watch ring: SKIP, bytes, the common doubleword, PUT; `bad` are the poisoned 32-byte units of its data. -/
def Dev.capWrite (d : Dev) (c : Capture) (bs : List Byte) (bad : List Nat) (outcome : Nat) : Dev :=
  let o := c.watch.owner
  let (base, size) := d.watchBuf o
  let (skip, pos) := ringPlace size c.start c.len
  let put := c.start + skip + c.len
  let ws := (if skip = 0 then [] else [(64 + c.start % (size - 64), leBytes 8 (7 + skip * 2 ^ 32) ++ leBytes 8 d.time, false)]) ++
    [(64 + pos + 8, bs.drop 8, false)] ++ bad.map (fun u => (64 + pos + 192 + 32 * u, (bs.drop (192 + 32 * u)).take 32, true)) ++
    [(64 + pos, bs.take 8, false), (0, leBytes 8 put, false)]
  let r := ws.foldl (fun (a : Dev × Nat) w =>
    if a.2 ≠ 0 then a
    else match a.1.vaWrite 0x4000 o (base + w.1) w.2.1 w.2.2 with
      | (d, .ok ..) => (d, 0)
      | (d, .wait) => (d, 1)
      | (d, .fail f) => (d.capFailed c f (base + w.1), 2)) (d, 0)
  if r.2 = 1 then r.1
  else if r.2 = 2 then r.1.capRingFail o
  else
    let d := (r.1.setWring o { r.1.wring o with put := put }).capPop outcome
    if o = 256 then d.msix 0 5 else d.msix (o + 1) 18

/-- The record ends with a header alone: what follows it in the reserved length is left open (Table 21.4, assumption 1). -/
def Dev.capEnd (d : Dev) (c : Capture) (status cause : Nat) : Dev :=
  Dev.capWrite d.freed c (c.header status cause 0 ++ leBytes (c.len - 64) (d.freeBits (8 * (c.len - 64)))) [] (outcomeOf status)

/-- Read the lines of a capture's elements, of whose pages `vas` are the lowest addresses (R975, R977): the lines, a wait, or the cause
of a failed check. -/
def Dev.capRead (d : Dev) (c : Capture) (vas ls : List Nat) : Dev × (List VLine ⊕ Option Nat) :=
  let o := c.watch.owner
  let (d, ts) := d.translateEach 0x4000 o 0 vas
  let rs := vas.zip ts
  match rs.findSome? fun e => match e.2 with
    | .fail f => some (f, e.1)
    | _ => none with
  | some (f, va) => (d.capFailed c f va, .inr (some f.cause))
  | none =>
    if rs.any (fun e => e.2.waits) then (d, .inr none)
    else
      let hosts := (ls.filter fun l => (opLineAt rs l).1.isHost).map fun l => ((opLineAt rs l).2, d.via o (128 * l) (opLineAt rs l).1)
      let lack := hosts.filter fun h => !(c.hbuf.any fun b => b.1 = h.1)
      if !lack.isEmpty then
        let fresh := lack.filter fun h => !c.hreq.contains h.1
        let d := d.capSet { c with hreq := fresh.map (·.1) ++ c.hreq }
        (fresh.foldl (fun d h => d.hostReadReq h.2 (128 * h.1) 128 10 h.1) d, .inr none)
      else
        let r := ls.foldl (fun (acc : Dev × List VLine) l =>
          match opLineAt rs l with
          | (.dev _ w _, p) =>
            let (d, v, po) := acc.1.l2Access (winReq 259 o w (128 * p) false 0 0 0)
            (d, acc.2 ++ [(l, v, po)])
          | (_, h) =>
            let b := ((c.hbuf.find? fun b => b.1 = h).map (·.2)).getD (0, false)
            (acc.1, acc.2 ++ [(l, b.1, if b.2 then 15 else 0)])) (d, [])
        (r.1, .inl r.2)

/-- A host line arrives for the running capture (use code 10). -/
def Dev.capHostLine (d : Dev) (line v : Nat) (poison : Bool) : Dev :=
  match d.clr.captures with
  | c :: _ => if c.hreq.contains line then d.capSet { c with hreq := c.hreq.erase line, hbuf := c.hbuf ++ [(line, v, poison)] } else d
  | [] => d

/-- The data of a capture once its tokens are there. -/
def Dev.capData (d : Dev) (c : Capture) : Dev :=
  let wb := tdBits c.desc
  let bs := allBits c.desc
  match d.capRead c (elementPages (bs.map some)) (linesOf (bs.map some)) with
  | (d, .inr (some cause)) => d.capEnd c 2 cause
  | (d, .inr none) => d
  | (d, .inl ls) =>
    let vs := bs.map fun b => bitsIn ls b wb
    let bad := ((vs.zipIdx.filter fun e => e.1.2).map fun e => wb * e.2 / 256).eraseDups
    let data := packBits wb (vs.map (·.1))
    d.capWrite c (c.header 0 0 bad.length ++ leBytes 128 c.desc ++ padBytes (c.len - 192) data) bad 0

/-- Start the head of the queue: reserve its length (R975, R978). -/
def Dev.capStart (d : Dev) (c : Capture) : Dev :=
  let o := c.watch.owner
  let (base, size) := d.watchBuf o
  let len := c.bytes
  if size = 0 then d.capPop 5
  else
    let r := d.wring o
    if ringRoom size r.put r.get len then
      d.capSet { c with started := true, start := r.put, len := len, time := if c.status = 0 then d.time else c.time }
    else if c.asked then
      if d.host.reads.any (fun x => x.use = useClrGet && x.arg = o + 1) then d else d.capPop 5
    else
      match d.vaRead 0x4000 o (base + 8) 8 useClrGet (o + 1) with
      | (d, .ok bs _) => (d.setWring o { d.wring o with get := leNat bs }).capSet { c with asked := true }
      | (d, .wait) => if d.host.reads.any (fun x => x.use = useClrGet && x.arg = o + 1) then d.capSet { c with asked := true } else d
      | (d, .fail f) => (d.capFailed c f (base + 8)).capRingFail o

/-- WATCH_CAPTURE: the engine takes the head of its queue one step further. -/
def Dev.watchCapture (d : Dev) : Dev :=
  match d.clr.captures with
  | [] => d
  | c :: _ =>
    if !c.started then d.capStart c
    else if c.torn then d.capEnd c 1 0
    else if c.stale then d.capEnd c 2 4
    else if d.clr.capTokens < c.len then d
    else if c.status ≠ 0 then d.capWrite c (c.header c.status 0 0) [] (outcomeOf c.status)
    else d.capData c

/-- A write of CLR_RING_BASE (R988). Where the GET last read from a host ring differs from PUT, what the host's memory holds now is open
(assumption 90). -/
def Dev.clrBase (d : Dev) (v : Nat) : WRes :=
  let d := d.clrGetAgain
  let stale := d.oget O.CLR_RING_SPACE ≠ 1 && d.oget O.CLR_RING_BASE ≠ 0 && d.clr.put ≠ d.clr.get
  let met := d.freeBits 1 = 1
  let d : Dev := if stale then d.freed else d
  if d.clr.put ≠ d.clr.get && !(stale && met) then .error stState
  else
    let d := d.oset O.CLR_RING_BASE v
    .ok { d with clr := { d.clr with unset := false, get := d.clr.put } }

/-! ### Commands -/

/-- SAMPLER. -/
def execSampler (s : State) : Host.Outcome State Fault Refusal := s.run Dev.sample
/-- DROPS_RECORD. -/
def execDropsRecord (s : State) : Host.Outcome State Fault Refusal := s.run Dev.dropsRecord
/-- TOKEN_REFILL. -/
def execTokenRefill (s : State) : Host.Outcome State Fault Refusal := s.run Dev.tokenRefill
/-- WATCH_CAPTURE. -/
def execWatchCapture (s : State) : Host.Outcome State Fault Refusal := s.run Dev.watchCapture
/-- SNAPSHOT_WRITE, with what the store's ECC finds (R987). -/
def execSnapshotWrite (e : HwErr) (s : State) : Host.Outcome State Fault Refusal := s.run fun d => d.snapshotWrite e

end Sys2Proof.Machine
end

