-- ==== Sys2Proof/Machine/Sched.lean ====
section
/-! DEFINITION. Machine/Sched.lean: chapels, the horarium and shares (chapter 13): who is admitted where and when, the placement
and the order of tasks, their dispatch, slot boundaries, guards, accounts, and the audit of STRICT isolation (R656). -/

namespace Sys2Proof.Machine

/-! ### Chapels (R606, R647) -/

/-- Domain of octant `k` (Table 19.1). -/
def octDomain (k : Nat) : Nat := 4 + k

/-- Octant of a quarter (R606). -/
def octOfQtr (q : Nat) : Nat := q / 2

/-- Octant of a core. -/
def octOfCore (n : Nat) : Nat := n / 32

/-- The domain of an octant has FAILED. -/
def Dev.octFailed (d : Dev) (k : Nat) : Bool := d.oget (O.PD_STATE (octDomain k)) = 5

/-- Configured quarters of a chapel. -/
def Dev.qtrs (d : Dev) (c : Nat) : Nat := bits (d.oget (O.CHAPEL c)) 0 16

/-- The chapel is STRICT. -/
def Dev.strict (d : Dev) (c : Nat) : Bool := bit (d.oget (O.CHAPEL c)) 17

/-- The chapel is in SHARE mode. -/
def Dev.shareMode (d : Dev) (c : Nat) : Bool := bit (d.oget (O.CHAPEL c)) 16

/-- Quarter `q` is an effective quarter of a chapel (R606). -/
def Dev.effQtr (d : Dev) (c q : Nat) : Bool := bit (d.qtrs c) q && !d.octFailed (octOfQtr q)

/-- Effective quarters of a chapel as a mask. -/
def Dev.effMask (d : Dev) (c : Nat) : Nat := (rangeFrom 0 16).foldl (fun m q => m + b2n (d.effQtr c q) * 2 ^ q) 0

/-! ### The horarium (R610 to R617) -/

/-- FRAME in ns. -/
def HorTable.period (t : HorTable) : Nat := 1000 * t.frame

/-- Frame offset of a time, in µs (R615). -/
def HorTable.offset (t : HorTable) (now : Nat) : Nat := (((now : Int) - t.epoch) % t.period).toNat / 1000

/-- The entry covers a chapel at a frame offset (R610). -/
def HorEntry.covers (e : HorEntry) (c off : Nat) : Bool := bit e.chapels c && e.start ≤ off && off < e.start + e.length

/-- The governing entry of a chapel at a time: the most urgent covering entry, the lowest index among equals (R610, R641). -/
def HorTable.governing (t : HorTable) (c now : Nat) : Option HorEntry :=
  (t.entries.filter fun e => e.covers c (t.offset now)).foldl
    (fun (b : Option HorEntry) e => match b with
      | none => some e
      | some x => if e.level < x.level then some e else some x) none

/-- First time at or after `lo`, and at or after EPOCH, that is a frame boundary plus `off` µs. -/
def HorTable.first (t : HorTable) (lo off : Nat) : Nat :=
  let base := t.epoch + 1000 * off
  if lo ≤ base then base else base + cdiv (lo - base) t.period * t.period

/-- When the STAGED table switches, seen from `now` (R614). -/
def HorTable.switchAt (t : HorTable) (now : Nat) : Nat := t.first (max (t.loaded + 1000) now) 0

/-- The table in force at a time not before now. -/
def Dev.tableAt (d : Dev) (t : Nat) : Option HorTable :=
  match d.prec.sched.staged with
  | some s => if s.switchAt d.time ≤ t then some s else d.prec.sched.active
  | none => d.prec.sched.active

/-- The governing entry of a chapel at a time not before now. -/
def Dev.governing (d : Dev) (c t : Nat) : Option HorEntry := (d.tableAt t).bind fun h => h.governing c t

/-- The owner entry that governs a chapel at a time; none in pool time. -/
def Dev.ownerEntry (d : Dev) (c t : Nat) : Option HorEntry := (d.governing c t).filter fun e => !e.pool

/-- Weight of an owner on a chapel, as in effect. -/
def Dev.weight (d : Dev) (c o : Nat) : Nat := dget 0 d.prec.sched.weights (257 * c + o)

/-- Owner `o` is admitted on chapel `c` at time `t` (R611, R637). -/
def Dev.admitted (d : Dev) (c o t : Nat) : Bool :=
  match d.ownerEntry c t with
  | some e => e.owner = o && d.ownerLive o
  | none => !d.strict c && d.weight c o ≠ 0

/-! ### Accounts and deficits (R624 to R626) -/

/-- Deficit of an owner on a chapel. -/
def Dev.deficit (d : Dev) (c o : Nat) : Int := dget 0 d.prec.sched.deficits (257 * c + o)

/-- Change the scheduler's state. -/
def Dev.onSched (d : Dev) (f : Sched → Sched) : Dev := { d with prec := { d.prec with sched := f d.prec.sched } }

/-- Set the deficit of an owner on a chapel. -/
def Dev.setDeficit (d : Dev) (c o : Nat) (v : Int) : Dev :=
  d.onSched fun s => { s with deficits := dset 0 s.deficits (257 * c + o) v }

/-- Charge a task for one core and one tick (R625, R643). -/
def Dev.chargeTask (d : Dev) (t : TaskRun) (pool : Bool) : Dev :=
  let k := 257 * t.chapel + t.owner
  d.onSched fun s =>
    { s with accounts := dset 0 s.accounts k ((dget 0 s.accounts k + 1000) % 2 ^ 64),
             deficits := if pool then dset 0 s.deficits k (dget 0 s.deficits k - 1000) else s.deficits }

/-- The charges of a tick: every task that a core holds, running, aborting or pending start (R625). -/
def Dev.charge (d : Dev) : Dev :=
  (d.nave.cores.flatMap fun e => e.2.task.toList ++ e.2.next.toList).foldl (fun d t => d.chargeTask t t.pool) d

/-- Set the deficits of a chapel to 0 (R609). -/
def Dev.chapelDeficits (d : Dev) (c : Nat) : Dev :=
  d.onSched fun s => { s with deficits := s.deficits.filter fun e => e.1 / 257 ≠ c }

/-- Set the deficits of an owner to 0 (Table 14.7 step 7). -/
def Dev.ownerDeficits (d : Dev) (o : Nat) : Dev :=
  d.onSched fun s => { s with deficits := s.deficits.filter fun e => e.1 % 257 ≠ o }

/-- Set the accounts and deficits of an owner to 0 (R626, R649). -/
def Dev.ownerAccounts (d : Dev) (o : Nat) : Dev :=
  (d.ownerDeficits o).onSched fun s => { s with accounts := s.accounts.filter fun e => e.1 % 257 ≠ o }

/-- Written weights and parameters come into effect at step 1 (R640); a changed weight zeroes its deficit (R626). -/
def Dev.schedApply (d : Dev) : Dev :=
  let w := (d.objs.filter fun e => e.1 / 2 ^ 32 = 0x420100).map fun e => (e.1 % 2 ^ 32, e.2)
  d.onSched fun s =>
    { s with weights := w, deficits := s.deficits.filter fun e => dget 0 w e.1 = dget 0 s.weights e.1,
             quantum := d.oget O.SHARE_QUANTUM, grace := d.oget O.GRACE, floor := d.oget O.URGENT_FLOOR,
             lead := d.oget O.URGENT_LEAD }

/-! ### Placement (R618 to R621) -/

/-- A core is idle: no task, none pending, and its domain ON or PARKED (R618, R887, R903). -/
def Dev.coreIdle (d : Dev) (n : Nat) : Bool :=
  let c := d.core n
  let s := d.oget (O.PD_STATE (octDomain (octOfCore n)))
  c.task.isNone && c.next.isNone && (s = 2 || s = 3)

/-- First cores and sizes of the units of a TASK packet's shape (Table 13.4). -/
def shapeUnits (p : Nat) : List Nat × Nat :=
  if tkTandem p then ((rangeFrom 0 128).map (2 * ·), 2)
  else let g := tkGang p; ((rangeFrom 0 (256 / g)).map (g * ·), g)

/-- A unit of a node's shape lies in the effective quarters of a chapel; a tandem pair needs a cloister in tandem service, other
than the one its node avoids (R686). -/
def Dev.unitFits (d : Dev) (x : Node) (c first size : Nat) : Bool :=
  (rangeFrom (first / 16) (cdiv size 16)).all (fun q => d.effQtr c q) &&
  (!tkTandem x.body || (d.inTandem (first / 4) && x.avoid ≠ some (first / 4)))

/-- The 64-byte record at a virtual address of an owner, read without effect; none where it cannot be read at once. -/
def Dev.peekRecord (d : Dev) (owner va : Nat) : Option Nat :=
  match (d.translate 0x3000 owner va 0).2 with
  | .dev _ w x => some (leNat (d.winRead 259 owner w x 64).2.1)
  | _ => none

/-- The context indices with a Starling source in a task's stream table (R396, R397). -/
def Dev.sourceContexts (d : Dev) (x : Node) : List Nat :=
  let n := tkStreams x.body
  let recs := (rangeFrom 0 (tkGang x.body)).flatMap fun r => (rangeFrom 0 n).filterMap fun i =>
    match d.peekRecord x.owner (tkTable x.body + 64 * (r * n + i)) with
    | some v => if srMask v ≠ 0 then some i else none
    | none => none
  (rangeFrom 0 16).filter recs.contains

/-- Free Starling groups of a die (R397), lowest first. -/
def Dev.freeGroups (d : Dev) (die : Nat) : List Nat :=
  (rangeFrom (256 * die) 256).filter fun g => !d.nave.groups.contains g

/-- The unit a node would occupy in a chapel now: idle, with free Starling groups on its die, first one that needs no scrub, the
lowest first core (R619, R620). `disp` are aborting cores that may hold the dispatch (R632). -/
def Dev.findUnit (d : Dev) (x : Node) (c : Nat) (disp : List Nat) : Option Nat :=
  let (us, size) := shapeUnits x.body
  let free := fun n => d.coreIdle n || (disp.contains n && (d.core n).next.isNone)
  let want := (d.sourceContexts x).length
  let ok := us.filter fun u => d.unitFits x c u size && (rangeFrom u size).all free && want ≤ (d.freeGroups (dieOfCore u)).length
  let clean := fun u => (rangeFrom u size).all fun n => (d.core n).lastOwner = x.owner && !(d.core n).scrubbed && (d.core n).task.isNone
  (ok.find? clean).or ok.head?

/-- A STRICT chapel takes a task only when its owner's entry, adjacent ones included, governs for all of BUDGET (R628). -/
def Dev.budgetFits (d : Dev) (x : Node) (c : Nat) : Bool :=
  !d.strict c || (rangeFrom 0 (tkBudget x.body)).all fun i => match d.ownerEntry c (d.time + 1000 * i) with
    | some e => e.owner = x.owner
    | none => false

/-- A guard holds a non-restartable task back from a chapel (R630): its next start `s` of another owner's entry lies within GUARD
and before the task's budget would end. -/
def Dev.guarded (d : Dev) (x : Node) (c : Nat) : Bool :=
  let sw := d.prec.sched.staged.map fun s => s.switchAt d.time
  let near := fun (s g : Nat) => s ≤ d.time + 1000 * g && s < d.time + 1000 * tkBudget x.body
  let foreign := fun (e : HorEntry) => !e.pool && e.guard ≠ 0 && bit e.chapels c && e.owner ≠ x.owner
  !x.restartable &&
  ((match d.prec.sched.active with
    | some t => t.entries.any fun e =>
        let s := t.first (d.time + 1000) e.start
        foreign e && near s e.guard && (match sw with
          | some w => decide (s < w)
          | none => true)
    | none => false) ||
   (match d.prec.sched.staged with
    | some t => t.entries.any fun e => foreign e && near (t.first (max (d.time + 1000) (t.switchAt d.time)) e.start) e.guard
    | none => false))

/-- Where a READY task would be placed now: the lowest-numbered admitting chapel with an idle unit of its shape (R619). -/
def Dev.placeFor (d : Dev) (x : Node) (disp : List Nat) : Option (Nat × Nat) :=
  (rangeFrom 0 16).findSome? fun c =>
    if d.admitted c x.owner d.time && d.budgetFits x c && !d.guarded x c then
      (d.findUnit x c (if ((d.ownerEntry c d.time).map (·.level)) = some 0 then disp else [])).map fun u => (c, u)
    else none

/-- Key of R622: LEVEL, first READY tick, owner, queue, GRAPH, NODE. -/
def Node.key (x : Node) : List Nat := [tkLevel x.body, x.readyAt, x.owner, x.queue, x.graph, x.id]

/-- Lexicographic order of keys. -/
def keyLe : List Nat → List Nat → Bool
  | [], _ => true
  | _, [] => false
  | a :: as, b :: bs => if a = b then keyLe as bs else decide (a < b)

/-- READY tasks in key order. -/
def Dev.readyTasks (d : Dev) : List Node :=
  sortBy (fun a b => keyLe a.key b.key)
    (d.prec.nodes.filter fun x => x.state = .ready && x.opc = 1 && x.notBefore ≤ d.time && d.ownerLive x.owner)

/-! ### Dispatch -/

/-- Table 19.4 between two rows, in mV: the interpolated floor of a frequency. -/
def floorBetween (f f0 v0 f1 v1 : Nat) : Nat := v0 + cdiv ((f - f0) * (v1 - v0)) (f1 - f0)

/-- Voltage floor of a frequency before the aging offset, rounded up to a 5 mV step (Table 19.4, R893). -/
def voltFloor (f : Nat) : Nat :=
  5 * cdiv (if f ≤ 600 then floorBetween f 400 530 600 570
    else if f ≤ 800 then floorBetween f 600 570 800 610
    else if f ≤ 950 then floorBetween f 800 610 950 645
    else if f ≤ 1100 then floorBetween f 950 645 1100 700
    else floorBetween f 1100 700 1250 770) 5

/-- VSAFE of a frequency on octant `k` (R893). -/
def Dev.vsafe (d : Dev) (k f : Nat) : Nat := voltFloor f + dget 0 d.life.effective k

/-- End the park of an octant (R903): its rail and clock return, and its count of 50 ms restarts (R921). -/
def Dev.unpark (d : Dev) (k : Nat) : Dev :=
  if d.oget (O.PD_STATE (octDomain k)) = 3 then
    let d := (d.oset (O.PD_STATE (octDomain k)) 2).oset (O.OCT_VOLT k) (max (d.oget (O.OCT_VOLT k)) (d.vsafe k (d.oget (O.OCT_CLOCK k))))
    { d with power := { d.power with countFrom := mset d.power.countFrom (octDomain k) d.time } }
  else d

/-- The stored descriptor images of a node's handles, read at dispatch (R417); the first one with an uncorrectable error makes its
entry STALE (R448). -/
def Dev.readDescs (d : Dev) (owner : Nat) : List (Nat × Nat) → Dev × (List (Nat × Nat) ⊕ Nat)
  | [] => (d, .inl [])
  | (slot, h) :: rest =>
    match d.dpaRead 259 256 (dget 0 d.prec.descTable owner + 128 * h) 128 with
    | (d, _, true) => (d.descSpoil owner h, .inr h)
    | (d, v, false) =>
      match Dev.readDescs d owner rest with
      | (d, .inl l) => (d, .inl ((slot, v) :: l))
      | (d, .inr h) => (d, .inr h)

/-- The node passes to RUNNING (R580, R586): DISPATCHES counts the dispatch unless its requeue has (R627). -/
def Node.start (x : Node) (now : Nat) : Node :=
  { x with state := .running, dispatches := if x.counted then x.dispatches else x.dispatches + 1, counted := false,
           dispatchedAt := now, firstDispatch := if x.firstDispatch = 0 then now else x.firstDispatch, reports := [],
           grace := false }

/-- The runs a dispatch gives the cores of a unit: one task on a gang, or a tandem pair (R682). -/
def taskRuns (x : Node) (c u : Nat) (descs groups : List (Nat × Nat)) (delay : Nat) (urgent : Option Nat) : List (Nat × TaskRun) :=
  let run := fun (first gang tandem : Nat) =>
    (⟨x.owner, x.queue, x.graph, x.id, x.order, x.body, tkChoirs x.body, tkRegs x.body, gang, first, tandem, c, descs, groups,
      x.dispatches, x.restartable, if tandem = 0 then 0 else delay, false, x.pool, urgent⟩ : TaskRun)
  if tkTandem x.body then [(u, run u 1 1), (u + 1, run (u + 1) 1 2)]
  else (gangCores u (tkGang x.body)).map fun n => (n, run u (tkGang x.body) 0)

/-- T of R633 for a task that is dispatched in an URGENT entry of its owner, and was not since T: the later of the entry's start and its
first READY tick. -/
def Dev.urgentT (d : Dev) (x : Node) (c : Nat) : Option Nat :=
  match d.prec.sched.active, d.ownerEntry c d.time with
  | some h, some e =>
    let t := max (d.time - d.time % 1000 - 1000 * (h.offset d.time - e.start)) x.readyAt
    if e.level = 0 && e.owner = x.owner && (x.dispatches = 0 || x.dispatchedAt < t) then some t else none
  | _, _ => none

/-- Dispatch a task to a unit of a chapel (R397, R417, R618): its descriptors go with it, its Starling groups are allocated, and
its cores hold it until TASK_START, or until their abort ends (R632). -/
def Dev.dispatchTask (d : Dev) (x : Node) (c u : Nat) : Dev :=
  let slots := (rangeFrom 0 16).filterMap fun i => if bit (tkSlots x.body) i then some (i, tkHandle x.body i) else none
  match d.readDescs x.owner slots with
  | (d, .inr h) => d.nodeFail x 5 0 .note { Report.none with addr := h }
  | (d, .inl descs) =>
    let out := (rangeFrom 0 16).filterMap fun i => if bit (tkOut x.body) i then some (tkHandle x.body i) else none
    let d := d.tear x.owner (fun c => out.contains c.handle) false
    let groups := (d.sourceContexts x).zip (d.freeGroups (dieOfCore u))
    let d := { d with nave := { d.nave with groups := d.nave.groups ++ groups.map fun (g : Nat × Nat) => g.2 } }
    let d := d.oset (O.STARLING_FREE (dieOfCore u)) (d.oget (O.STARLING_FREE (dieOfCore u)) - groups.length)
    let y := { x.start d.time with core := u, chapel := c, pool := (d.ownerEntry c d.time).isNone }
    let d := d.onNode x.order fun _ => y
    let d := (taskRuns y c u descs groups (d.oget O.TANDEM_DELAY) (d.urgentT x c)).foldl
      (fun d e => (d.unpark (octOfCore e.1)).onCore e.1 fun k =>
        if k.task.isSome then { k with next := some e.2 } else { k with task := some e.2, state := 1 }) d
    d.clrEvent 1 0 x.graph x.owner x.queue x.id u (if tkTandem x.body then 1 else tkGang x.body)

/-- Dispatch, in key order, the tasks whose place lies in a chapel of LEVEL order (R622, R623). -/
def Dev.levelChapel (d : Dev) (c : Nat) (disp : List Nat) : List Node → Nat → Dev × Nat
  | [], n => (d, n)
  | x :: xs, n =>
    if 64 ≤ n then (d, n)
    else if (d.node x.order).all fun y => y.state ≠ .ready then Dev.levelChapel d c disp xs n
    else
      match d.placeFor x disp with
      | some (k, u) =>
        if k = c then Dev.levelChapel (d.dispatchTask x c u) c disp xs (n + 1) else Dev.levelChapel d c disp xs n
      | none => Dev.levelChapel d c disp xs n

/-- The owner's first task, in key order, that a chapel can take now. -/
def Dev.firstFor (d : Dev) (c o : Nat) : Option (Node × Nat) :=
  (d.readyTasks.filter fun x => x.owner = o).findSome? fun x =>
    match d.placeFor x [] with
    | some (k, u) => if k = c then some (x, u) else none
    | none => none

/-- Owners in ascending order from the one after `last` (coded plus one; 0 is none), wrapping (R624). -/
def ownersAfter (last : Nat) : List Nat := rangeFrom last (257 - last) ++ rangeFrom 0 last

/-- Owners with a READY task. -/
def Dev.readyOwners (d : Dev) : List Nat :=
  (rangeFrom 0 257).filter fun o => d.prec.nodes.any fun x => x.state = .ready && x.opc = 1 && x.owner = o

/-- The loop of R624 in the pool time of a SHARE chapel. -/
def Dev.shareLoop (d : Dev) (c : Nat) : Nat → Bool → Nat → Dev × Nat
  | 0, _, n => (d, n)
  | f + 1, refilled, n =>
    if 64 ≤ n then (d, n)
    else
      let pick := (ownersAfter (dget 0 d.prec.sched.last c)).findSome? fun o =>
        if d.weight c o ≠ 0 && 0 < d.deficit c o then (d.firstFor c o).map fun e => (o, e) else none
      match pick with
      | some (o, x, u) =>
        let d := (d.dispatchTask x c u).onSched fun s => { s with last := dset 0 s.last c (o + 1) }
        Dev.shareLoop d c f refilled (n + 1)
      | none =>
        if !refilled && (d.readyOwners.any fun o => d.admitted c o d.time && (d.firstFor c o).isSome) then
          let d := d.readyOwners.foldl (fun d o =>
            let q : Int := (d.weight c o * d.prec.sched.quantum : Nat)
            if d.weight c o = 0 then d else d.setDeficit c o (min (d.deficit c o + q) q)) d
          Dev.shareLoop d c f true n
        else (d, n)

/-- Serve one chapel (R623, R624). -/
def Dev.serveChapel (d : Dev) (c : Nat) (disp : List Nat) (n : Nat) : Dev × Nat :=
  if d.shareMode c && (d.ownerEntry c d.time).isNone then
    let (d, n) := d.shareLoop c 200 false n
    let idle := fun o => !(d.readyOwners.contains o)
    (d.onSched fun s => { s with deficits := s.deficits.filter fun (e : Nat × Int) => !(e.1 / 257 = c && idle (e.1 % 257) && decide (0 < e.2)) }, n)
  else d.levelChapel c disp d.readyTasks n

/-- The chapels in the order of a tick: from the one after the chapel visited first last time (R623). -/
def chapelOrder (next : Nat) : List Nat := rangeFrom next (16 - next) ++ rangeFrom 0 next

/-- Report tasks whose shape fits no admitting chapel (R621, R691), once each. -/
def Dev.unplaceable (d : Dev) : Dev :=
  d.readyTasks.foldl (fun d x =>
    let cs := (rangeFrom 0 16).filter fun c => d.admitted c x.owner d.time
    let (us, size) := shapeUnits x.body
    if x.noted || cs.isEmpty || cs.any (fun c => us.any fun u => d.unitFits x c u size) then d
    else ((d.onNode x.order fun y => { y with noted := true }).oinc O.UNPLACEABLE).noteEvent 0x34 0 0x3000) d

/-- Count the tasks that guards hold back in this tick (R630). -/
def Dev.guardHolds (d : Dev) : Dev :=
  d.oadd O.GUARD_HOLDS (d.readyTasks.filter fun x =>
    (rangeFrom 0 16).any fun c => d.admitted c x.owner d.time && d.budgetFits x c && d.guarded x c).length

/-- The task part of step 5: every chapel in its turn, up to 64 dispatches with the `n` made before (R623). -/
def Dev.dispatchTasks (d : Dev) (disp : List Nat) (n : Nat) : Dev :=
  let next := d.prec.sched.chapNext % 16
  let d := ((chapelOrder next).foldl (fun (a : Dev × Nat) c => a.1.serveChapel c disp a.2) (d, n)).1
  ((d.onSched fun s => { s with chapNext := (next + 1) % 16 }).guardHolds).unplaceable

/-! ### Slot boundaries (R627) -/

/-- Examine one running task at a boundary, and tell which cores an URGENT entry displaces (R632). -/
def Dev.boundaryOne (d : Dev) (x : Node) : Dev × List Nat :=
  let urgent := ((d.governing x.chapel d.time).map (·.level)) = some 0
  let left := (x.dispatchedAt + 1000 * tkBudget x.body) - d.time
  if d.admitted x.chapel x.owner d.time then (d, [])
  else if x.restartable && (d.strict x.chapel || urgent || 1000 * d.prec.sched.grace < left) then
    let cs := d.coresOf x
    let d := (d.nodeRequeue x).oinc O.SLOT_PREEMPTIONS
    (d.clrEvent 4 0 x.graph x.owner x.queue x.id x.core cs.length, if urgent then cs else [])
  else
    let d := d.onNode x.order fun y => { y with grace := true }
    (if x.restartable then d.oinc O.GRACE_FINISHES else d, [])

/-- The boundaries of a tick: every running task not yet allowed to run to its end (R627, R635). -/
def Dev.boundaries (d : Dev) : Dev × List Nat :=
  (d.prec.nodes.filter fun x => x.state = .running && x.opc = 1 && !x.grace).foldl
    (fun (a : Dev × List Nat) x => let (d, l) := a.1.boundaryOne x; (d, a.2 ++ l)) (d, [])

/-! ### The audit of STRICT isolation (R653, R656) -/

/-- Chapels on which a tenant has an owner entry in a table. -/
def chapelsOf (t : Option HorTable) (o : Nat) : List Nat :=
  (rangeFrom 0 16).filter fun c => match t with
    | some t => t.entries.any fun e => !e.pool && e.owner = o && bit e.chapels c
    | none => false

/-- Dies that hold quarters of a chapel. -/
def Dev.diesOf (d : Dev) (c : Nat) : List Nat :=
  (if d.qtrs c % 256 ≠ 0 then [0] else []) ++ (if d.qtrs c / 256 ≠ 0 then [1] else [])

/-- STRICT_AUDIT of a tenant (Table 14.4). -/
def Dev.audit (d : Dev) (o : Nat) : Nat :=
  let cs := chapelsOf d.prec.sched.active o
  let mine := (d.tr.wins.filter fun e => e.1 / 64 = o).map (·.2)
  let others := (d.tr.wins.filter fun e => e.1 / 64 ≠ o).map (·.2)
  let ways := fun (w : Window) => if w.home = 3 then 0 else bits (d.oget (O.L2_PARTITION w.l2p)) 0 16
  let c1 := cs.any (fun c => !d.strict c) || (rangeFrom 0 16).any fun c => !d.strict c && d.oget (O.WEIGHTS (257 * c + o)) ≠ 0
  let c2 := mine.any fun a => others.any fun b => (ways a &&& ways b) ≠ 0
  let c4 := cs.any fun c => (d.diesOf c).any fun die => !(rangeFrom 0 8).any fun j => d.oget (O.STARLING_SLOT_MAP (8 * die + j)) = c
  let c5 := mine.any (fun w => w.home = 3) || cs.any fun c => match d.diesOf c with
    | [die] => mine.any fun w => w.home ≠ die
    | [] => false
    | _ => true
  let c6 := cs.any fun c => (rangeFrom 0 8).any fun k =>
    (d.qtrs c / 4 ^ k) % 4 ≠ 0 && d.oget (O.OCT_CLOCK_PIN k) = 0 &&
    (rangeFrom 0 16).any fun b => b ≠ c && (d.qtrs b / 4 ^ k) % 4 ≠ 0
  b2n cs.isEmpty + 2 * b2n c1 + 4 * b2n c2 + 8 * b2n c4 + 16 * b2n c5 + 32 * b2n c6

/-- Evaluate the audit of every tenant again. -/
def Dev.auditAll (d : Dev) : Dev := (rangeFrom 0 256).foldl (fun d t => d.oset (O.STRICT_AUDIT t) (d.audit t)) d

/-! ### Table switch, frames and URGENT floors -/

/-- Objects that take effect with the next frame do so (R843): the STARLING_SLOT_MAP (R415). -/
def Dev.frameEffects (d : Dev) : Dev := { d with dict := { d.dict with nextFrame := [] } }

/-- Show the tables in the horarium objects. -/
def Dev.horShow (d : Dev) : Dev :=
  let a := d.prec.sched.active
  let d := (d.oset O.HOR_FRAME ((a.map (·.frame)).getD 0)).oset O.HOR_EPOCH ((a.map (·.epoch)).getD 0)
  let d := d.oset O.HOR_ENTRIES ((a.map (·.entries.length)).getD 0)
  let s := d.prec.sched.staged
  (d.oset O.HOR_STAGED (b2n s.isSome)).oset O.HOR_SWITCH_TIME ((s.map fun t => t.switchAt d.time).getD 0)

/-- The switch of step 3 (R614, R616): the STAGED table becomes ACTIVE at its frame boundary. Then the frames begun are counted. -/
def Dev.horSwitch (d : Dev) : Dev :=
  match d.prec.sched.staged with
  | some t =>
    if t.switchAt d.time = d.time then
      ((((d.onSched fun s => { s with active := some t, staged := none }).oset O.HOR_STATE 1).horShow).oinc O.FRAMES).frameEffects.auditAll
    else d
  | none => d

/-- A frame of the ACTIVE table has begun since the last tick (R615): FRAMES counts it, and next-frame values take effect; with no table
ACTIVE they do so at every tick (R843). Boundaries that a forward step of fabric time skipped are not replayed, so that at most the frame
that the tick lies in is counted (R617; assumption 84). -/
def Dev.frames (d : Dev) : Dev :=
  match d.prec.sched.active with
  | none => d.frameEffects
  | some t =>
    let i := fun now => ((now : Int) - t.epoch) / t.period
    let n := (i d.time - i d.prec.sched.lastTick).toNat
    if n = 0 then d else (d.oinc O.FRAMES).frameEffects

/-- The clock floor the precentor requests of an octant at a time (R631): some URGENT entry of a table in force lies within
URGENT_LEAD of its start, or has not ended, and one of its chapels, which it governs then, has an effective quarter there (R641). -/
def Dev.floorWanted (d : Dev) (k : Nat) : Bool :=
  let near := fun (t : HorTable) (lo hi : Option Nat) => t.entries.any fun e =>
    let s := t.first (max (d.time + 1000) (lo.getD 0)) e.start
    let open_ := d.prec.sched.active = some t && e.start ≤ t.offset d.time && t.offset d.time < e.start + e.length
    let soon := decide (s ≤ d.time + 1000 * d.prec.sched.lead) && (match hi with
      | some w => decide (s < w)
      | none => true)
    let rules := fun c => (open_ && t.governing c d.time = some e) || (soon && t.governing c s = some e)
    e.level = 0 && (open_ || soon) &&
      (rangeFrom 0 16).any fun c => bit e.chapels c && rules c && (d.effQtr c (2 * k) || d.effQtr c (2 * k + 1))
  let sw := d.prec.sched.staged.map fun t => t.switchAt d.time
  (match d.prec.sched.active with
   | some t => near t none sw
   | none => false) ||
  (match d.prec.sched.staged with
   | some t => near t sw none
   | none => false)

/-- Renew the clock floors requested for URGENT entries (R631); a request unparks its octant (R903). -/
def Dev.urgentFloors (d : Dev) : Dev :=
  let want := (rangeFrom 0 8).filter d.floorWanted
  let d := { d with prec := { d.prec with urgent := want.map fun k => (k, d.prec.sched.floor) } }
  want.foldl Dev.unpark d

/-- An uncorrectable error in a horarium table (R645): the STAGED table is discarded; the ACTIVE one ends, and every chapel is in
pool time. -/
def Dev.horLost (d : Dev) (active : Bool) : Dev :=
  if active then
    if d.prec.sched.active.isNone then d
    else (((d.onSched fun s => { s with active := none }).oset O.HOR_STATE 2).horShow).noteEvent 5 0 0x3000
  else if d.prec.sched.staged.isNone then d
  else ((d.onSched fun s => { s with staged := none }).horShow).noteEvent 5 0 0x3000

/-! ### Commands -/

/-- TASK_START. -/
def execTaskStart (core : Nat) (s : State) : Host.Outcome State Fault Refusal := s.runIf (core < 256) fun d => d.taskStart core

/-- HORARIUM_SWITCH (R614): step 3 of a tick at the boundary the STAGED table's epoch gives. -/
def execHorariumSwitch (s : State) : Host.Outcome State Fault Refusal := s.run Dev.horSwitch

/-- SLOT_BOUNDARY (R627): running tasks of owners that are no longer admitted are preempted or left to finish. -/
def execSlotBoundary (s : State) : Host.Outcome State Fault Refusal := s.run fun d => d.boundaries.1

/-- URGENT_FLOOR_REQUEST (R631): the floors due for an entry of the ACTIVE table, and for every other, are requested. -/
def execUrgentFloorRequest (entry : Nat) (s : State) : Host.Outcome State Fault Refusal := s.runIf (entry < 1024) Dev.urgentFloors

end Sys2Proof.Machine
end

