-- ==== Sys2Proof/Machine/Queue.lean ====
section
/-! DEFINITION. Machine/Queue.lean: queue packets in progress, the completion records and headers of step 6, doorbells and
QUEUE_CTRL (chapter 12). -/

namespace Sys2Proof.Machine

/-! ### Packets that complete (R569) -/

/-- A queue packet is complete: it waits no longer, a failure is logged at NOTE, and its record is posted; TLB_INVALIDATE has none
(R472). -/
def Dev.completePacket (d : Dev) (k : Nat) (w : QWait) (cause detail aux addr : Nat) : Dev :=
  let d := d.onQueue k fun q => { q with waits := q.waits.filter fun x => x.seq ≠ w.seq, lastDone := d.time }
  let d := if cause = 0 then d
    else d.raise { cause := cause, detail := detail, owner := k / 16, queue := k % 16, addr := addr }
  if w.opc = 0x85 then d.oinc O.TLB_INVALIDATES
  else d.post k { CRec.zero with packet := w.count, aux := aux, addr := addr, opcode := w.opc, cause := cause, detail := detail,
                                 kind := 3, irq := w.irq }

/-- A waiting FENCE completes when no earlier queue packet of its queue waits and, with GRAPHS, no graph sealed before it is live
(R569, R570). -/
def Dev.fenceCheck (d : Dev) (k : Nat) : Dev :=
  let q := d.queue k
  match q.waits.find? fun w => w.opc = 0x0C with
  | none => d
  | some f =>
    let live := d.prec.graphs.any fun g => g.owner = k / 16 && g.queue = k % 16 && g.isSealed && g.sealSeq < f.seq
    if q.waits.any (fun w => w.seq < f.seq) || (f.arg = 1 && live) then d
    else (d.completePacket k f 0 0 0 0).onQueue k fun q => { q with fencing := false }

/-! ### Completion rings (R559 to R561, R593, R594) -/

/-- The completion ring appears full (R560). -/
def Queue.full (q : Queue) : Bool := (q.cqPut + 2 ^ 32 - q.cqGet) % 2 ^ 32 = q.cqSlots

/-- The code of host reads that bring doubleword 1 of a completion ring header. -/
def useCqHeader : Nat := 8

/-- Order of the records of one step 6 (R593). -/
def CRec.key (r : CRec) (get : Nat) : List Nat :=
  match r.kind with
  | 3 => [0, (r.packet + 2 ^ 32 - get % 2 ^ 32) % 2 ^ 32]
  | 1 => [1, r.graph, r.node]
  | 2 => [2]
  | _ => [3]

/-- Read doubleword 1 while the ring appears full (R560). -/
def Dev.cqGetRead (d : Dev) (k : Nat) : Dev :=
  let q := d.queue k
  if !q.full || d.host.reads.any (fun r => r.use = useCqHeader && r.arg = k) then d
  else
    match d.vaRead 0x3000 (k / 16) (q.cqBase + 8) 8 useCqHeader k with
    | (d, .ok bs _) => d.onQueue k fun q => { q with cqGet := leNat bs % 2 ^ 32 }
    | (d, .wait) => d
    | (d, .fail f) =>
      if f.cause = 0x30 && !(d.func (fnOf (k / 16))).busMaster then d else d.haltQueue k f.cause f.detail 0 0 (q.cqBase + 8) true

/-- A record of a queue has been written: a mapped window comes into force (R454), the watches of an ended graph fire (R974), and a
HALT record of a tenant raises its group's vector (R594). -/
def Dev.recWritten (d : Dev) (k : Nat) (r : CRec) : Dev :=
  let d := d.onQueue k fun q =>
    { q with records := q.records.drop 1, cqPut := (q.cqPut + 1) % 2 ^ 32, vector := q.vector || r.irq }
  let d := if r.kind = 2 then d.watchFire (k / 16) (k % 16) r.graph (r.cause ≠ 0 || r.aux ≠ 0) else d
  let d := if r.kind = 3 && r.opcode = 0x83 then
      let mine := fun (w : NewWindow) => w.queue = k && w.count = r.packet
      let ws := d.tr.newWins.filter mine
      let d := { d with tr := { d.tr with newWins := d.tr.newWins.filter fun w => !mine w,
                                          wins := ws.foldl (fun m w => mset m w.key w.win) d.tr.wins } }
      if ws.isEmpty then d else d.auditAll
    else d
  if r.kind = 4 && k / 16 < 256 then d.groupVector (k / 16) else d

/-- Write the records of a queue in order while the ring has room (R559, R560). A write that fails halts the queue (R603); while Bus
Master Enable is 0 the records of a host ring wait (R533). -/
def Dev.recLoop (d : Dev) (k : Nat) : Nat → Dev
  | 0 => d
  | f + 1 =>
    let q := d.queue k
    match q.records with
    | [] => d
    | r :: _ =>
      if q.full then d
      else
        match d.vaWrite 0x3000 (k / 16) (q.cqBase + 64 + 64 * (q.cqPut % q.cqSlots)) { r with ftime := d.time }.bytes false with
        | (d, .ok ..) => Dev.recLoop (d.recWritten k r) k f
        | (d, .wait) => d
        | (d, .fail e) =>
          if e.cause = 0x30 && !(d.func (fnOf (k / 16))).busMaster then d else d.haltQueue k e.cause e.detail 0 0 (q.cqBase + 64 + 64 * (q.cqPut % q.cqSlots)) true

/-- Write the header when it has changed, then raise the queue's vector (R559, R594). -/
def Dev.headerWrite (d : Dev) (k : Nat) : Dev :=
  let q := d.queue k
  let v := q.get % 2 ^ 32 + q.cqPut * 2 ^ 32
  let raise := fun (d : Dev) =>
    if q.vector then
      Dev.msix (d.onQueue k fun q => { q with vector := false }) (fnOf (k / 16)) (if k / 16 = 256 then 16 + k % 16 else k % 16)
    else d
  if v = q.header then raise d
  else
    match d.vaWrite 0x3000 (k / 16) q.cqBase (leBytes 8 v) false with
    | (d, .ok ..) => raise (d.onQueue k fun q => { q with header := v })
    | (d, .wait) => d
    | (d, .fail e) =>
      if e.cause = 0x30 && !(d.func (fnOf (k / 16))).busMaster then d else d.haltQueue k e.cause e.detail 0 0 q.cqBase true

/-- Step 6 for one queue. -/
def Dev.queueRecords (d : Dev) (k : Nat) : Dev :=
  let q := d.queue k
  if q.state = .disabled then d
  else
    let new := sortBy (fun (a b : CRec) => keyLe (a.key q.get) (b.key q.get)) q.fresh
    let d := d.onQueue k fun q => { q with records := q.records ++ new, fresh := [] }
    let d := if (d.queue k).records.isEmpty then d else d.cqGetRead k
    (d.recLoop k ((d.queue k).records.length + 1)).headerWrite k

/-- Step 6 of a tick. -/
def Dev.recordsStep (d : Dev) : Dev := (d.prec.queues.map (·.1)).foldl (fun d k => d.queueRecords k) d

/-! ### Doorbells (R523, R558, R600) -/

/-- Step 1 latches a doorbell: an ENABLED queue takes a legal value as PUT and halts on any other; a HALTED queue keeps it as PUT; a
DISABLED one ignores it. -/
def Dev.doorbellLatch (d : Dev) (k : Nat) : Dev :=
  let q := d.queue k
  match q.latch, q.state with
  | none, _ => d
  | some _, .disabled => d.onQueue k fun q => { q with latch := none }
  | some v, .halted => d.onQueue k fun q => { q with latch := none, put := v }
  | some v, .enabled =>
    let d := d.onQueue k fun q => { q with latch := none }
    if (v + 2 ^ 32 - q.get) % 2 ^ 32 ≤ q.pqSlots then d.onQueue k fun q => { q with put := v }
    else d.haltQueue k 0x32 1 0 0 0 true

/-! ### QUEUE_CTRL (R555, R556, R561) -/

/-- The checks of R555. -/
def Dev.queueConfigOk (d : Dev) (k : Nat) : Bool :=
  let q := d.queue k
  d.ownerLive (k / 16) && q.pqBase % 64 = 0 && q.cqBase % 128 = 0 && d.windowPermits (k / 16) q.pqBase 1 0 &&
    d.windowPermits (k / 16) q.cqBase 1 0 && d.windowPermits (k / 16) q.cqBase 1 1

/-- The header writes of ENABLE, and the state after them; a translation still awaited leaves the queue enabling. -/
def Dev.enableGo (d : Dev) (k : Nat) : WRes :=
  let q := d.queue k
  match d.vaWrite 0x3000 (k / 16) q.cqBase (leBytes 16 0) false with
  | (_, .fail _) => .error stState
  | (d, .wait) => .ok (d.onQueue k fun q => { q with enabling := true })
  | (d, .ok ..) => .ok (d.onQueue k fun q =>
      { q with state := .enabled, get := 0, put := 0, cqPut := 0, cqGet := 0, latch := none, waits := [], fencing := false,
               records := [], fresh := [], header := 0, vector := false, readAhead := [], enabling := false, haltCause := 0 })

/-- ENABLE. -/
def Dev.queueEnable (d : Dev) (k : Nat) : WRes :=
  if (d.queue k).state ≠ .disabled || !d.queueConfigOk k then .error stState else d.enableGo k

/-- An ENABLE that awaited a translation goes on at a tick. -/
def Dev.enableRetry (d : Dev) (k : Nat) : Dev :=
  if !(d.queue k).enabling then d
  else
    match d.enableGo k with
    | .ok d => d
    | .error _ => d.onQueue k fun q => { q with enabling := false }

/-- RESET (R556, R600): GET takes the latched PUT, to which R558 is applied. -/
def Dev.queueReset (d : Dev) (k : Nat) : WRes :=
  let q := d.queue k
  if q.state ≠ .halted then .error stState
  else
    let ok := decide ((q.put + 2 ^ 32 - q.get) % 2 ^ 32 ≤ q.pqSlots)
    let d := d.onQueue k fun q => { q with state := .enabled, readAhead := [], get := if ok then q.put else q.get }
    .ok (if ok then d else d.haltQueue k 0x32 1 0 0 0 true)

/-- DISABLE: records and packets that still wait are discarded. -/
def Dev.queueDisable (d : Dev) (k : Nat) : WRes :=
  if d.prec.graphs.any (fun g => g.owner = k / 16 && g.queue = k % 16) then .error stState
  else .ok (d.onQueue k fun q =>
    { q with state := .disabled, waits := [], fencing := false, records := [], fresh := [], readAhead := [], vector := false,
             enabling := false })

/-- A write of QUEUE_CTRL for a queue. -/
def Dev.queueCtrl (d : Dev) (k v : Nat) : WRes :=
  match v with
  | 0 => d.queueDisable k
  | 1 => d.queueEnable k
  | 2 => d.queueReset k
  | _ => .error stRange

/-! ### The queue timer (R588) -/

/-- A queue's timer has expired: the queue halts, its running tasks time out, its other unretired nodes are cancelled. -/
def Dev.queueExpire (d : Dev) (k : Nat) : Dev :=
  let mine := fun (x : Node) => decide (x.qkey = k) && !x.state.ended
  let d := (d.haltQueue k 7 0 0 0 0 true).oinc O.TIMER_EXPIRIES
  let run := d.prec.nodes.filter fun x => mine x && x.state = .running && x.opc = 1
  let d := run.foldl (fun d x => (d.abortCores x true).nodeFail x 7 0 (if x.restartable then .note else .contained) .none) d
  let rest := d.prec.nodes.filter mine
  let d := rest.foldl (fun d x => d.nodeCancel x) d
  (d.prec.graphs.filter fun g => g.owner = k / 16 && g.queue = k % 16).foldl (fun d g => d.graphCheck g.owner g.queue g.id) d

/-- The timer of a queue is due. -/
def Dev.queueDue (d : Dev) (k : Nat) : Bool :=
  let q := d.queue k
  q.state = .enabled && q.timeout ≠ 0 && d.prec.graphs.any (fun g => g.owner = k / 16 && g.queue = k % 16) &&
    q.lastDone + 1000 * q.timeout ≤ d.time

/-- QUEUE_TIMEOUT: the queue's timer fires when it is due. -/
def execQueueTimeout (owner q : Nat) (s : State) : Host.Outcome State Fault Refusal :=
  s.runIf (owner ≤ 256 && q < 16) fun d => if d.queueDue (16 * owner + q) then d.queueExpire (16 * owner + q) else d

end Sys2Proof.Machine
end

