-- ==== Sys2Proof/Machine/Teardown.lean ====
section
/-! DEFINITION. Machine/Teardown.lean: the containment sequencer: context teardowns, RELEASE and SETUP of tenants, the reset of a
function that waits for a teardown, the end of the kernel context, key slots and LOG_POP (chapters 11 and 14). -/

namespace Sys2Proof.Machine

/-! ### The pieces of a context's end, for a tenant or the kernel (Table 14.7, R538) -/

/-- Step 2: every task of an owner leaves its cores, cleared, without reports or fault records. -/
def Dev.ownerCores (d : Dev) (o : Nat) : Dev :=
  (d.nave.cores.map (·.1)).foldl (fun d n =>
    let held := (d.core n).next.filter fun t => t.owner = o
    let run := (d.core n).task.filter fun t => t.owner = o
    let d := (held.toList ++ run.toList).foldl Dev.groupsFree d
    let d := if held.isSome then d.onCore n fun c => { c with next := none } else d
    match run with
    | some t => (d.coreDiscard n t).wake n
    | none => d) d

/-- Step 4: fault records that wait are discarded, and those in the ring are skipped from now on (R500). -/
def Dev.ownerFaults (d : Dev) (o : Nat) : Dev :=
  { d with tr := { d.tr with waiting := d.tr.waiting.filter fun r => r.owner ≠ o,
                             tracks := d.tr.tracks.filter fun t => t.rcd.owner ≠ o } }

/-- Step 5: the owner's cached translations go. -/
def Dev.ownerTlb (d : Dev) (o : Nat) : Dev := d.tlbRemove (fun e => e.owner = o) fun e => e.owner = o

/-- Step 7: descriptors, nodes and graphs of the owner are freed, its deficits are 0. -/
def Dev.ownerNodes (d : Dev) (o : Nat) : Dev :=
  let d := { d with prec := { d.prec with descState := d.prec.descState.filter fun e => e.1 / 4096 ≠ o,
                                          nodes := d.prec.nodes.filter fun x => x.owner ≠ o,
                                          graphs := d.prec.graphs.filter fun g => g.owner ≠ o } }
  d.ownerDeficits o

/-- A queue becomes DISABLED; its ring fields and indices keep their values. -/
def Queue.off (q : Queue) : Queue :=
  { q with state := .disabled, latch := none, waits := [], fencing := false, records := [], fresh := [], vector := false,
           readAhead := [], enabling := false }

/-- Every queue of an owner becomes DISABLED. -/
def Dev.ownerQueues (d : Dev) (o : Nat) : Dev := (rangeFrom (16 * o) 16).foldl (fun d k => d.onQueue k Queue.off) d

/-! ### Asking for a teardown (R670, R677, R694) -/

/-- A CONTEXT_KILL, a RELEASE or an FLR asks for the teardown of a tenant: it joins the one that runs or waits. -/
def Dev.teardownAsk (d : Dev) (t reason : Nat) (release flr : Bool) : Dev :=
  let td := fun (x : Teardown) => if x.tenant = t then { x with release := x.release || release, flr := x.flr || flr } else x
  let hd := fun (x : Handling) => if x.tenant = t then { x with release := x.release || release, flr := x.flr || flr } else x
  if d.logs.teardowns.any (fun x => x.tenant = t) then { d with logs := { d.logs with teardowns := d.logs.teardowns.map td } }
  else if d.logs.queue.any (fun x => x.tenant = t) then { d with logs := { d.logs with queue := d.logs.queue.map hd } }
  else { d with logs := { d.logs with queue := d.logs.queue ++ [Handling.mk .contained t 0 0 reason release flr] } }

/-- Step 1 of a teardown. A watch that fires in the same tick is discarded (R981). The owner's queues receive no record but the HALT
record of step 8 (R601) and those of tasks whose completion in this tick wins (R696). -/
def Dev.teardownStart (d : Dev) (h : Handling) : Dev :=
  let t := h.tenant
  let d := ((d.oset (O.TENANT_STATE t) 2).oinc O.TEARDOWNS).oinc (O.TENANT_TEARDOWNS t)
  let d := d.oset (O.LAST_TEARDOWN t) (h.cause * 256 + h.detail)
  let d := { d with
    logs := { d.logs with teardowns := d.logs.teardowns ++ [Teardown.mk t 2 h.cause h.detail h.reason h.release h.flr] },
    clr := { d.clr with captures := d.clr.captures.filter fun c => !(c.watch.owner = t && c.time = d.time && !c.started) } }
  let retired := fun (r : CRec) => (r.kind = 1 || r.kind = 2) && r.cause = 0 && r.aux = 0
  let d := (rangeFrom (16 * t) 16).foldl (fun (d : Dev) k => d.onQueue k fun q =>
    { q with records := [], fresh := q.fresh.filter retired }) d
  (d.msix (t + 1) 17).groupVector t

/-- The sequencer starts at most one teardown in a tick, in arrival order; none in DEVICE_FAILED (R670, R672). -/
def Dev.teardownNext (d : Dev) : Dev :=
  if d.failed then d
  else
    match d.logs.queue with
    | [] => d
    | h :: hs => Dev.teardownStart { d with logs := { d.logs with queue := hs } } h

/-! ### HALT records of step 8 (R679) -/

/-- The HALT record of a teardown goes to one queue, or is lost. -/
def Dev.haltRecord (d : Dev) (k : Nat) (x : Teardown) : Dev :=
  let d := d.cqGetRead k
  let q := d.queue k
  if q.state ≠ .enabled then d
  else if q.full || !q.records.isEmpty then d.oinc O.HALT_RECORDS_LOST
  else
    let r := { CRec.zero with packet := q.get, aux := x.reason, cause := x.cause, detail := x.detail, kind := 4, irq := true, ftime := d.time }
    match d.vaWrite 0x3000 (k / 16) (q.cqBase + 64 + 64 * (q.cqPut % q.cqSlots)) r.bytes false with
    | (d, .ok ..) => (d.recWritten k r).headerWrite k
    | (d, _) => d.oinc O.HALT_RECORDS_LOST

/-! ### The end of a function reset (Table 11.12 steps 4 to 6, R537) -/

/-- Pending ATS invalidations of a function complete (Table 11.12 step 4), and its configuration registers, AER registers, MSI-X table and
dictionary port state return to reset; nothing it sent is awaited. -/
def Dev.funcReset (d : Dev) (fn : Nat) : Dev :=
  let d := (d.host.atsInvs.filter fun a => a.fn = fn).foldl (fun d a => d.emit (.invDone fn a.tag)) d
  let d := d.setFunc fn { Func.reset with inFlr := (d.func fn).inFlr }
  { d with
    host := { d.host with reads := mapIf (fun r => r.fn = fn) (fun r => { r with abandoned := true }) (d.host.reads.filter fun r => r.fn ≠ fn || r.sent), held := d.host.held.filter fun w => w.fn ≠ fn,
                          atsInvs := d.host.atsInvs.filter fun a => a.fn ≠ fn, aer := d.host.aer.filter fun e => e.1 ≠ fn,
                          headers := d.host.headers.filter fun h => h.fn ≠ fn,
                          atsSent := d.host.atsSent.filter fun a => a.1 ≠ fn, atsReplies := d.host.atsReplies.filter fun a => a.1 ≠ fn },
    dict := { d.dict with ports := mdel d.dict.ports fn, sels := mdel d.dict.sels fn } }

/-- The FLR of a VF ends: its ATC entries are gone, it accepts requests again, and the group's vector is raised. -/
def Dev.flrEnd (d : Dev) (t : Nat) : Dev :=
  let d := d.tlbRemove (fun e => e.owner = t && e.span ≠ 0) fun _ => false
  let d := d.funcReset (t + 1)
  (d.setFunc (t + 1) { d.func (t + 1) with inFlr := false }).groupVector t

/-- A PF FLR ends when no teardown it asked for is left: the PF's own configuration is reset. -/
def Dev.pfFlrEnd (d : Dev) : Dev :=
  if !(d.func 0).inFlr || d.logs.teardowns.any (·.flr) || d.logs.queue.any (·.flr) then d
  else
    let d := d.funcReset 0
    let d := d.setFunc 0 { d.func 0 with inFlr := false }
    { d with host := { d.host with d3hot := false, numVfs := 0, mps := 128, mrrs := 512, aspmL1 := false, margins := [] } }

/-! ### RELEASE and SETUP (R649, R650) -/

/-- L2 lines of an owner are written back and invalidated (Table 7.7). -/
def Dev.ownerLines (d : Dev) (o : Nat) : Dev := d.l2Maint ⟨1, 1, o, 0, 0, 0⟩

/-- Key slot `s` holds keys, or holds none (KEY_SLOTS_LOADED). -/
def Dev.keyLoadedBit (d : Dev) (s : Nat) (on : Bool) : Dev :=
  let k := O.KEY_SLOTS_LOADED (s / 8)
  d.oset k (setBits (d.oget k) (s % 8) 1 (b2n on))

/-- Draw fresh keys into a slot (R661). -/
def Dev.keyDrawNew (d : Dev) (s : Nat) : Dev :=
  Dev.keyLoadedBit { d with logs := { d.logs with keyGen := mset d.logs.keyGen s d.logs.nextKey, nextKey := d.logs.nextKey + 1,
                                                  badSlots := d.logs.badSlots.filter (· ≠ s) } } s true

/-- The four actions of a RELEASE after its teardown. -/
def Dev.releaseEnd (d : Dev) (t : Nat) : Dev :=
  let d := { d with tr := { d.tr with wins := d.tr.wins.filter fun e => e.1 / 64 ≠ t,
                                      newWins := d.tr.newWins.filter fun w => w.key / 64 ≠ t } }
  let d := (d.ownerTlb t).ownerLines t
  let d := Dev.keyLoadedBit { d with logs := { d.logs with keyGen := mdel d.logs.keyGen t } } t false
  ((d.oset (O.TENANT_STATE t) 0).oset O.TENANTS_ACTIVE (d.oget O.TENANTS_ACTIVE - 1)).auditAll

/-- A table of `n` bytes at a DPA lies wholly in device memory. -/
def Dev.inMemory (d : Dev) (x n : Nat) : Bool := (d.homeDie x).isSome && d.homeDie x = d.homeDie (x + n - 1)

/-- SETUP of a tenant: the device after it, or the detail of its refusal (Table 14.10). -/
def Dev.tenantSetup (d : Dev) (t root desc quota : Nat) : Except Nat Dev :=
  if d.oget (O.TENANT_STATE t) ≠ 0 then .error 1
  else if root % 32768 ≠ 0 || !d.inMemory root 32768 then .error 2
  else if desc % 524288 ≠ 0 || !d.inMemory desc 524288 then .error 3
  else
    let d := d.oset (O.PT_ROOT t) root
    let d := { d with
      prec := { d.prec with descTable := mset d.prec.descTable t desc, quota := mset d.prec.quota t quota,
                            descState := d.prec.descState.filter fun e => e.1 / 4096 ≠ t },
      fab := { d.fab with opseq := d.fab.opseq.filter fun e => e.1 / 65536 ≠ t },
      logs := { d.logs with logs := dset ErrLog.empty d.logs.logs t { d.errLog t with entries := [], overflow := 0 } } }
    let d := (d.ownerAccounts t).keyDrawNew t
    .ok ((d.oset (O.TENANT_STATE t) 1).oset O.TENANTS_ACTIVE (d.oget O.TENANTS_ACTIVE + 1))

/-! ### The steps of Table 14.7 -/

/-- Packets that wait for the end of a tenant's teardown complete (R569). -/
def Dev.killsDone (d : Dev) (t : Nat) (release : Bool) : Dev :=
  d.prec.queues.foldl (fun d e =>
    (e.2.waits.filter fun w => (w.opc = 0x82 || (w.opc = 0x86 && release)) && w.arg = t).foldl
      (fun d w => d.completePacket e.1 w 0 0 0 0) d) d

/-- Step 9: ACTIVE, or the rest of RELEASE; then the FLR that waits goes on. -/
def Dev.teardownEnd (d : Dev) (x : Teardown) : Dev :=
  let t := x.tenant
  let d := { d with logs := { d.logs with teardowns := d.logs.teardowns.filter fun y => y.tenant ≠ t } }
  let d := if x.release then d.releaseEnd t else d.oset (O.TENANT_STATE t) 1
  let d := ((d.msix (t + 1) 17).groupVector t).killsDone t x.release
  if x.flr then (d.flrEnd t).pfFlrEnd else d

/-- The next step of the teardown of a tenant. -/
def Dev.teardownStep (d : Dev) (t : Nat) : Dev :=
  match d.logs.teardowns.find? fun x => x.tenant = t with
  | none => d
  | some x =>
    let up := fun (y : Teardown) => if y.tenant = t then { y with step := x.step + 1 } else y
    let next := fun (d : Dev) => { d with logs := { d.logs with teardowns := d.logs.teardowns.map up } }
    match x.step with
    | 2 => next (d.ownerCores t)
    | 3 => next (d.opsTeardown t)
    | 4 => next (d.ownerFaults t)
    | 5 => next (d.ownerTlb t)
    | 6 => next (d.watchesDrop t)
    | 7 => next (d.ownerNodes t)
    | 8 => next (((rangeFrom (16 * t) 16).foldl (fun d k => d.haltRecord k x) d).ownerQueues t)
    | _ => d.teardownEnd x

/-- CONTEXT_TEARDOWN: the teardown of a tenant takes its next steps; it stands where it is in DEVICE_FAILED (R672). -/
def Dev.teardownRun (d : Dev) (t : Nat) : Nat → Dev
  | 0 => d
  | n + 1 => if d.failed then d else Dev.teardownRun (d.teardownStep t) t n

/-! ### The kernel context (R538) -/

/-- The kernel context ends as a PF FLR states. -/
def Dev.kernelEnd (d : Dev) : Dev :=
  let d := ((((((d.ownerCores 256).opsTeardown 256).ownerFaults 256).ownerTlb 256).watchesDrop 256).ownerNodes 256).ownerQueues 256
  let d := if d.oget O.FAULT_RING_SPACE = 0 then ((d.oset O.FAULT_RING_BASE 0).oset O.FAULT_PUT 0).oset O.FAULT_GET 0 else d
  if d.oget O.CLR_RING_SPACE = 0 then d.oset O.CLR_RING_BASE 0 else d

/-! ### Key slots and logs -/

/-- A key slot fails its check (R700). -/
def Dev.keySlotFail (d : Dev) (s : Nat) : Dev :=
  if d.keyDraw s = 0 || d.logs.badSlots.contains s then d
  else
    let d := { d with logs := { d.logs with badSlots := s :: d.logs.badSlots } }
    d.raise { cause := 0x36, sev := if s = 256 then .device else .contained, owner := s, eng := 0x9000 }

/-- A write of `n` to LOG_POP removes the `n` oldest entries of a log; one that empties the log clears its overflow (R667). -/
def Dev.logPop (d : Dev) (i n : Nat) : WRes :=
  if n = 0 || 16 < n then .error stRange
  else
    let l := d.errLog i
    let es := l.entries.drop n
    let l := { l with entries := es, overflow := if es.isEmpty then 0 else l.overflow }
    .ok { d with logs := { d.logs with logs := dset ErrLog.empty d.logs.logs i l } }

/-! ### Commands -/

/-- CONTEXT_TEARDOWN: the next `steps` steps of Table 14.7 for a tenant whose teardown runs. -/
def execContextTeardown (tenant steps : Nat) (s : State) : Host.Outcome State Fault Refusal :=
  s.runIf (tenant < 256) fun d => d.teardownRun tenant (min steps 8)

/-- KEY_SLOT_FAILURE. -/
def execKeySlotFailure (slot : Nat) (s : State) : Host.Outcome State Fault Refusal := s.runIf (slot ≤ 256) fun d => d.keySlotFail slot

end Sys2Proof.Machine
end

