-- ==== Sys2Proof/Machine/Power.lean ====
section
/-! DEFINITION. Machine/Power.lean: power domains, clocks and voltages, the adaptive loops with their bounds and safety limits, power
estimation, throttling and the thermal trip (chapter 19). -/

namespace Sys2Proof.Machine

/-- Change the state of the power controller. -/
def Dev.onPower (d : Dev) (f : Power → Power) : Dev := { d with power := f d.power }

/-- ENGINE of power management for a domain or octant (Table 14.6). -/
def powerEng (i : Nat) : Nat := 0x9000 + i

/-- State of a domain, coded as PD_STATE. -/
def Dev.pd (d : Dev) (x : Nat) : Nat := d.oget (O.PD_STATE x)

/-- Set the state of a domain. -/
def Dev.pdSet (d : Dev) (x v : Nat) : Dev := d.oset (O.PD_STATE x) v

/-- The domain a domain depends on (Table 19.1). -/
def pdNeeds (x : Nat) : Nat :=
  if x < 4 then 0 else if x < 8 || x = 12 || x = 14 then 2 else 3

/-- The domain is an octant's. -/
def isOct (x : Nat) : Bool := 4 ≤ x && x < 12

/-! ### POLICY_CLAMPED (R905 to R909) -/

/-- Show the clamps in CLAMP_ACTIVE and POLICY_CLAMP_LOG. -/
def Dev.clampShow (d : Dev) : Dev :=
  let m := (rangeFrom 1 7).foldl (fun m b => m + b2n (d.power.clamps.any fun c => c / 256 % 256 = b) * 2 ^ (b - 1)) 0
  let d := d.oset O.CLAMP_ACTIVE m
  (rangeFrom 0 16).foldl (fun d i => d.oset (O.POLICY_CLAMP_LOG i) (at0 d.power.records i)) d

/-- A contradiction between a software bound and a safety limit (R905): recorded once while its clamp is active (R906). -/
def Dev.policyClamp (d : Dev) (loop inst bound limit software safety : Nat) : Dev :=
  let k := loop * 65536 + bound * 256 + inst
  if d.power.clamps.contains k then d
  else
    let r := loop + inst * 2 ^ 8 + bound * 2 ^ 16 + limit * 2 ^ 24 + software % 2 ^ 16 * 2 ^ 32 + safety % 2 ^ 16 * 2 ^ 48 +
      d.time % 2 ^ 64 * 2 ^ 64
    let rs := d.power.records ++ [r]
    let d := (d.onPower fun p => { p with clamps := k :: p.clamps, records := rs.drop (rs.length - 16) }).clampShow
    ((d.oinc O.POLICY_CLAMPS).msix 0 3).notify ⟨3, 0, 0, 0, 0x2111, 0⟩

/-- A write of a bound ends its clamps (R906): the clamps that `p` names. -/
def Dev.clampEnd (d : Dev) (p : Nat → Bool) : Dev :=
  (d.onPower fun s => { s with clamps := s.clamps.filter fun c => !p c }).clampShow

/-! ### Consequences of a domain that has failed or is off (Table 19.8, R924 to R926) -/

/-- The memory of a die loses its contents. -/
def Dev.memoryLost (d : Dev) (die : Nat) : Dev :=
  let mine := fun (a : Nat) => decide (a / southBase = die)
  { d with mem := { d.mem with cells := mkeep (fun a => !mine a) d.mem.cells, poison := mkeep (fun s => !mine (32 * s)) d.mem.poison,
                               raw := mkeep (fun s => !mine (32 * s)) d.mem.raw,
                               keyOf := mkeep (fun s => !mine (32 * s)) d.mem.keyOf } }

/-- The L2 lines of a die are invalid. -/
def Dev.linesLost (d : Dev) (die : Nat) : Dev :=
  { d with l2 := { d.l2 with lines := mkeep (fun a => sliceOf a / 48 ≠ die) d.l2.lines,
                             dets := mkeep (fun s => s / 48 ≠ die) d.l2.dets } }

/-- Every core of an octant is as after a wake, with a state of Table 2.10; the spare columns that steering has used stay used (R104). -/
def Dev.octClear (d : Dev) (k st : Nat) : Dev :=
  (rangeFrom (32 * k) 32).foldl (fun d n =>
    let d := ((d.core n).task.toList ++ (d.core n).next.toList).foldl Dev.groupsFree d
    ((d.onCore n fun c => { Core.reset with state := st, steer := c.steer, spareUse := c.spareUse }).l1Forget n fun _ => true).readsAbandon n) d

/-- The running tasks that hold a core of an octant, each once. -/
def Dev.octTasks (d : Dev) (k : Nat) : List Node :=
  let ts := (rangeFrom (32 * k) 32).flatMap fun n => (d.core n).task.toList ++ (d.core n).next.toList
  d.prec.nodes.filter fun x => x.state = .running && ts.any fun t => t.order = x.order && t.dispatch = x.dispatches

/-- The cores of an octant are OFFLINE: its domain failed and has not been woken since (R106). -/
def Dev.octOffline (d : Dev) (k : Nat) : Bool := (d.core (32 * k)).state = 4

/-- The switches of a domain open: what it holds is lost. -/
def Dev.pdCut (d : Dev) (x st : Nat) : Dev :=
  let d := d.pdSet x st
  let d := d.onPower fun p => { p with tries := mdel p.tries x, retryAt := mdel p.retryAt x, refreshed := p.refreshed.filter (· ≠ x) }
  if isOct x then
    let k := x - 4
    ((d.octClear k (if st = 5 || d.octOffline k then 4 else 0)).oset (O.OCT_CLOCK k) 0).oset (O.OCT_VOLT k) 0
  else if x = 2 || x = 3 then d.linesLost (x - 2)
  else if x = 12 || x = 13 then d.linksPower (x - 12)
  else if 14 ≤ x then d.memoryLost (x - 14)
  else d

/-- A domain goes OFF with no flush; a FAILED one stays FAILED (R924). -/
def Dev.pdCutOff (d : Dev) (x : Nat) : Dev := if d.pd x = 5 then d else d.pdCut x 0

/-- A domain becomes FAILED for ERR_WAKE or ERR_POWER_FAULT. -/
def Dev.pdFail (d : Dev) (x cause : Nat) : Dev :=
  let sev : Sev := if x < 4 then .device else .note
  let d := if isOct x then
      (d.octTasks (x - 4)).foldl (fun d y =>
        if y.restartable then d.nodeRequeue y
        else (d.abortCores y false).nodeFail y cause 0 .contained .none) d
    else d
  let d := d.pdCut x 5
  let d := if x = 2 || x = 3 then
      ((rangeFrom 4 12).filter fun y => pdNeeds y = x).foldl Dev.pdCutOff d
    else if 14 ≤ x then (rangeFrom (16 * (x - 14)) 16).foldl (fun d g => d.oset (O.MEM_GROUP_STATE g) 2) d
    else if x = 0 then { d with boot := { d.boot with inReset := true, stuck := true } }
    else d
  let d := if isOct x then d.auditAll else d
  let d := (d.raise { cause := cause, sev := sev, eng := powerEng x }).msix 0 3
  if cause = 0x10 then d.notify ⟨8, 0x10, 0, sev.code, 0x2000, x⟩ else d

/-! ### PD_CTRL (R886, R889) -/

/-- Every request accepted for the memory of a die completes (R889). -/
def Dev.memFinish (d : Dev) (die : Nat) : Dev := d.l2Finish fun a => 128 * a / southBase = die

/-- A domain asked to sleep has finished its work, and its switches open (R889). -/
def Dev.pdStop (d : Dev) (x : Nat) : Dev :=
  if d.pd x ≠ 4 then d
  else if isOct x then
    if (rangeFrom (32 * (x - 4)) 32).all (fun n => (d.core n).task.isNone && (d.core n).next.isNone) then d.pdCut x 0 else d
  else if x = 2 || x = 3 then
    let d := d.l2Finish fun a => sliceOf a / 48 = x - 2
    ((d.l2.lines.filter fun e => sliceOf e.1 / 48 = x - 2).foldl (fun d e => d.l2Evict e.1 true) d).pdCut x 0
  else if 14 ≤ x then (d.memFinish (x - 14)).pdCut x 0
  else d.pdCut x 0

/-- The OFF request of a domain is refused. -/
def Dev.pdOffRefused (d : Dev) (x : Nat) : Bool :=
  (rangeFrom 2 14).any (fun y => pdNeeds y = x && d.pd y ≠ 0) ||
  (isOct x && (rangeFrom 0 16).any fun c => bits (d.qtrs c) (2 * (x - 4)) 2 ≠ 0) ||
  (decide (14 ≤ x) && (rangeFrom (16 * (x - 14)) 16).any fun g => d.oget (O.MEM_GROUP_STATE g) = 0)

/-- Request ON. -/
def Dev.pdOn (d : Dev) (x : Nat) : WRes :=
  if d.pd (pdNeeds x) ≠ 2 then .error stState
  else
    match d.pd x with
    | 0 => .ok (d.pdSet x 1)
    | 5 => .ok ((d.pdSet x 1).onPower fun p => { p with tries := mdel p.tries x })
    | 3 => .ok (if isOct x then d.unpark (x - 4) else (d.pdSet x 1).onPower fun p => { p with refreshed := x :: p.refreshed })
    | _ => .ok d

/-- Request OFF; a FAILED domain stays FAILED (R924). -/
def Dev.pdOff (d : Dev) (x : Nat) : WRes :=
  if d.pdOffRefused x then .error stState
  else if d.pd x = 5 then .ok d
  else if d.pd x = 0 then .ok (d.onPower fun p => { p with tries := mdel p.tries x, retryAt := mdel p.retryAt x })
  else .ok ((d.pdSet x 4).pdStop x)

/-- A write of PD_CTRL. -/
def Dev.pdCtrl (d : Dev) (x v : Nat) : WRes :=
  if x < 2 || 15 < x then .error stState
  else
    match v with
    | 0 => d.pdOff x
    | 1 => d.pdOn x
    | 2 => if 14 ≤ x && d.pd x = 2 then .ok ((d.memFinish (x - 14)).pdSet x 3) else .error stState
    | _ => .error stRange

/-! ### Wake (R888, Table 19.2) -/

/-- Training of a channel as its domain wakes (R723, R724): its memory is zero, its erasures are gone. -/
def Dev.channelTrain (d : Dev) (ch : Nat) (t : Training) : Dev :=
  let bad := t.failed.contains ch || t.badStacks.contains (ch / 32)
  let d := { d with mem := { d.mem with erasures := mdel d.mem.erasures ch, trackers := mdel d.mem.trackers ch,
                                        parityFails := mdel d.mem.parityFails ch } }
  let d := d.oset (O.COLUMN_ERASURES ch) 0
  if bad then d.channelFail ch else d.oset (O.CHANNEL_STATE ch) (if t.repaired.contains ch then 1 else 0)

/-- Training of a memory domain. -/
def Dev.memTrain (d : Dev) (die : Nat) (t : Training) : Dev :=
  let d := (d.memoryLost die).oset O.TRAIN_TIME (t.us % 2 ^ 32)
  let d := (rangeFrom (16 * die) 16).foldl (fun d g => if d.oget (O.MEM_GROUP_STATE g) = 2 then d.oset (O.MEM_GROUP_STATE g) 0 else d) d
  (rangeFrom (128 * die) 128).foldl (fun d ch => d.channelTrain ch t) d

/-- Step 5 and step 6 of a wake. -/
def Dev.pdInit (d : Dev) (x : Nat) (t : Training) : Dev :=
  let kept := d.power.refreshed.contains x
  let d := (d.pdSet x 2).oinc (O.PD_WAKES x)
  let d := d.onPower fun p =>
    { p with tries := mdel p.tries x, retryAt := mdel p.retryAt x, refreshed := p.refreshed.filter (· ≠ x),
             calibrated := if kept then p.calibrated else mset p.calibrated x d.time, countFrom := mset p.countFrom x d.time,
             busyAt := if isOct x then mset p.busyAt (x - 4) d.time else p.busyAt }
  if isOct x then
    let k := x - 4
    (((d.octClear k 0).oset (O.OCT_CLOCK k) 400).oset (O.OCT_VOLT k) (max 700 (d.vsafe k 400))).auditAll
  else if x = 2 || x = 3 then d.linesLost (x - 2)
  else if x = 12 || x = 13 then d.linksPower (x - 12)
  else if 14 ≤ x then (if kept then d else d.memTrain (x - 14) t)
  else d

/-- DOMAIN_WAKE: the outcome of a wake attempt. The third that fails makes the domain FAILED (R924); after another, the next attempt
comes in 1 ms. -/
def Dev.domainWake (d : Dev) (x : Nat) (ok : Bool) (t : Training) : Dev :=
  if d.pd x ≠ 1 then d
  else if d.pd (pdNeeds x) ≠ 2 then d.pdCut x 0
  else if ok then d.pdInit x t
  else
    let d := d.oinc (O.PD_WAKE_FAILS x)
    let n := dget 0 d.power.tries x + 1
    if 3 ≤ n then d.pdFail x 0x10
    else (d.pdCut x 0).onPower fun p => { p with tries := mset p.tries x n, retryAt := mset p.retryAt x (d.time + 1000000) }

/-- WAKE_RETRY: a wake runs again 1 ms after the attempt that failed. -/
def Dev.wakeRetry (d : Dev) (x : Nat) : Dev :=
  match mget d.power.retryAt x with
  | some t => if t ≤ d.time && d.pd x = 0 then (d.pdSet x 1).onPower fun p => { p with retryAt := mdel p.retryAt x } else d
  | none => d

/-- POWER_FAULT: a running domain loses power-good or PLL lock (R925). -/
def Dev.powerFault (d : Dev) (x : Nat) : Dev := if d.pd x = 2 || d.pd x = 3 then d.pdFail x 0x3F else d

/-! ### The clock of an octant (R892 to R897, R899 to R901) -/

/-- Some core of the octant holds a task. -/
def Dev.octBusy (d : Dev) (k : Nat) : Bool :=
  d.nave.cores.any fun e => octOfCore e.1 = k && (e.2.task.isSome || e.2.next.isSome)

/-- A task with a gang of 64 holds the loft of an octant (R896). -/
def Dev.loftGang (d : Dev) (k : Nat) : Bool :=
  d.nave.cores.any fun e => e.1 / 64 = k / 2 && (e.2.task.map (·.gang)) = some 64

/-- The floor, ceiling and wanted frequency of R894 before sprint and limits. -/
structure ClockBounds where
  floor : Nat
  ceil : Nat
  want : Nat
  deriving DecidableEq, Repr

/-- The URGENT floor requested of an octant. -/
def Dev.urgentFloor (d : Dev) (k : Nat) : Nat := dget 0 d.prec.urgent k

/-- The software bounds of an octant's clock. -/
def Dev.clockBounds (d : Dev) (k : Nat) : ClockBounds :=
  let pin := d.oget (O.OCT_CLOCK_PIN k)
  let ceil := if pin ≠ 0 then pin else d.oget (O.OCT_CLOCK_CEILING k)
  let floor := min (max (max (d.oget (O.OCT_CLOCK_FLOOR k)) (d.urgentFloor k)) pin) ceil
  ⟨floor, ceil, if d.octBusy k then d.oget (O.OCT_CLOCK_TARGET k) else 400⟩

/-- The highest frequency whose VSAFE a frozen voltage meets (R907). -/
def Dev.frozenCeiling (d : Dev) (k : Nat) : Nat :=
  if d.oget (O.VOLT_FREEZE k) = 0 then 1250
  else ((rangeFrom 16 35).map (25 * ·)).foldl (fun m f => if d.vsafe k f ≤ d.oget (O.OCT_VOLT k) then f else m) 400

/-- The throttle and current ceilings. -/
def Dev.throttleCeiling (d : Dev) (k : Nat) : Nat := dget 1250 d.power.throttle k
/-- The ceiling of the rail current limit. -/
def Dev.currentCeiling (d : Dev) (k : Nat) : Nat := dget 1250 d.power.current k

/-- The safe ceiling of an octant. -/
def Dev.safeCeiling (d : Dev) (k : Nat) : Nat := min (min (d.throttleCeiling k) (d.currentCeiling k)) (d.frozenCeiling k)

/-- LIMIT of a clamp of a bound above the safe ceiling: the junction or current ceiling that fell first among those below the bound
(R920), otherwise the frozen voltage. -/
def Dev.clampLimit (d : Dev) (k bound : Nat) : Nat :=
  let j := d.throttleCeiling k < bound
  let c := d.currentCeiling k < bound
  if j && (!c || dget 0 d.power.throttleFrom k ≤ dget 0 d.power.currentFrom k) then 2 else if c then 3 else 1

/-- Record the floors and pins of an octant that lie above its safe ceiling (R905). -/
def Dev.clockClamps (d : Dev) (k : Nat) : Dev :=
  let safe := d.safeCeiling k
  let one := fun (d : Dev) (bound v : Nat) => if safe < v then d.policyClamp 2 k bound (d.clampLimit k v) v safe else d
  one (one (one d 1 (d.oget (O.OCT_CLOCK_FLOOR k))) 2 (d.oget (O.OCT_CLOCK_PIN k))) 3 (d.urgentFloor k)

/-- The step of sprint and of the power and temperature limits, at most once in 100 µs (R900, R901). -/
def Dev.clockAdjust (d : Dev) (k : Nat) : Dev :=
  match mget d.power.adjustAt k with
  | some t => if d.time < t + 100000 then d else go
  | none => go
where
  go : Dev :=
    let b := d.clockBounds k
    let a := dget (0 : Int) d.power.adjust k
    let limit := d.oget O.PKG_POWER_LIMIT
    let power := d.oget O.PKG_POWER
    let too := decide (limit < power) || decide ((4 * d.oget O.TJ_TARGET : Nat) ≤ toSigned 16 (d.oget (O.OCT_TEMP k)))
    let sprint := d.oget O.SPRINT_ENABLE = 1 && decide (power < limit - d.oget O.SPRINT_HEADROOM)
    let want : Int := b.want
    let next : Int := if !d.octBusy k then 0
      else if too then max (a - 25) (min 0 ((b.floor : Int) - want))
      else if sprint then min (a + 25) (max 0 ((b.ceil : Int) - want))
      else if 0 < a then a - 25
      else if a < 0 then a + 25
      else 0
    d.onPower fun p => { p with adjust := dset 0 p.adjust k next, adjustAt := mset p.adjustAt k d.time }

/-- The frequency the loop chooses for an octant (R894). -/
def Dev.clockChoice (d : Dev) (k : Nat) : Nat :=
  let b := d.clockBounds k
  let want := ((b.want : Int) + dget (0 : Int) d.power.adjust k).toNat
  min (max b.floor (min want b.ceil)) (d.safeCeiling k)

/-- Every busy octant runs at its floor. -/
def Dev.allAtFloor (d : Dev) : Bool :=
  (rangeFrom 0 8).all fun k => !d.octBusy k || decide (d.oget (O.OCT_CLOCK k) ≤ (d.clockBounds k).floor)

/-- Count a power limit that cannot be met, at most once in 100 µs (R901). -/
def Dev.limitMisses (d : Dev) : Dev :=
  if d.time < d.power.missAt + 100000 then d
  else
    let miss := decide (d.oget O.PKG_POWER_LIMIT < d.oget O.PKG_POWER) && d.allAtFloor
    let d := d.onPower fun p => { p with missAt := d.time }
    if miss then d.oinc O.POWER_LIMIT_MISSES else d

/-- An octant takes a frequency: the voltage rises first (R895). -/
def Dev.clockSet (d : Dev) (k f : Nat) : Dev :=
  (d.oset (O.OCT_VOLT k) (max (d.oget (O.OCT_VOLT k)) (d.vsafe k f))).oset (O.OCT_CLOCK k) f

/-- CLOCK_LOOP for an octant that is ON; a gang of 64 pairs the octants of its loft (R896, R923). -/
def Dev.clockLoop (d : Dev) (k : Nat) : Dev :=
  if d.pd (octDomain k) ≠ 2 then d
  else
    let d := ((d.clockAdjust k).limitMisses).clockClamps k
    let f := d.clockChoice k
    let m := if k % 2 = 0 then k + 1 else k - 1
    if d.loftGang k && d.pd (octDomain m) = 2 then
      let f := min f (d.clockChoice m)
      (d.clockSet k f).clockSet m f
    else d.clockSet k f

/-- A ceiling of an octant, listed only below the maximum. -/
def ceilSet (m : List (Nat × Nat)) (k v : Nat) : List (Nat × Nat) := dset 1250 m k (min 1250 (max 400 v))

/-- CURRENT_LIMIT: a reading of an octant's rail current that has held for 1 µs (R899). -/
def Dev.currentLimit (d : Dev) (k amps : Nat) : Dev :=
  let c := d.currentCeiling k
  let last := dget 0 d.power.currentAt k
  let held := d.power.overload.contains k
  if 180 < amps || (held && 171 ≤ amps) then
    if held && d.time < last + 1000 then d
    else
      d.onPower fun p =>
        { p with current := ceilSet p.current k (min c (d.oget (O.OCT_CLOCK k)) - 25), currentAt := mset p.currentAt k d.time,
                 currentFrom := if c = 1250 then mset p.currentFrom k d.time else p.currentFrom,
                 overload := if held then p.overload else k :: p.overload }
  else if held then d.onPower fun p => { p with overload := p.overload.filter (· ≠ k), currentAt := mset p.currentAt k d.time }
  else if c < 1250 && last + 1000000 ≤ d.time then
    d.onPower fun p => { p with current := ceilSet p.current k (c + 25), currentAt := mset p.currentAt k d.time }
  else d

/-! ### Voltage and droop (R893, R898, R902, R907, R1027) -/

/-- VOLTAGE_LOOP: the raise of the aging offset that awaits it, a freeze that the monitor margin breaks, then one step of 5 mV. -/
def Dev.voltageLoop (d : Dev) (k : Nat) (margin : Int) : Dev :=
  if d.pd (octDomain k) ≠ 2 then d
  else
    let volt := O.OCT_VOLT k
    let d := d.onPower fun p => { p with margin := dset 0 p.margin k margin }
    let d := match mget d.life.pendingRaise k with
      | some v =>
        let inc := v - dget 0 d.life.effective k
        { d.oadd volt inc with life := { d.life with pendingRaise := mdel d.life.pendingRaise k, effective := dset 0 d.life.effective k v } }
      | none => d
    let d := if d.oget (O.VOLT_FREEZE k) = 1 && margin < 5 then
        (d.oset (O.VOLT_FREEZE k) 0).policyClamp 1 k 7 6 1 (ofSigned 16 margin)
      else d
    if d.oget (O.VOLT_FREEZE k) = 1 then d
    else
      let v := d.oget volt
      let safe := d.vsafe k (d.oget (O.OCT_CLOCK k))
      let ceil := d.oget O.VOLT_CEILING
      let boost := d.power.boost.contains k && d.oget O.DROOP_FREEZE = 0
      let target : Int := d.oget O.VOLT_MARGIN
      let step := if boost || margin < target then v + 5 else if target < margin then v - 5 else v
      let d := d.onPower fun p => { p with boost := if boost then p.boost.filter (· ≠ k) else p.boost }
      let d := if ceil < safe then d.policyClamp 1 k 4 1 ceil safe else d
      d.oset volt (max safe (min step ceil))

/-- DROOP_STRETCH: the rail has fallen `drop` mV below its set voltage and recovers after `clocks` core clocks. -/
def Dev.droopStretch (d : Dev) (k drop clocks : Nat) : Dev :=
  if d.pd (octDomain k) ≠ 2 || drop < d.oget O.DROOP_MARGIN then d
  else (d.oinc O.DROOP_STRETCHES).onPower fun p => { p with stretched := dset 0 p.stretched k (dget 0 p.stretched k + max 32 clocks) }

/-- DROOP_THRESHOLD: at the end of a millisecond, stretches over more than 1 % of it ask for 5 mV. -/
def Dev.droopThreshold (d : Dev) (k : Nat) : Dev :=
  let n := dget 0 d.power.stretched k
  let ask := decide (10 * d.oget (O.OCT_CLOCK k) < n) && d.oget O.DROOP_FREEZE = 0
  d.onPower fun p =>
    { p with stretched := mdel p.stretched k, boost := if ask && !p.boost.contains k then k :: p.boost else p.boost }

/-! ### Thresholds, equalization, placement -/

/-- THRESHOLD_LOOP: one code of one lane's receive threshold. More than 64 corrected errors in 1 s break a freeze and the range. -/
def Dev.thresholdLoop (d : Dev) (ch lane : Nat) (dir : Int) : Dev :=
  let die := ch / 128
  let errs := ((dget [] d.mem.recent ch).filter fun t => d.time < t + 1000000000).length
  let crossed := 64 < errs
  let d := if crossed && d.oget (O.VREF_FREEZE die) = 1 then (d.oset (O.VREF_FREEZE die) 0).policyClamp 5 ch 7 5 1 errs else d
  if d.oget (O.VREF_FREEZE die) = 1 then d
  else
    let lo := d.oget (O.VREF_MIN die)
    let hi := d.oget (O.VREF_MAX die)
    let key := 128 * ch + lane
    let v := ((dget 64 d.power.vref key : Nat) + max (-1) (min 1 dir)).toNat
    let v := min v 127
    let out := v < lo || hi < v
    let d := if crossed && out then d.policyClamp 5 ch 6 5 (if v < lo then lo else hi) v else d
    let free := d.power.clamps.contains (5 * 65536 + 6 * 256 + ch) || d.power.clamps.contains (5 * 65536 + 7 * 256 + ch)
    let v := if free then v else max lo (min v hi)
    d.onPower fun p => { p with vref := dset 64 p.vref key v }

/-- A positive FP32 pattern as a fraction: numerator and denominator. -/
def fp32Frac (x : Nat) : Nat × Nat :=
  let e := bits x 23 8
  let m := if e = 0 then bits x 0 23 else bits x 0 23 + 2 ^ 23
  (m, 2 ^ (150 - max e 1))

/-- The whole part of -100 log10 of an error ratio between 2.4e-4 and 1 (R909). -/
def berCode (x : Nat) : Nat :=
  let (n, q) := fp32Frac x
  ((rangeFrom 0 400).filter fun c => n ^ 100 * 10 ^ c ≤ q ^ 100).length - 1

/-- The FP32 pattern of 2.4e-4. -/
def berLimit : Nat := 0x397BA882

/-- EQUALIZATION_LOOP of an UP link (R795): its measurements are shown, an error ratio beyond the limit breaks a freeze and the
preset range, and one setting moves by one step. -/
def Dev.equalize (d : Dev) (l : Nat) (r : EqRun) : Dev :=
  if !d.up l || d.quiescing (linkDomain l) then d
  else
    let d := r.margins.zipIdx.foldl (fun d e => d.oset (O.LANE_MARGIN l e.2) (e.1 % 65536)) (d.oset (O.PRE_FEC_BER l) r.ber)
    let worst := r.margins.zipIdx.foldl (fun (m : Nat × Nat) e => if e.1 < m.1 then e else m) (65535, 0)
    let d := d.linkMargin l worst.1 worst.2
    let crossed := berLimit < r.ber
    let d := if crossed && d.oget (O.EQ_FREEZE l) = 1 then (d.oset (O.EQ_FREEZE l) 0).policyClamp 4 l 7 4 1 (berCode r.ber) else d
    if d.oget (O.EQ_FREEZE l) = 1 || r.setting = 0 then d
    else
      let move := fun (x hi : Nat) => if r.up then min (x + 1) hi else x - 1
      if r.setting = 1 then d.onLink l fun k => { k with ctle := setAt k.ctle r.lane (move (at0 k.ctle r.lane) 255) }
      else if r.setting < 16 then
        let key := 16 * r.lane + r.setting - 2
        d.onLink l fun k => { k with dfe := dset 0 k.dfe key (move (dget 0 k.dfe key) 255) }
      else
        let lo := d.oget (O.EQ_PRESET_MIN l)
        let hi := d.oget (O.EQ_PRESET_MAX l)
        let v := move (at0 (d.link l).want r.lane) 15
        let out := v < lo || hi < v
        let d := if crossed && out then d.policyClamp 4 l 5 4 (if v < lo then lo else hi) v else d
        let free := d.power.clamps.contains (4 * 65536 + 5 * 256 + l) || d.power.clamps.contains (4 * 65536 + 7 * 256 + l)
        let v := if free then v else max lo (min v hi)
        let t := ((d.link l).token + 1) % 256
        (d.onLink l fun k => { k with token := t }).flitOut l 6 0 (leBytes 1 2 ++ leBytes 1 r.lane ++ leBytes 1 v ++ leBytes 1 t)

/-- PARK_ENABLE, PARK_NEVER and the pin let an octant park (R903). -/
def Dev.parkAllowed (d : Dev) (k : Nat) : Bool :=
  d.oget O.PARK_ENABLE = 1 && !bit (d.oget O.PARK_NEVER) k && d.oget (O.OCT_CLOCK_PIN k) = 0 && d.urgentFloor k = 0

/-- PLACEMENT_LOOP: an octant that has been idle for PARK_DELAY parks; one that may no longer be parked runs again. -/
def Dev.placement (d : Dev) (k : Nat) : Dev :=
  if d.oget O.PARK_FREEZE = 1 then d
  else if d.pd (octDomain k) = 3 then (if d.parkAllowed k then d else d.unpark k)
  else if d.pd (octDomain k) = 2 && d.parkAllowed k && !d.octBusy k &&
      dget 0 d.power.busyAt k + 1000 * d.oget O.PARK_DELAY ≤ d.time then
    (d.pdSet (octDomain k) 3).oset (O.OCT_VOLT k) 500
  else d

/-- At a tick: octants whose cores hold tasks are busy now, and domains asked to sleep stop once they can. -/
def Dev.powerTick (d : Dev) : Dev :=
  let d := d.onPower fun p =>
    { p with busyAt := ((rangeFrom 0 8).filter d.octBusy).foldl (fun m k => mset m k d.time) p.busyAt }
  (rangeFrom 4 8).foldl (fun d x => d.pdStop x) d

/-! ### Power estimation (R910 to R914) -/

/-- Guardband of a domain in percent: 2, and 3 more while its estimator is STALE. -/
def Dev.guardPct (d : Dev) (x : Nat) : Nat := if d.oget (O.EST_STATE x) = 1 then 5 else 2

/-- PKG_POWER: the sum of all domains with their guardbands, in W, rounded up. -/
def Dev.pkgPower (d : Dev) : Nat :=
  cdiv ((rangeFrom 0 16).foldl (fun s x => s + d.oget (O.DOMAIN_POWER x) * (100 + d.guardPct x)) 0) 1000

/-- Show the power of a domain. -/
def Dev.powerShow (d : Dev) (x : Nat) : Dev :=
  let v := ((dget 0 d.power.raw x : Nat) + dget (0 : Int) d.power.offset x).toNat
  let d := d.oset (O.DOMAIN_POWER x) (min v 65535)
  d.oset O.PKG_POWER (min d.pkgPower 65535)

/-- POWER_ESTIMATE: a domain's power from its activity, in 0.1 W. -/
def Dev.powerEstimate (d : Dev) (x activity : Nat) : Dev := (d.onPower fun p => { p with raw := dset 0 p.raw x activity }).powerShow x

/-- The domain rests, or a quiesce of it has just ended. -/
def Dev.rests (d : Dev) (x : Nat) : Bool :=
  !(isOct x && d.octBusy (x - 4)) || d.quiescing x || mget d.power.quiesced x = some (d.time - 2000)

/-- RECALIBRATION (R911, R912): a domain that rests or is quiesced takes its offset from the measured power, in 0.1 W. -/
def Dev.recalibrate (d : Dev) (x measured : Nat) : Dev :=
  if x < 2 || !d.rests x then d
  else
    let d := d.onPower fun p =>
      { p with offset := dset 0 p.offset x ((measured : Int) - (dget 0 p.raw x : Nat)), calibrated := mset p.calibrated x d.time }
    (d.oset (O.EST_STATE x) 0).powerShow x

/-- Time since a domain calibrated. -/
def Dev.uncalibrated (d : Dev) (x : Nat) : Nat := d.time - dget 0 d.power.calibrated x

/-- A guard window of the ACTIVE horarium, or no entry with a guard (R630, R913). -/
def Dev.quiesceSlot (d : Dev) : Bool :=
  match d.prec.sched.active with
  | none => true
  | some t =>
    let es := t.entries.filter fun e => e.guard ≠ 0
    es.isEmpty || es.any fun e => let s := t.first d.time e.start; d.time < s && s ≤ d.time + 1000 * e.guard

/-- A quiesce of a domain is due (R912, R921). -/
def Dev.quiesceDue (d : Dev) (x : Nat) : Bool :=
  2 ≤ x && d.pd x = 2 && decide (50000000 ≤ d.uncalibrated x) && decide (dget 0 d.power.countFrom x + 50000000 ≤ d.time) &&
  (match mget d.power.quiesced x with
   | some t => decide (t + 2000000 ≤ d.time)
   | none => true)

/-- QUIESCE: the next domain in rotation that is due is quiesced for 2 µs. -/
def Dev.quiesce (d : Dev) (x : Nat) : Dev :=
  let turn := (rangeFrom d.power.quietNext (16 - d.power.quietNext) ++ rangeFrom 0 d.power.quietNext).find? d.quiesceDue
  if d.oget O.QUIESCE_ENABLE = 1 && d.quiesceSlot && turn = some x then
    (d.oinc O.QUIESCE_WINDOWS).onPower fun p => { p with quiesced := mset p.quiesced x d.time, quietNext := (x + 1) % 16 }
  else d

/-- ESTIMATOR_STALE: a domain has not calibrated for 500 ms (R914). -/
def Dev.estimatorStale (d : Dev) (x : Nat) : Dev :=
  if x < 2 || d.pd x ≠ 2 || d.oget (O.EST_STATE x) = 1 || d.uncalibrated x < 500000000 then d
  else ((d.oset (O.EST_STATE x) 1).powerShow x).noteEvent 0 0 (powerEng x)

/-! ### Temperatures (R915 to R917) -/

/-- One throttle step of an octant that is hot, or of its recovery (R916). -/
def Dev.throttle (d : Dev) (k : Nat) (hot cool : Bool) : Dev :=
  let c := d.throttleCeiling k
  let last := dget 0 d.power.throttleAt k
  if hot then
    if c < 1250 && !d.power.cooling.contains k && d.time < last + 50000 then d
    else
      let d := (d.oinc O.THROTTLE_STEPS).onPower fun p =>
        { p with throttle := ceilSet p.throttle k (min c (d.oget (O.OCT_CLOCK k)) - 50), throttleAt := mset p.throttleAt k d.time,
                 throttleFrom := if c = 1250 then mset p.throttleFrom k d.time else p.throttleFrom,
                 cooling := p.cooling.filter (· ≠ k) }
      if c = 1250 then
        ((d.raise { cause := 0x11, eng := powerEng (octDomain k) }).msix 0 3).notify ⟨3, 0x11, 0, 0, 0x2200, k⟩
      else d
  else if c = 1250 || !cool then d
  else if !d.power.cooling.contains k then
    d.onPower fun p => { p with cooling := k :: p.cooling, throttleAt := mset p.throttleAt k d.time }
  else if d.time < last + 1000000 then d
  else
    d.onPower fun p =>
      { p with throttle := ceilSet p.throttle k (c + 25), throttleAt := mset p.throttleAt k d.time,
               cooling := if c + 25 ≥ 1250 then p.cooling.filter (· ≠ k) else p.cooling }

/-- A stack of a die is in the band of 105 degrees (R725). -/
def Dev.stackHot (d : Dev) (die : Nat) : Bool := (rangeFrom (4 * die) 4).any fun s => dget 0 d.mem.band s = 4

/-- The throttle of every octant, by the sensors' last reading of each octant and die. -/
def Dev.throttleAll (d : Dev) : Dev :=
  (rangeFrom 0 8).foldl (fun d k =>
    let t := toSigned 16 (d.oget (O.OCT_TEMP k))
    let u := toSigned 16 (d.oget (O.UNCORE_TEMP (k / 4)))
    let die := d.power.dieHot.contains (k / 4)
    d.throttle k (decide (420 ≤ t) || decide (420 ≤ u) || d.stackHot (k / 4)) (decide (t < 408) && !die && !d.stackHot (k / 4))) d

/-- The trip of R917: the domains are cut, which aborts what they run, a wake in progress ends (R922), the lifetime record is
committed (R1021), THERMTRIP_N is pulled low (R1045) and the device fails. -/
def Dev.thermalTrip (d : Dev) : Dev :=
  let d := (rangeFrom 2 14).foldl Dev.pdCutOff d
  let d := d.lifeCommit
  let d := { d with pkg := { d.pkg with thermtrip := true } }
  (d.raise { cause := 0x11, sev := .device, eng := powerEng 0 }).oinc O.TRIP_EVENTS

/-- The trip has done its work and nothing it cut runs again: further hot readings change nothing (R917). -/
def Dev.tripped (d : Dev) : Bool :=
  d.failed && d.pkg.thermtrip && (rangeFrom 2 14).all fun x => d.pd x = 0 || d.pd x = 5

/-- Hottest of some readings. -/
def hottest (l : List Int) : Int := l.foldl max (-32768)

/-- Sensors that read 115 degrees or above (R917). -/
def tripsOf (t : Temps) : List Nat := ((t.oct ++ t.uncore).zipIdx.filter fun e => decide (460 ≤ e.1)).map (·.2)

/-- The sensors as read while the device is held in reset: a trip only pulls THERMTRIP_N low, until the release (R1058; assumption 97). -/
def Dev.thermalHeld (d : Dev) (t : Temps) : Dev :=
  let trip := (tripsOf t).any fun i => d.power.hot.contains i
  let d := d.onPower fun p => { p with hot := tripsOf t, hottest := hottest (t.oct ++ t.uncore) }
  { d with pkg := { d.pkg with thermtrip := d.pkg.thermtrip || trip } }

/-- THERMAL_SENSOR_READ: the junction sensors of the octants and uncore dies (R915). -/
def Dev.thermal (d : Dev) (t : Temps) : Dev :=
  let d := (rangeFrom 0 8).foldl (fun d k => d.oset (O.OCT_TEMP k) (ofSigned 16 (hottest ((t.oct.drop (4 * k)).take 4)))) d
  let d := (rangeFrom 0 2).foldl (fun d i => d.oset (O.UNCORE_TEMP i) (ofSigned 16 (hottest ((t.uncore.drop (4 * i)).take 4)))) d
  let d := (rangeFrom 0 8).foldl (fun d k => d.peakNote k (toSigned 16 (d.oget (O.OCT_TEMP k)))) d
  let d := (rangeFrom 0 2).foldl (fun d i => d.peakNote (8 + i) (toSigned 16 (d.oget (O.UNCORE_TEMP i)))) d
  let trip := (tripsOf t).any fun i => d.power.hot.contains i
  let die := (rangeFrom 0 2).filter fun i =>
    let u := toSigned 16 (d.oget (O.UNCORE_TEMP i))
    decide (420 ≤ u) || (d.power.dieHot.contains i && decide (408 ≤ u))
  let d := (d.onPower fun p => { p with hot := tripsOf t, hottest := hottest (t.oct ++ t.uncore), dieHot := die }).throttleAll
  if trip && !d.tripped then d.thermalTrip else d

/-! ### Commands -/

/-- DOMAIN_WAKE. -/
def execDomainWake (x : Nat) (ok : Bool) (t : Training) (s : State) : Host.Outcome State Fault Refusal :=
  s.runIf (x < 16) fun d => d.domainWake x ok t
/-- WAKE_RETRY. -/
def execWakeRetry (x : Nat) (s : State) : Host.Outcome State Fault Refusal := s.runIf (x < 16) fun d => d.wakeRetry x
/-- POWER_FAULT. -/
def execPowerFault (x : Nat) (s : State) : Host.Outcome State Fault Refusal := s.runIf (x < 16) fun d => d.powerFault x
/-- VOLTAGE_LOOP, with the margin of the critical-path monitor in mV. -/
def execVoltageLoop (oct : Nat) (margin : Int) (s : State) : Host.Outcome State Fault Refusal := s.runIf (oct < 8) fun d => d.voltageLoop oct margin
/-- CLOCK_LOOP. -/
def execClockLoop (oct : Nat) (s : State) : Host.Outcome State Fault Refusal := s.runIf (oct < 8) fun d => d.clockLoop oct
/-- DROOP_STRETCH. -/
def execDroopStretch (oct drop clocks : Nat) (s : State) : Host.Outcome State Fault Refusal :=
  s.runIf (oct < 8) fun d => d.droopStretch oct drop clocks
/-- DROOP_THRESHOLD. -/
def execDroopThreshold (oct : Nat) (s : State) : Host.Outcome State Fault Refusal := s.runIf (oct < 8) fun d => d.droopThreshold oct
/-- THRESHOLD_LOOP, with the direction the read eye asks for. -/
def execThresholdLoop (ch lane : Nat) (dir : Int) (s : State) : Host.Outcome State Fault Refusal :=
  s.runIf (ch < 256 && lane < 72) fun d => d.thresholdLoop ch lane dir
/-- PLACEMENT_LOOP. -/
def execPlacementLoop (oct : Nat) (s : State) : Host.Outcome State Fault Refusal := s.runIf (oct < 8) fun d => d.placement oct
/-- CURRENT_LIMIT. -/
def execCurrentLimit (oct amps : Nat) (s : State) : Host.Outcome State Fault Refusal := s.runIf (oct < 8) fun d => d.currentLimit oct amps
/-- POWER_ESTIMATE. -/
def execPowerEstimate (x activity : Nat) (s : State) : Host.Outcome State Fault Refusal := s.runIf (x < 16) fun d => d.powerEstimate x activity
/-- RECALIBRATION. -/
def execRecalibration (x measured : Nat) (s : State) : Host.Outcome State Fault Refusal := s.runIf (x < 16) fun d => d.recalibrate x measured
/-- QUIESCE. -/
def execQuiesce (x : Nat) (s : State) : Host.Outcome State Fault Refusal := s.runIf (x < 16) fun d => d.quiesce x
/-- ESTIMATOR_STALE. -/
def execEstimatorStale (x : Nat) (s : State) : Host.Outcome State Fault Refusal := s.runIf (x < 16) fun d => d.estimatorStale x
/-- EQUALIZATION_LOOP. -/
def execEqualizationLoop (link : Nat) (r : EqRun) (s : State) : Host.Outcome State Fault Refusal :=
  s.runIf (link < 20 && r.margins.length = 8 && r.ber ≤ 0x3F800000 && r.lane < 8 && r.setting ≤ 16) fun d => d.equalize link r

end Sys2Proof.Machine
end

