-- ==== Sys2Proof/Machine/Boot.lean ====
section
/-! DEFINITION. Machine/Boot.lean: reset, boot, the flash, and attestation over SPDM (chapter 20), with the signals and test
port of the package (chapter 24). -/

namespace Sys2Proof.Machine

/-! ### Flash (R929, R947, R952) -/

/-- The flash byte at an address. -/
def Boot.flashByte (b : Boot) (a : Nat) : Nat := 255 - dget 0 b.flash a

/-- `n` flash bytes from address `a`. -/
def Boot.flashBytes (b : Boot) (a n : Nat) : List Byte := (rangeFrom a n).map fun i => BitVec.ofNat 8 (b.flashByte i)

/-- Set the flash byte at an address. -/
def Boot.setFlash (b : Boot) (a v : Nat) : Boot := { b with flash := dset 0 b.flash a (255 - v % 256) }

/-- A sector whose contents are unspecified. -/
def Dev.sectorFree (d : Dev) (a : Nat) : Dev :=
  (rangeFrom a 4096).foldl (fun d i => Dev.freed { d with boot := d.boot.setFlash i (d.freeBits 8) }) d

/-- The base address of a slot. -/
def slotBase (s : Nat) : Nat := 0xC00000 * s

/-- A write of FLASH_CTRL. -/
def Dev.flashCtrl (d : Dev) (v : Nat) : WRes :=
  let a := d.oget O.FLASH_ADDR
  let bad := decide (0x1800000 ≤ a) || d.boot.running = some (a / 0xC00000)
  if bad || d.oget O.FLASH_STATUS = 1 then .error stState
  else .ok (Dev.oset { d with boot := { d.boot with flashOp := v, flashAt := a } } O.FLASH_STATUS 1)

/-- A sector is erased. -/
def Boot.erased (b : Boot) (a : Nat) : Bool := !b.flash.any fun e => decide (a ≤ e.1) && decide (e.1 < a + 4096)

/-- FLASH_DONE: the running operation ends. -/
def Dev.flashDone (d : Dev) (ok : Bool) : Dev :=
  let a := d.boot.flashAt
  let op := d.boot.flashOp
  if op = 0 then d
  else
    let d := if op = 1 then
        (if ok then (rangeFrom 0 4096).foldl (fun d i => d.oset (O.FLASH_DATA i) (d.boot.flashByte (a + i))) d else d)
      else if !ok || (op = 2 && !d.boot.erased a) then d.sectorFree a
      else if op = 2 then
        (rangeFrom 0 4096).foldl (fun d i => { d with boot := d.boot.setFlash (a + i) (d.oget (O.FLASH_DATA i)) }) d
      else { d with boot := { d.boot with flash := mkeep (fun x => x < a || a + 4096 ≤ x) d.boot.flash } }
    Dev.oset { d with boot := { d.boot with flashOp := 0 } } O.FLASH_STATUS (if ok then 2 else 3)

/-! ### Reset (R928 to R933, R951 to R953) -/

/-- The persisted values not yet committed, which a reset keeps and a loss of power loses (R844, Table 20.4). -/
def Dev.commitAll (d : Dev) : Dev := d.dict.commits.foldl (fun d k => d.cryptWrite k true) d

/-- The state a reset leaves, held in reset (Table 20.4). -/
def Dev.resetTo (d : Dev) (cold : Bool) (cause : Nat) : Dev :=
  let d := if 2 ≤ d.boot.flashOp then d.sectorFree d.boot.flashAt else d
  let r := Dev.reset
  let objs := d.dict.crypt.foldl (fun o e => dset (objUnlisted e.1) o e.1 e.2) objDefaults
  let fab := { r.fab with frac := if cold then 0 else d.fab.frac }
  let host := { r.host with perst := d.host.perst }
  let power := { r.power with hot := d.power.hot, hottest := d.power.hottest }
  let dict := { r.dict with crypt := d.dict.crypt, key := d.dict.key }
  let boot := { r.boot with cold := cold, resetN := d.boot.resetN, flash := d.boot.flash }
  let life := { r.life with gens := d.gensLeft, raised := d.life.raised, replaced := d.life.replaced, hour := d.life.hour }
  let pkg := { d.pkg with thermtrip := d.pkg.thermtrip && !cold, pgNoted := false }
  let n : Dev :=
    { r with time := if cold then 0 else d.time, free := d.free, out := d.out, objs := objs,
             logs := { r.logs with nextKey := d.logs.nextKey }, fab := fab, host := host, power := power, dict := dict, boot := boot,
             tray := d.tray, life := life, pkg := pkg }
  (((n.oset O.RESET_CAUSE cause).oset O.RETIRED_COUNT (d.dict.crypt.filter fun e => e.1 / 2 ^ 32 = 0x604400).length).oset O.HOST_WIDTH_STRAP (d.oget O.HOST_WIDTH_STRAP)).oset O.CANTOR_KEY_STATE (d.oget O.CANTOR_KEY_STATE)

/-- A source of reset: a weaker one does not act during a COLD reset's phase 0 (R951), and a failed self-test ends only with a COLD
one (R958). -/
def Dev.resetBy (d : Dev) (cold : Bool) (cause : Nat) : Dev :=
  if !d.pkg.powered || (!cold && ((d.boot.inReset && d.boot.cold) || d.boot.selfTestFailed)) then d else d.commitAll.resetTo cold cause

/-- Apply a request of RESET_REQUEST after a commit of the lifetime record (R1021, R1036). -/
def Dev.resetApply (d : Dev) (v : Nat) : Dev :=
  (if d.boot.running.isSome then d.lifeEnd else d).resetBy (v = 2) (if v = 2 then 4 else 3)

/-- A write of RESET_REQUEST; it is held while a sensor reads 95 degrees or above (R932). -/
def Dev.resetRequest (d : Dev) (v : Nat) : Dev :=
  if 380 ≤ d.power.hottest then { d with boot := { d.boot with held := some (max v (d.boot.held.getD 0)) } } else d.resetApply v

/-- The readings of the sensors, after which a held request may be applied (R932). -/
def Dev.thermalRead (d : Dev) (t : Temps) : Dev :=
  if !d.pkg.powered then d
  else if d.boot.inReset then d.thermalHeld t
  else
    let d := d.thermal t
    match d.boot.held with
    | some v => if d.power.hottest < 380 then d.resetApply v else d
    | none => d

/-- Power-on (Table 24.6): the rails rise with RESET_N asserted. -/
def Dev.powerOn (d : Dev) : Dev :=
  if d.pkg.powered then d
  else Dev.resetTo { d with pkg := { d.pkg with powered := true }, boot := { d.boot with resetN := true } } true 0

/-- The loss of a supply of PD_0 (R844, R1053): what is not committed is lost, and no output is driven. -/
def Dev.powerLoss (d : Dev) : Dev := Dev.resetTo { d with pkg := { d.pkg with powered := false, test := 0, tap := 0 } } true 0

/-- RESET_N is asserted (R1044). -/
def Dev.resetN (d : Dev) : Dev := Dev.resetBy { d with boot := { d.boot with resetN := true } } true 1

/-! ### Images (R936 to R939) -/

/-- A 32-bit field of a slot's header. -/
def Boot.headerWord (b : Boot) (s off : Nat) : Nat := leNat (b.flashBytes (slotBase s + off) 4)

/-- KEY_INDEX of a slot's header. -/
def Boot.keyIndex (b : Boot) (s : Nat) : Nat := b.flashByte (slotBase s + 20)

/-- Every flash byte of a range reads zero. -/
def Boot.zeros (b : Boot) (a n : Nat) : Bool := (b.flashBytes a n).all (· = 0)

/-- The detail of the first check of Table 20.6 that slot `s` fails, 0 when it passes. -/
def Dev.imageCheck (d : Dev) (s : Nat) (answers : Bool) : Nat :=
  let b := d.boot
  let a := slotBase s
  let len := b.headerWord s 16
  let k := b.keyIndex s
  let pub := beNat (b.flashBytes (a + 112) 96)
  if !answers then 1
  else if b.headerWord s 0 ≠ 0x43484153 || b.headerWord s 4 ≠ 1 || len % 4096 ≠ 0 || len = 0 || 8388608 < len ||
      !b.zeros (a + 21) 43 || !b.zeros (a + 304) 208 then 2
  else if 3 < k || bit (d.oget O.KEY_REVOKED) k || Config.sha384 (b.flashBytes (a + 112) 96) ≠ Config.fusedKeyHash k then 3
  else if !Config.ecdsaVerify pub (Config.sha384 (b.flashBytes a 208)) (beNat (b.flashBytes (a + 208) 96)) then 4
  else if Config.sha384 (b.flashBytes (a + 512) len) ≠ beNat (b.flashBytes (a + 64) 48) then 5
  else if b.headerWord s 12 < d.oget O.MIN_SVN then 6
  else 0

/-- Check a slot and record what the check finds in IMAGE_STATUS. -/
def Dev.imageTry (d : Dev) (s : Nat) (answers : Bool) : Dev × Nat :=
  let det := d.imageCheck s answers
  let w := fun (o : Nat) => if answers then d.boot.headerWord s o else 0
  let k := if answers then d.boot.keyIndex s else 0
  let e := O.IMAGE_STATUS
  ((((d.oset (e (4 * s)) (det + 256 * k)).oset (e (4 * s + 1)) (w 8)).oset (e (4 * s + 2)) (w 12)).oset (e (4 * s + 3)) (w 16), det)

/-- The choice of R936: the slot started, if any, with the slots that failed before it and their details. -/
def Dev.imageChoose (d : Dev) (a b : Bool) : Dev × Option Nat × List (Nat × Nat) :=
  let p := d.oget O.BOOT_PREFERENCE
  let swap := 3 ≤ d.oget O.BOOT_TRIES
  let d := if swap then ((d.osetNow O.BOOT_TRIAL 0).osetNow O.BOOT_TRIES 0).osetNow O.BOOT_PREFERENCE (1 - p) else d
  let p := if swap then 1 - p else p
  let d := d.osetNow O.BOOT_TRIES (d.oget O.BOOT_TRIES + 1)
  let ans := fun (s : Nat) => if s = 0 then a else b
  let (d, e) := d.imageTry p (ans p)
  if e = 0 then (d, some p, [])
  else
    let (d, e') := d.imageTry (1 - p) (ans (1 - p))
    if e' = 0 then (d, some (1 - p), [(p, e)]) else (d, none, [(p, e), (1 - p, e')])

/-! ### Boot (R934, R935, R940, R941) -/

/-- One domain wakes at boot: three failed attempts leave it FAILED (R924). -/
def Dev.bootWake (d : Dev) (b : BootInputs) (x : Nat) : Dev :=
  if d.pd (pdNeeds x) ≠ 2 then d
  else if bit b.failed x then (d.oadd (O.PD_WAKE_FAILS x) 3).pdFail x 0x10
  else d.pdInit x b.training

/-- What the kernel owner holds at READY (R940). -/
def Dev.kernelSetup (d : Dev) : Dev :=
  let w : Window := { base := 0, size := 2 ^ 40, hostBase := 0, enc := false, keySlot := 0, l2p := 0, policy := 0, home := 2, x := false,
                      w := true, r := true }
  { d.oset (O.PT_ROOT 256) 0 with
    tr := { d.tr with wins := mset d.tr.wins (64 * 256) w },
    prec := { d.prec with descTable := mset d.prec.descTable 256 0x80000 } }

/-- READY, `b.us` µs of fabric time after the release (R775; assumption 52). -/
def Dev.bootReady (d : Dev) (b : BootInputs) : Dev :=
  let d := { d with time := d.time + 1000 * b.us }
  let d := (d.kernelSetup.oset O.BOOT_PHASE 4).oset O.BOOT_TIME (b.us % 2 ^ 32)
  let d := { d with boot := { d.boot with watchdog := false } }
  if d.oget O.BOOT_TRIAL = 0 then d.osetP O.BOOT_TRIES 0 else d

/-- Phases 2 and 3: Sahcy starts from slot `s`, and the domains wake. -/
def Dev.bootStart (d : Dev) (b : BootInputs) (s : Nat) (fails : List (Nat × Nat)) : Dev :=
  let d := (d.oset O.FIRMWARE_VERSION (d.boot.headerWord s 8)).oset O.FIRMWARE_IMAGE s
  let d := { d with boot := { d.boot with running := some s, minSvn := d.oget O.MIN_SVN, trial := d.oget O.BOOT_TRIAL } }
  let d := (d.oset O.BOOT_PHASE 2).lifeLoad
  let d := d.keyDrawNew 256
  let d : Dev := fails.foldl (fun (d : Dev) (e : Nat × Nat) => d.logNote 0x40 e.2 0x9000 e.1) d
  let d := if d.oget O.RESET_CAUSE = 5 then d.logNote 0x40 0x12 0x9000 0 else d
  let d := if b.pgLow ≠ 0 then Dev.noteEvent { d with pkg := { d.pkg with pgNoted := true } } 0x3F 0 0x9000 else d
  let d := if d.pkg.strap = 3 && !d.host.perst then d.noteEvent 0 0 0x5000 else d
  let d := d.bootWake b 1
  let d := (d.oset O.BOOT_PHASE 3)
  let d := [2, 3, 14, 15, 12, 13, 4, 5, 6, 7, 8, 9, 10, 11].foldl (fun d x => d.bootWake b x) d
  if d.pd 1 = 5 || d.pd 2 = 5 || d.pd 3 = 5 then
    Dev.oset { d with boot := { d.boot with watchdog := false } } O.BOOT_PHASE 5
  else d.bootReady b

/-- RESET_RELEASE (R934): the phases of Table 20.5. -/
def Dev.bootRun (d : Dev) (b : BootInputs) : Dev :=
  if !d.boot.inReset || !d.pkg.powered || d.boot.stuck then d
  else
    let d := { d with boot := { d.boot with resetN := false }, pkg := { d.pkg with test := 0, thermtrip := d.pkg.thermtrip && !d.boot.cold } }
    if !b.ref0 then { d.pdSet 0 5 with boot := { d.boot with stuck := true } }
    else
      let d := { d.pdSet 0 2 with boot := { d.boot with inReset := false, watchdog := true } }
      let d := if b.ref1 then d.oset O.SPARE_STATE 0 else d
      if !b.selfTest then { d.logNote 0x40 0x10 0x9000 0 with boot := { d.boot with selfTestFailed := true } }
      else if !b.cryptOk then { d.logNote 0x40 0x11 0x9000 0 with boot := { d.boot with stuck := true } }
      else
        let d := d.osetNow O.CANTOR_BOOT ((d.oget O.CANTOR_BOOT + 1) % 65536)
        let d := if d.boot.cold then d.osetNow O.COLD_STARTS (d.oget O.COLD_STARTS + 1) else d
        match (d.oset O.BOOT_PHASE 1).imageChoose b.flashA b.flashB with
        | (d, some s, fails) => d.bootStart b s fails
        | (d, none, _) => d.oset O.BOOT_PHASE 6

/-- The boot watchdog expires (R954): a commit of the lifetime record (R1021), then a WARM reset. -/
def Dev.watchdog (d : Dev) : Dev :=
  if !d.boot.watchdog then d else (if d.boot.running.isSome then d.lifeEnd else d).resetBy false 5

/-! ### Boot and flash objects (R948, R949) -/

/-- A write of BOOT_PREFERENCE. -/
def Dev.bootPrefer (d : Dev) (s : Nat) : Dev := ((d.osetP O.BOOT_PREFERENCE s).osetP O.BOOT_TRIAL 1).osetP O.BOOT_TRIES 0

/-- A write of BOOT_CONFIRM. -/
def Dev.bootConfirm (d : Dev) (v : Nat) : WRes :=
  if d.oget O.BOOT_TRIAL = 0 then .error stState
  else
    let d := (d.osetP O.BOOT_TRIAL 0).osetP O.BOOT_TRIES 0
    match d.boot.running with
    | some s => .ok (if v = 2 then d.osetP O.MIN_SVN (max (d.oget O.MIN_SVN) (d.boot.headerWord s 12)) else d)
    | none => .ok d

/-- A write of KEY_REVOKE. -/
def Dev.keyRevoke (d : Dev) (v : Nat) : WRes :=
  let k := match d.boot.running with
    | some s => d.boot.keyIndex s
    | none => 0
  if (rangeFrom 0 4).all fun i => !bit v i || decide (i < k) then .ok (d.osetNow O.KEY_REVOKED (d.oget O.KEY_REVOKED ||| v)) else .error stState

/-! ### SPDM (R942 to R946) -/

/-- Sahcy answers SPDM (Table 20.5). -/
def Dev.spdmUp (d : Dev) : Bool := d.boot.running.isSome

/-- The SPDM responder a request addresses: the device's, or the JT-16's (R991). -/
def Dev.spdmOf (d : Dev) (r : SpdmReq) : Spdm := if r.tray then d.tray.spdm else d.boot.spdm

/-- Set the responder a request addresses. -/
def Dev.setSpdm (d : Dev) (r : SpdmReq) (x : Spdm) : Dev :=
  if r.tray then { d with tray := { d.tray with spdm := x } } else { d with boot := { d.boot with spdm := x } }

/-- The responder a request addresses answers. -/
def Dev.spdmHere (d : Dev) (r : SpdmReq) : Bool := if r.tray then !d.tray.down else d.spdmUp

/-- The session of a request exists and its handshake has ended. -/
def Dev.sessionLive (d : Dev) (r : SpdmReq) : Bool := (d.spdmOf r).sessions.any fun x => x.id = r.session && x.live

/-- Send an SPDM response: message type 0x06 in a session, else 0x05. -/
def Dev.spdmSend (d : Dev) (session code : Nat) (body : List Byte) : Dev := d.emit (.mctp (if session = 0 then 5 else 6) code body)

/-- An SPDM ERROR response. -/
def Dev.spdmError (d : Dev) (session : Nat) : Dev := d.spdmSend session 0x7F []

/-- A request outside a session, or in a live one. -/
def Dev.spdmOpen (d : Dev) (r : SpdmReq) : Bool := r.session = 0 || d.sessionLive r

/-- An SPDM request that needs `ready`; it is answered with ERROR where that fails, and with nothing by a responder that is down. -/
def Dev.spdm (d : Dev) (r : SpdmReq) (ready : Bool) (f : Dev → Dev) : Dev :=
  if !d.spdmHere r then d else if ready && d.spdmOpen r then f d else d.spdmError r.session

/-- The connection has been negotiated. -/
def Dev.spdmReady (d : Dev) (r : SpdmReq) : Bool := (d.spdmOf r).version && (d.spdmOf r).caps && (d.spdmOf r).algs

/-- Sign under the identity key of the responder a request addresses: the signature as the 96-byte string of Table 20.7, highest byte
first (R4). -/
def spdmSign (r : SpdmReq) (bs : List Byte) : List Byte := beBytes 96 (Config.ecdsaSign (b2n r.tray) (Config.sha384 bs))

/-- The certificate chain of the responder a request addresses. -/
def spdmCert (r : SpdmReq) : List Byte := if r.tray then Config.trayCertChain else Config.certChain

/-- A measurement block of Table 20.8. -/
def Dev.measurement (d : Dev) (i : Nat) : Nat :=
  let s := d.boot.running.getD 0
  let o := fun (k n : Nat) => leBytes n (d.oget k)
  match i with
  | 1 => Config.bootRomDigest
  | 2 => Config.sha384 (d.boot.flashBytes (slotBase s) 208)
  | 3 => Config.sha384 (leBytes 4 d.boot.minSvn ++ leBytes 1 s ++ leBytes 1 d.boot.trial)
  | 4 => Config.sha384 (o O.VARIANT 1 ++ o O.SILICON_REVISION 2 ++ (rangeFrom 0 4).flatMap fun k => beBytes 48 (Config.fusedKeyHash k))
  | _ => Config.sha384 (o O.CANTOR_KEY_STATE 1 ++ o O.KEY_REVOKED 1)

/-- GET_MEASUREMENTS: byte 0 names a block, 0 asks how many there are, 0xFF for all; bit 0 of byte 1 asks for a signature. -/
def Dev.measurements (d : Dev) (r : SpdmReq) : Dev :=
  let b := fun i => (r.body[i]?.getD 0).toNat
  let ids := if b 0 = 0 then [] else if b 0 = 0xFF then [1, 2, 3, 4, 5] else [b 0]
  if ids.any fun i => 5 < i then d.spdmError r.session
  else
    let body := [BitVec.ofNat 8 (if b 0 = 0 then 5 else ids.length)] ++
      ids.flatMap fun i => [BitVec.ofNat 8 i] ++ beBytes 48 (if r.tray then Config.trayMeasurement i else d.measurement i)
    let sig := if b 1 % 2 = 1 then spdmSign r (r.body ++ body) else []
    d.spdmSend r.session 0x60 (body ++ sig)

/-- KEY_EXCHANGE: a session starts; at most two exist. -/
def Dev.keyExchange (d : Dev) (r : SpdmReq) : Dev :=
  let x := d.spdmOf r
  if 2 ≤ x.sessions.length then d.spdmError 0
  else
    let d := d.setSpdm r { x with sessions := x.sessions ++ [Session.mk x.nextSession false], nextSession := x.nextSession + 1 }
    d.spdmSend 0 0x64 (leBytes 4 x.nextSession ++ spdmSign r r.body)

/-- FINISH: the handshake of a session ends. -/
def Dev.spdmFinish (d : Dev) (r : SpdmReq) : Dev :=
  let x := d.spdmOf r
  if !d.spdmHere r then d
  else if x.sessions.any fun y => y.id = r.session && !y.live then
    Dev.spdmSend (d.setSpdm r { x with sessions := mapIf (fun y => y.id = r.session) (fun y => { y with live := true }) x.sessions })
      r.session 0x65 []
  else d.spdmError r.session

/-- A request that only a live session carries. -/
def Dev.spdmIn (d : Dev) (r : SpdmReq) (f : Dev → Dev) : Dev :=
  if !d.spdmHere r then d else if d.sessionLive r then f d else d.spdmError r.session

/-- The response of a key command (Table 20.12). -/
def Dev.keyAnswer (d : Dev) (session cmd reason : Nat) : Dev :=
  d.spdmSend session 0x7E (leBytes 1 cmd ++ leBytes 1 (if reason = 0 then 0 else 1) ++ leBytes 2 reason ++ leBytes 2 (d.oget O.CANTOR_BOOT) ++
    leBytes 2 (d.oget O.CANTOR_KEY_STATE))

/-- The reason a key command of code `cmd` and length `n` is refused for before its AUTH is looked at. -/
def Dev.keyRefusal (d : Dev) (r : SpdmReq) (cmd n : Nat) : Nat :=
  if !d.sessionLive r then 4
  else if r.body.length ≠ n || (r.body.take 4) ≠ leBytes 4 cmd then 3
  else if cmd = 2 && d.oget O.CANTOR_KEY_STATE ≠ 1 then 1
  else 0

/-- The first byte of a request. -/
def cmdByte (r : SpdmReq) : Nat := ((r.body.head?).getD 0).toNat

/-- SET_SYSTEM_KEY (R945, R946), a command of the device's responder only. -/
def Dev.setSystemKey (d : Dev) (r : SpdmReq) : Dev :=
  if !d.spdmHere r then d
  else if r.tray then d.spdmError r.session
  else
    let e := d.keyRefusal r 1 100
    let new := (r.body.drop 4).take 48
    let auth := beNat (r.body.drop 52)
    let want := if d.oget O.CANTOR_KEY_STATE = 1 then Config.hmac384 d.dict.key (new ++ leBytes 2 (d.oget O.CANTOR_BOOT)) else 0
    if e ≠ 0 then d.keyAnswer r.session (cmdByte r) e
    else if auth ≠ want then d.keyAnswer r.session 1 2
    else (Dev.oset { d with dict := { d.dict with key := beNat new } } O.CANTOR_KEY_STATE 1).keyAnswer r.session 1 0

/-- ZEROIZE_SYSTEM_KEY (R945, R946), a command of the device's responder only. -/
def Dev.zeroizeSystemKey (d : Dev) (r : SpdmReq) : Dev :=
  if !d.spdmHere r then d
  else if r.tray then d.spdmError r.session
  else
    let e := d.keyRefusal r 2 52
    let auth := beNat (r.body.drop 4)
    let want := Config.hmac384 d.dict.key ([0x5A, 0x45, 0x52, 0x4F] ++ leBytes 2 (d.oget O.CANTOR_BOOT))
    if e ≠ 0 then d.keyAnswer r.session (cmdByte r) e
    else if auth ≠ want then d.keyAnswer r.session 2 2
    else (Dev.oset { d with dict := { d.dict with key := 0 } } O.CANTOR_KEY_STATE 0).keyAnswer r.session 2 0

/-- MCTP Get Endpoint ID of the device: endpoint type 0xFE reports a failed self-test (R958). -/
def Dev.endpointId (d : Dev) : Dev :=
  if d.boot.inReset || !d.pkg.powered then d
  else if d.boot.selfTestFailed then d.emit (.mctp 0 2 (leBytes 1 0 ++ leBytes 1 0xFE))
  else if d.boot.running.isSome then d.emit (.mctp 0 2 (leBytes 1 0 ++ leBytes 1 0))
  else d

/-! ### The test access port (R1055, R1056) -/

/-- Load an instruction: 0 BYPASS, 1 IDCODE, 2 SAMPLE/PRELOAD, 3 EXTEST, 4 EXTEST_PULSE, 5 EXTEST_TRAIN, 6 CLAMP, 7 HIGHZ. The last five
take effect only while RESET_N is asserted, and act as BYPASS otherwise. -/
def Dev.tap (d : Dev) (i : Nat) : Dev :=
  if !d.pkg.powered then d
  else if i < 3 then { d with pkg := { d.pkg with tap := i, test := 0 } }
  else if d.boot.resetN then { d with pkg := { d.pkg with tap := i, test := i } }
  else { d with pkg := { d.pkg with tap := 0, test := 0 } }

/-- VR_PG_d rises while VR_EN_d is low: it is ignored, and logged once per reset (R1047). VR_EN_d is asserted while PD_d is WAKING, ON,
LOW or STOPPING (R1046). -/
def Dev.vrPgRise (d : Dev) (x : Nat) : Dev :=
  let en := 1 ≤ d.pd x && d.pd x ≤ 4
  if en || d.pkg.pgNoted || !d.spdmUp then d else Dev.noteEvent { d with pkg := { d.pkg with pgNoted := true } } 0x3F 0 0x9000

/-! ### Commands -/

/-- THERMAL_SENSOR_READ. -/
def execThermalSensorRead (t : Temps) (s : State) : Host.Outcome State Fault Refusal :=
  s.runIf (t.oct.length = 32 && t.uncore.length = 8) fun d => d.thermalRead t
/-- POWER_ON. -/
def execPowerOn (s : State) : Host.Outcome State Fault Refusal := s.run Dev.powerOn
/-- RESET_N_ASSERT. -/
def execResetNAssert (s : State) : Host.Outcome State Fault Refusal := s.run Dev.resetN
/-- RESET_RELEASE. -/
def execResetRelease (b : BootInputs) (s : State) : Host.Outcome State Fault Refusal := s.run fun d => d.bootRun b
/-- BOOT_WATCHDOG_EXPIRY. -/
def execBootWatchdogExpiry (s : State) : Host.Outcome State Fault Refusal := s.run Dev.watchdog
/-- FLASH_DONE. -/
def execFlashDone (ok : Bool) (s : State) : Host.Outcome State Fault Refusal := s.run fun d => d.flashDone ok
/-- GET_VERSION. -/
def execGetVersion (r : SpdmReq) (s : State) : Host.Outcome State Fault Refusal :=
  s.run fun d => d.spdm r (r.session = 0) fun d =>
    Dev.spdmSend (d.setSpdm r { d.spdmOf r with version := true, caps := false, algs := false }) 0 0x04 (leBytes 2 0x1200)
/-- GET_CAPABILITIES: CTExponent 20, then one byte for each capability of Table 20.7 in its order. -/
def execGetCapabilities (r : SpdmReq) (s : State) : Host.Outcome State Fault Refusal :=
  s.run fun d => d.spdm r (r.session = 0 && (d.spdmOf r).version) fun d =>
    Dev.spdmSend (d.setSpdm r { d.spdmOf r with caps := true }) 0 0x61 (leBytes 1 20 ++ List.replicate 8 1)
/-- NEGOTIATE_ALGORITHMS: the one choice of Table 20.7. -/
def execNegotiateAlgorithms (r : SpdmReq) (s : State) : Host.Outcome State Fault Refusal :=
  s.run fun d => d.spdm r (r.session = 0 && (d.spdmOf r).version && (d.spdmOf r).caps) fun d =>
    Dev.spdmSend (d.setSpdm r { d.spdmOf r with algs := true }) 0 0x63 []
/-- GET_DIGESTS: the digest of the chain of slot 0. -/
def execGetDigests (r : SpdmReq) (s : State) : Host.Outcome State Fault Refusal :=
  s.run fun d => d.spdm r (d.spdmReady r) fun d => d.spdmSend r.session 0x01 (beBytes 48 (Config.sha384 (spdmCert r)))
/-- GET_CERTIFICATE: byte 0 of the request names the slot. -/
def execGetCertificate (r : SpdmReq) (s : State) : Host.Outcome State Fault Refusal :=
  s.run fun d => d.spdm r (d.spdmReady r && cmdByte r = 0) fun d => d.spdmSend r.session 0x02 (spdmCert r)
/-- CHALLENGE: a signature over the request under the responder's identity key. -/
def execChallenge (r : SpdmReq) (s : State) : Host.Outcome State Fault Refusal :=
  s.run fun d => d.spdm r (d.spdmReady r && r.session = 0) fun d => d.spdmSend 0 0x03 (spdmSign r r.body)
/-- GET_MEASUREMENTS. -/
def execGetMeasurements (r : SpdmReq) (s : State) : Host.Outcome State Fault Refusal :=
  s.run fun d => d.spdm r (d.spdmReady r) fun d => d.measurements r
/-- KEY_EXCHANGE. -/
def execKeyExchange (r : SpdmReq) (s : State) : Host.Outcome State Fault Refusal :=
  s.run fun d => d.spdm r (d.spdmReady r && r.session = 0) fun d => d.keyExchange r
/-- FINISH. -/
def execFinish (r : SpdmReq) (s : State) : Host.Outcome State Fault Refusal := s.run fun d => d.spdmFinish r
/-- HEARTBEAT. -/
def execHeartbeat (r : SpdmReq) (s : State) : Host.Outcome State Fault Refusal :=
  s.run fun d => d.spdmIn r fun d => d.spdmSend r.session 0x68 []
/-- KEY_UPDATE. -/
def execKeyUpdate (r : SpdmReq) (s : State) : Host.Outcome State Fault Refusal :=
  s.run fun d => d.spdmIn r fun d => d.spdmSend r.session 0x69 []
/-- END_SESSION. -/
def execEndSession (r : SpdmReq) (s : State) : Host.Outcome State Fault Refusal :=
  s.run fun d => d.spdmIn r fun d =>
    (d.setSpdm r { d.spdmOf r with sessions := (d.spdmOf r).sessions.filter fun x => x.id ≠ r.session }).spdmSend r.session 0x6C []
/-- SET_SYSTEM_KEY. -/
def execSetSystemKey (r : SpdmReq) (s : State) : Host.Outcome State Fault Refusal := s.run fun d => d.setSystemKey r
/-- ZEROIZE_SYSTEM_KEY. -/
def execZeroizeSystemKey (r : SpdmReq) (s : State) : Host.Outcome State Fault Refusal := s.run fun d => d.zeroizeSystemKey r
/-- GET_ENDPOINT_ID, of the device or of the JT-16. -/
def execGetEndpointId (tray : Bool) (s : State) : Host.Outcome State Fault Refusal :=
  s.run fun d =>
    if tray then (if d.tray.down then d else d.emit (.mctp 0 2 (leBytes 1 d.tray.eid ++ leBytes 1 0))) else d.endpointId
/-- BYPASS. -/
def execBypass (s : State) : Host.Outcome State Fault Refusal := s.run fun d => d.tap 0
/-- IDCODE: the identification code is shifted out. -/
def execIdcode (s : State) : Host.Outcome State Fault Refusal :=
  s.run fun d => if d.pkg.powered then (d.tap 1).emit (.tdo 0x10880B47) else d
/-- SAMPLE_PRELOAD. -/
def execSamplePreload (data : Nat) (s : State) : Host.Outcome State Fault Refusal :=
  s.run fun d => if d.pkg.powered then (let d := d.tap 2; { d with pkg := { d.pkg with preload := data } }) else d
/-- EXTEST. -/
def execExtest (s : State) : Host.Outcome State Fault Refusal := s.run fun d => d.tap 3
/-- EXTEST_PULSE. -/
def execExtestPulse (s : State) : Host.Outcome State Fault Refusal := s.run fun d => d.tap 4
/-- EXTEST_TRAIN. -/
def execExtestTrain (s : State) : Host.Outcome State Fault Refusal := s.run fun d => d.tap 5
/-- CLAMP. -/
def execClamp (s : State) : Host.Outcome State Fault Refusal := s.run fun d => d.tap 6
/-- HIGHZ. -/
def execHighz (s : State) : Host.Outcome State Fault Refusal := s.run fun d => d.tap 7
/-- POWER_LOSS. -/
def execPowerLoss (s : State) : Host.Outcome State Fault Refusal := s.run Dev.powerLoss
/-- VR_PG_RISE. -/
def execVrPgRise (x : Nat) (s : State) : Host.Outcome State Fault Refusal := s.runIf (1 ≤ x && x < 16) fun d => d.vrPgRise x

end Sys2Proof.Machine
end

