-- ==== Sys2Proof/Machine/DictRead.lean ====
section
/-! DEFINITION. Machine/DictRead.lean: reading the object dictionary (chapter 18): caller classes, selectors, the views of other
state, and the checks of Table 18.3 for reads. -/

namespace Sys2Proof.Machine

def stNoObject : Nat := 1
def stNoAccess : Nat := 2
def stTenant : Nat := 3
def stLength : Nat := 4
def stUnavailable : Nat := 5
def stProtocol : Nat := 8
def stQueueFull : Nat := 9

/-- The rights of a path's class on a row (R838, R839). -/
def ObjRow.right (r : ObjRow) : Path → Nat
  | .hk => r.hk
  | .ht _ => r.ht
  | .tc => r.tc
  | .fp _ => r.fp
  | .fw => r.fw

/-- The selector copies a path uses (R841). -/
def selKey : Path → Nat
  | .hk => 0
  | .ht t => t + 1
  | .tc => 257
  | .fp _ => 257
  | .fw => 258

/-- Selectors at their defaults. -/
def Selectors.reset : Selectors := ⟨0, 0, 0, 0, 0, 0, 0x100, 0⟩

/-- The selectors of a path; those that name an owner read as the tenant of an HT caller (R450, R507, R605, R646). -/
def Dev.sel (d : Dev) (p : Path) : Selectors :=
  let s := dget Selectors.reset d.dict.sels (selKey p)
  match p with
  | .ht t => { s with descOwner := t, winOwner := t, acctOwner := t, logSel := t, queueSel := 16 * t + s.queueSel % 16 }
  | _ => s

/-! ### Views -/

/-- Nodes that hold a reference to a descriptor (R419). -/
def Dev.descRefs (d : Dev) (owner h : Nat) : Nat :=
  (d.prec.nodes.filter fun x => x.owner = owner && x.state ≠ .retired && x.refs.contains h).length

/-- State of a descriptor entry: 0 FREE, 1 LIVE, 2 STALE. -/
def Dev.descStateOf (d : Dev) (owner h : Nat) : Nat := min 2 (dget 0 d.prec.descState (4096 * owner + h))

/-- The DPA of a descriptor entry. -/
def Dev.descAddr (d : Dev) (owner h : Nat) : Nat := dget 0 d.prec.descTable owner + 128 * h

/-- The stored image of a descriptor entry, zero when FREE (R450). -/
def Dev.descImage (d : Dev) (owner h : Nat) : Nat :=
  if d.descStateOf owner h = 0 then 0 else leNat (d.dpaReadAll 0x3000 256 (d.descAddr owner h) 128).2.1

/-- The memory that holds the viewed descriptor entry can be read (UNAVAILABLE of Table 18.3). -/
def Dev.descReadable (d : Dev) (p : Path) : Bool :=
  let s := d.sel p
  d.descStateOf s.descOwner s.descHandle = 0 || d.reachable (d.descAddr s.descOwner s.descHandle)

/-- The core has been dispatched a task of another tenant than its last and has yet to scrub LM for it (R32). -/
def Core.scrubs (c : Core) : Bool :=
  match c.task with
  | some t => c.state = 1 && c.boot = 0 && c.lastOwner ≠ t.owner
  | none => false

/-- The CORE_STATUS record of a core (Table 2.10); a core that has yet to scrub for its task reads SCRUBBING, with the last task's
tenant (assumption 75). -/
def Dev.coreStatus (d : Dev) (n : Nat) : Nat :=
  let c := d.core n
  let o := match if c.scrubs then none else c.task with
    | some t => t.owner
    | none => c.lastOwner
  let node := match if c.scrubs then none else c.task with
    | some t => t.node
    | none => 0
  let tandem := match c.task with
    | some t => t.tandem ≠ 0
    | none => false
  let chap := ((rangeFrom 0 16).find? fun k => bit (d.qtrs k) (n / 16)).getD 0
  (if c.scrubs then 3 else c.state) + b2n (o = 256) * 2 ^ 18 + b2n tandem * 2 ^ 19 + chap * 2 ^ 20 + (if o < 256 then o else 0) * 2 ^ 24 + node * 2 ^ 32

/-- A window's record as the view shows it (Table 10.3). -/
def Window.view (w : Window) (i : Nat) : Nat :=
  i + 2 ^ 7 + b2n w.r * 2 ^ 32 + b2n w.w * 2 ^ 33 + b2n w.x * 2 ^ 34 + w.home * 2 ^ 40 + w.policy * 2 ^ 42 + w.l2p * 2 ^ 44 +
    w.keySlot * 2 ^ 54 + b2n w.enc * 2 ^ 63 + w.base * 2 ^ 64 + w.size * 2 ^ 128 + w.hostBase * 2 ^ 192

/-- A horarium entry as stored (Table 13.2). -/
def HorEntry.code (e : HorEntry) : Nat :=
  e.owner + b2n e.pool * 2 ^ 9 + e.level * 2 ^ 10 + e.start * 2 ^ 32 + e.length * 2 ^ 64 + e.chapels * 2 ^ 96 + e.guard * 2 ^ 112

/-- An error log entry as read (Table 14.6). -/
def LogEntry.code (e : LogEntry) : Nat :=
  e.cause * 2 ^ 8 + e.detail * 2 ^ 16 + e.sev.code * 2 ^ 32 + b2n e.teardown * 2 ^ 34 + b2n e.preempted * 2 ^ 35 + b2n e.escalated * 2 ^ 36 +
    b2n e.folded * 2 ^ 37 + e.seq * 2 ^ 48 + e.info * 2 ^ 192 + e.addr * 2 ^ 256 + e.eng * 2 ^ 368 + e.owner * 2 ^ 387 +
    e.queue * 2 ^ 396 + e.graph * 2 ^ 400 + e.node * 2 ^ 416 + e.ftime * 2 ^ 448

/-- Queue state as read. -/
def QState.code : QState → Nat
  | .disabled => 0
  | .enabled => 1
  | .halted => 2

/-- What a queue object shows of the selected queue (Table 12.12). -/
def Queue.view (q : Queue) (s : Nat) : Nat :=
  match s with
  | 2 => q.pqBase
  | 3 => q.pqSlots
  | 4 => q.cqBase
  | 5 => q.cqSlots
  | 6 => q.timeout
  | 8 => q.state.code
  | 9 => q.get % 2 ^ 32 + q.put % 2 ^ 32 * 2 ^ 32
  | 10 => q.haltCause
  | 11 => q.late
  | _ => 0

/-- The present steering of the timebase in parts per billion: 50 ns in each ms while an offset is still to be slewed
(R774). -/
def Dev.steer (d : Dev) : Int := if 0 < d.fab.slew then 50000 else if d.fab.slew < 0 then -50000 else 0

/-- Rows by index. -/
def highestSub (i : Nat) : Nat := (objRowsOf i).foldl (fun m r => if r.il ≤ i && i ≤ r.ih then max m r.sh else m) 0

/-- The index is a RECORD: it has subindexes but no subindex 0 of its own. -/
def isRecord (i : Nat) : Bool := (objRow i 0).isNone && highestSub i ≠ 0

/-- Two bits of OBJ_INFO for a class's rights. -/
def infoRight (r : Nat) : Nat := r % 4

/-- OBJ_INFO of an object (Table 18.12). -/
def objInfo (i s : Nat) : Nat :=
  let pack := fun (r : ObjRow) (size type : Nat) =>
    type + r.eff * 2 ^ 8 + b2n r.persist * 2 ^ 16 + b2n (bit r.hk 2) * 2 ^ 17 + infoRight r.hk * 2 ^ 18 + infoRight r.ht * 2 ^ 20 +
      infoRight r.tc * 2 ^ 22 + infoRight r.fp * 2 ^ 24 + infoRight r.fw * 2 ^ 26 + size * 2 ^ 32
  match objRow i s with
  | some r => if s = 0 && r.sh ≠ 0 then pack r (r.sh + 1) 0x0E else pack r r.size r.type
  | none =>
    let rs := (objRowsOf i).filter fun r => r.il ≤ i && i ≤ r.ih
    let any := fun (f : ObjRow → Nat) => b2n (rs.any fun r => f r % 2 = 1)
    0x0F + any (·.hk) * 2 ^ 18 + any (·.ht) * 2 ^ 20 + any (·.tc) * 2 ^ 22 + any (·.fp) * 2 ^ 24 + any (·.fw) * 2 ^ 26 + highestSub i * 2 ^ 32

/-- The object that INFO_SEL names is defined. -/
def infoOk (v : Nat) : Bool := (objRow (v / 65536) (bits v 8 8)).isSome || (isRecord (v / 65536) && bits v 8 8 = 0)

/-- The value of element `e` of object `i`:`s` as path `p` reads it: a view of other state, or what the store holds. -/
def Dev.elem (d : Dev) (p : Path) (i s e : Nat) : Nat :=
  let sl := d.sel p
  match i, s with
  | 0x100C, 0 => ((beBytes 48 (Config.sha384 Config.identityCert))[e]?.getD 0).toNat
  | 0x1102, 1 => sl.infoSel
  | 0x1102, 2 => objInfo (sl.infoSel / 65536) (bits sl.infoSel 8 8)
  | 0x1120, 3 => match d.dict.inbound with
    | m :: _ => ((leBytes 32 (cantorHeader m) ++ m.payload)[e]?.getD 0).toNat
    | [] => 0
  | 0x1120, 4 => d.dict.inbound.length
  | 0x1200, 0 => d.time
  | 0x1204, 0 => ofSigned 32 d.steer
  | 0x3010, 0 => d.coreStatus e
  | 0x3041, 0 => (rangeFrom 0 64).foldl (fun a j => a + if opcDefined (64 * e + j) then 2 ^ j else 0) 0
  | 0x3430, 1 => sl.winOwner
  | 0x3430, 2 => sl.winIndex
  | 0x3430, 3 => match d.window sl.winOwner sl.winIndex with
    | some w => w.view sl.winIndex / 2 ^ (8 * e) % 256
    | none => 0
  | 0x3482, 0 => (d.prec.descState.filter fun x => x.1 / 4096 = e && x.2 = 1).length
  | 0x3490, 1 => sl.descOwner
  | 0x3490, 2 => sl.descHandle
  | 0x3490, 3 => d.descImage sl.descOwner sl.descHandle / 2 ^ (8 * e) % 256
  | 0x3490, 4 => d.descStateOf sl.descOwner sl.descHandle
  | 0x3490, 5 => d.descRefs sl.descOwner sl.descHandle
  | 0x4001, 0 => (d.prec.nodes.filter fun x => x.owner = e).length
  | 0x4010, 1 => sl.queueSel
  | 0x4010, _ => (d.queue sl.queueSel).view s
  | 0x40C5, 0 => d.funcState e
  | 0x4101, 0 => match d.prec.sched.active with
    | some t => match t.entries[e]? with
      | some x => x.code
      | none => 0
    | none => 0
  | 0x4200, _ => d.oget (okey i s e) + d.effMask s * 2 ^ 32
  | 0x4202, 0 => ofSigned 64 (dget 0 d.prec.sched.deficits e)
  | 0x4203, 1 => sl.acctOwner
  | 0x4203, 2 => dget 0 d.prec.sched.accounts (257 * e + sl.acctOwner)
  | 0x6003, 0 => [0, d.dieBytes, southBase, d.dieBytes][e]?.getD 0
  | 0x6040, 0 => match d.mem.pending[e]? with
    | some r => r.code
    | none => 0
  | 0x6041, 0 => d.mem.pending.length
  | 0x7404, 0 => d.fab.ops.length
  | 0x8010, 1 => sl.logSel
  | 0x8010, 2 => (d.errLog sl.logSel).entries.length
  | 0x8010, 3 => (d.errLog sl.logSel).overflow % 2 ^ 32
  | 0x8010, 4 => match (d.errLog sl.logSel).entries[e / 64]? with
    | some x => x.code / 2 ^ (8 * (e % 64)) % 256
    | none => 0
  | 0xA015, 0 => Config.agingBase e
  | 0x9041, 0 => (d.clr.armed.filter fun a => a.owner = e).length
  | 0x9051, 0 => b2n d.clr.snap.isSome
  | _, _ => d.oget (okey i s e)

/-! ### Checks of a read (Table 18.3) -/

/-- The objects that the ROM serves in phase RECOVERY (Table 20.11, R957). -/
def recoveryObj (i : Nat) : Bool :=
  [0x1010, 0x1011, 0x1012, 0x1014, 0x1015, 0x1016, 0x1018, 0x1019, 0x1020, 0x1021, 0x1022, 0x1023, 0x1024].contains i

/-- An HT caller names another tenant's object (R840). -/
def otherTenant (p : Path) (i : Nat) : Bool :=
  match p with
  | .ht t => decide (0x5100 ≤ i) && decide (i ≤ 0x51FF) && decide (i ≠ 0x5100 + t)
  | _ => false

/-- The object is defined for the caller (R842): in phase RECOVERY only those the ROM serves are. -/
def Dev.objOf (d : Dev) (i s : Nat) : Option ObjRow := if d.oget O.BOOT_PHASE = 6 && !recoveryObj i then none else objRow i s

/-- The status of reading subindex `s` before its length is looked at; a RECORD's subindex 0 is read by every class that may read a
member (R836). -/
def Dev.readCheck (d : Dev) (p : Path) (i s : Nat) : Nat :=
  match d.objOf i s with
  | some r =>
    if r.right p % 2 = 0 then stNoAccess
    else if otherTenant p i then stTenant
    else if i = 0x1102 && s = 2 && !infoOk (d.sel p).infoSel then stNoObject
    else 0
  | none =>
    if s = 0 && isRecord i && (d.objOf i (highestSub i)).isSome then
      let rs := (objRowsOf i).filter fun r => r.il ≤ i && i ≤ r.ih
      if !rs.any fun r => r.right p % 2 = 1 then stNoAccess else if otherTenant p i then stTenant else 0
    else stNoObject

/-- The object is a STR or DOMAIN. -/
def ObjRow.block (r : ObjRow) : Bool := 12 ≤ r.type

/-- Size of subindex `s` when it is a STR or DOMAIN. -/
def blockSize (i s : Nat) : Option Nat := (objRow i s).bind fun r => if r.block then some r.size else none

/-- The status of a burst that begins at `i`:`s`, by length: the subindexes a scalar burst reaches, or the bounds of a STR or DOMAIN
(R852). -/
def burstCheck (check : Nat → Nat) (i s off byte len : Nat) : Nat :=
  match blockSize i s with
  | some size =>
    let c := check s
    if c ≠ 0 then c else if size < 8 * off + byte + len then stLength else 0
  | none =>
    let c := (rangeFrom s (max 1 (len / 8))).foldl (fun c t =>
      if c ≠ 0 then c else if check t ≠ 0 then check t else if (blockSize i t).isSome then stLength else 0) 0
    if c ≠ 0 then c else if off ≠ 0 || byte ≠ 0 || len % 8 ≠ 0 then stLength else 0

/-- The value of a scalar subindex as it moves: 8 bytes, upper bytes zero. -/
def Dev.scalarRead (d : Dev) (p : Path) (i s : Nat) : Nat :=
  match objRow i s with
  | some _ => d.elem p i s 0
  | none => highestSub i

/-- Bytes `a` to `a + n - 1` of a STR or DOMAIN. -/
def Dev.blockRead (d : Dev) (p : Path) (r : ObjRow) (i s a n : Nat) : List Byte :=
  let lo := a / r.ew
  let es := (rangeFrom lo ((a + n - 1) / r.ew + 1 - lo)).flatMap fun e => leBytes r.ew (d.elem p i s e)
  (es.drop (a % r.ew)).take n

/-- The objects that a read by HK clears are cleared. -/
def Dev.readClears (d : Dev) (p : Path) (i : Nat) (ss : List Nat) : Dev :=
  ss.foldl (fun d s =>
    match objRow i s with
    | some r => if bit (r.right p) 2 then d.oset (okey i s 0) 0 else d
    | none => d) d

/-- A read of `len` bytes in one atomic access: the bytes, or the status of the refusal, which is counted in DICT_REFUSALS. -/
def Dev.dictRead (d : Dev) (p : Path) (i s off byte len : Nat) : Dev × Except Nat (List Byte) :=
  let c := burstCheck (d.readCheck p i) i s off byte len
  let c := if c = 0 && i = 0x3490 && s = 3 && !d.descReadable p then stUnavailable else c
  if c ≠ 0 then (d.oinc O.DICT_REFUSALS, .error c)
  else
    match objRow i s, blockSize i s with
    | some r, some _ => (d, .ok (d.blockRead p r i s (8 * off + byte) len))
    | _, _ =>
      let ss := rangeFrom s (len / 8)
      (d.readClears p i ss, .ok (ss.flatMap fun t => leBytes 8 (d.scalarRead p i t)))

end Sys2Proof.Machine
end

