-- ==== Sys2Proof/Machine/DictWrite.lean ====
section
/-! DEFINITION. Machine/DictWrite.lean: writing the object dictionary (chapter 18): the checks of Table 18.3 for writes, the
selectors, and the effect of a write on each object that has one beyond its value. -/

namespace Sys2Proof.Machine

/-! ### Checks -/

/-- The status of writing subindex `s` before its length and value are looked at. -/
def Dev.writeCheck (d : Dev) (p : Path) (i s : Nat) : Nat :=
  match d.objOf i s with
  | some r => if !bit (r.right p) 1 then stNoAccess else if otherTenant p i then stTenant else 0
  | none => if s = 0 && isRecord i && (d.objOf i (highestSub i)).isSome then stNoAccess else stNoObject

/-- A scalar value is one its type and stated range allow (R12, R837). -/
def ObjRow.inRange (r : ObjRow) (v : Nat) : Bool := r.lo ≤ v && v ≤ r.hi

/-- Only Sahcy writes the object: its value follows state that other rules change (R1063). -/
def ObjRow.derived (r : ObjRow) : Bool := !bit r.hk 1 && !bit r.ht 1 && !bit r.tc 1 && !bit r.fp 1

/-- The check of a value: accept it, or refuse it with a status. -/
def need (ok : Bool) (status : Nat) (d : Dev) : WRes := if ok then .ok d else .error status

/-- Change the selectors of a path (R841). -/
def Dev.setSel (d : Dev) (p : Path) (f : Selectors → Selectors) : Dev :=
  let k := selKey p
  { d with dict := { d.dict with sels := dset Selectors.reset d.dict.sels k (f (dget Selectors.reset d.dict.sels k)) } }

/-- The owner an HT caller may name: its own tenant (R840). -/
def htNames (p : Path) (owner : Nat) : Bool :=
  match p with
  | .ht t => owner = t
  | _ => true

/-- A write of a selector (R841), none for another object. -/
def Dev.writeSel (d : Dev) (p : Path) (i s v : Nat) : Option WRes :=
  match i, s with
  | 0x1102, 1 => some (if v % 256 = 0 then .ok (d.setSel p fun x => { x with infoSel := v }) else .error stRange)
  | 0x3430, 1 => some (.ok (d.setSel p fun x => { x with winOwner := v }))
  | 0x3430, 2 => some (.ok (d.setSel p fun x => { x with winIndex := v }))
  | 0x3490, 1 => some (.ok (d.setSel p fun x => { x with descOwner := v }))
  | 0x3490, 2 => some (.ok (d.setSel p fun x => { x with descHandle := v }))
  | 0x4203, 1 => some (.ok (d.setSel p fun x => { x with acctOwner := v }))
  | 0x4010, 1 => some (if htNames p (v / 16) then .ok (d.setSel p fun x => { x with queueSel := v }) else .error stTenant)
  | 0x8010, 1 => some (if htNames p v then .ok (d.setSel p fun x => { x with logSel := v }) else .error stTenant)
  | _, _ => none

/-! ### Writes with an effect, by chapter -/

/-- Reset, boot and flash objects (chapter 20), the crypt (chapter 23) and the values the JT-16 mirrors (chapter 22). -/
def Dev.writeBoot (d : Dev) (i s v : Nat) : Option WRes :=
  match i, s with
  | 0x1012, 0 => some (.ok (d.resetRequest v))
  | 0x1014, 0 => some (.ok (d.bootPrefer v))
  | 0x1017, 0 => some (d.bootConfirm v)
  | 0x101B, 0 => some (d.keyRevoke v)
  | 0x1020, 0 => some (need (v % 4096 = 0) stRange (d.oset O.FLASH_ADDR v))
  | 0x1022, 0 => some (d.flashCtrl v)
  | 0xA004, 0 => some (.ok d.lifeCommit)
  | 0xB002, 0 => some (need (v < 16 || v = 255) stRange (d.oset O.TRAY_SLOT v))
  | 0xB003, 1 => some (.ok (d.utcSet v))
  | 0xB006, 0 => some (need (v < 2048) stRange (d.oset O.TRAY_ALARMS v))
  | _, _ => none

/-- A clock bound is a multiple of 25 MHz (R892); a write of it ends its clamp (R906). -/
def Dev.clockBound (d : Dev) (i k v bound : Nat) : WRes :=
  need (v % 25 = 0 && (400 ≤ v || v = 0)) stRange ((d.oset (okey i k 0) v).clampEnd fun c => c = 2 * 65536 + bound * 256 + k)

/-- Power objects (chapter 19). -/
def Dev.writePower (d : Dev) (i s v : Nat) : Option WRes :=
  let set := d.oset (okey i s 0) v
  match i with
  | 0x2001 => some (d.pdCtrl s v)
  | 0x2012 => some (d.clockBound i s v 1)
  | 0x2013 => some (need (v % 25 = 0) stRange set)
  | 0x2014 => some (need (v % 25 = 0) stRange set)
  | 0x2015 => some (d.clockBound i s v 2)
  | 0x2101 => some (.ok (set.clampEnd fun c => c / 256 = 256 + 4))
  | 0x2102 => some (.ok (set.clampEnd fun c => c = 65536 + 7 * 256 + s))
  | 0x2106 => some (need (v ≤ d.oget (okey 0x2107 s 0)) stRange (set.clampEnd fun c => c / 256 = 5 * 256 + 6 && c % 256 / 128 = s))
  | 0x2107 => some (need (d.oget (okey 0x2106 s 0) ≤ v) stRange (set.clampEnd fun c => c / 256 = 5 * 256 + 6 && c % 256 / 128 = s))
  | 0x2108 => some (.ok (set.clampEnd fun c => c / 256 = 5 * 256 + 7 && c % 256 / 128 = s))
  | 0x4103 => some (need (v % 25 = 0) stRange (set.clampEnd fun c => c / 256 = 2 * 256 + 3))
  | _ => none

/-- Cache and stream objects (chapters 7 and 8). -/
def Dev.writeCache (d : Dev) (i s v : Nat) : Option WRes :=
  let set := d.oset (okey i s 0) v
  match i, s with
  | 0x3210, _ => some (need (v < 2 ^ 17) stRange set.auditAll)
  | 0x3213, _ => some (.ok (if v = 0 then { set with l2 := { d.l2 with dets := [] } } else set))
  | 0x3220, 1 => some (need (v ≤ 2) stRange set)
  | 0x3220, 4 => some (need (v % 128 = 0) stRange set)
  | 0x3220, 5 => some (need (v % 128 = 0) stRange set)
  | 0x3220, 6 => some (if d.pd 2 ≠ 2 || d.pd 3 ≠ 2 then .error stUnavailable else d.maintGo)
  | 0x3420, 1 => some (d.faultBase v)
  | 0x3420, 4 => some (d.faultGet v)
  | _, _ => none

/-- A number is a power of two. -/
def isPow2 (v : Nat) : Bool := v ≠ 0 && v &&& (v - 1) = 0

/-- Write a field of the selected queue, which must be DISABLED (R555). -/
def Dev.queueField (d : Dev) (k : Nat) (f : Queue → Queue) : WRes :=
  if (d.queue k).state ≠ .disabled then .error stState else .ok (d.onQueue k f)

/-- Queue objects, the host port and error logs (chapters 11, 12 and 14). -/
def Dev.writeQueue (d : Dev) (p : Path) (i s v : Nat) : Option WRes :=
  let k := (d.sel p).queueSel
  match i, s with
  | 0x4010, 2 => some (if v < 2 ^ 52 then d.queueField k fun q => { q with pqBase := v } else .error stRange)
  | 0x4010, 3 => some (if isPow2 v then d.queueField k fun q => { q with pqSlots := v } else .error stRange)
  | 0x4010, 4 => some (if v < 2 ^ 52 then d.queueField k fun q => { q with cqBase := v } else .error stRange)
  | 0x4010, 5 => some (if isPow2 v then d.queueField k fun q => { q with cqSlots := v } else .error stRange)
  | 0x4010, 6 => some (.ok (d.onQueue k fun q => { q with timeout := v }))
  | 0x4010, 7 => some (if d.pd 1 ≠ 2 then .error stUnavailable else d.queueCtrl k v)
  | 0x40C4, 0 => some (.ok (Dev.hostReadsGo (d.oset O.HOST_OUTSTANDING_MAX v) 1024))
  | 0x8010, 5 => some (d.logPop (d.sel p).logSel v)
  | _, _ => none

/-- The memory domain of a die serves its controllers. -/
def Dev.memPowered (d : Dev) (die : Nat) : Bool := d.pd (14 + die) = 2 || d.pd (14 + die) = 3

/-- Memory objects (chapter 15): retirement, test state, and the generators. -/
def Dev.writeMemory (d : Dev) (i s v : Nat) : Option WRes :=
  let set := d.oset (okey i s 0) v
  let ch := i - 0x6100
  let size := 32 * d.pcSectors
  if i = 0x6011 then some (if !d.memPowered (bits v 4 1) then .error stUnavailable else d.groupCtrl v)
  else if i = 0x6042 then some (d.retireAck v)
  else if i = 0x6043 then some (d.retireAdd v)
  else if i / 256 ≠ 0x61 then none
  else
    match s with
    | 1 => some (if !d.memPowered (ch / 128) then .error stUnavailable else .ok (if v = 1 then d.tgStart ch else d.tgStop ch))
    | 3 => some (need (v ≤ 3) stRange set)
    | 7 => some (need (v % 32 = 0 && v + d.oget (O.TG_LENGTH ch) ≤ size) stRange set)
    | 8 => some (need (v % 32 = 0 && d.oget (O.TG_BASE ch) + v ≤ size) stRange set)
    | _ => none

/-- Fabric objects (chapter 16). -/
def Dev.writeFabric (d : Dev) (i s v : Nat) : Option WRes :=
  let set := d.oset (okey i s 0) v
  let port := decide (v < 20) || decide (v = 255)
  if i = 0x7010 then
    match s with
    | 1 => some (.ok set.timeEval)
    | 2 => some (need port stRange set.timeEval)
    | 3 => some (need port stRange set.timeEval)
    | 7 => some (need (d.oget O.TIME_ROOT = 1) stRange (d.timeSet v))
    | _ => none
  else if i / 256 = 0x71 then
    let l := i - 0x7100
    match s with
    | 1 => some (.ok (d.linkEnable l v))
    | 4 => some (.ok (set.clampEnd fun c => c = 4 * 65536 + 7 * 256 + l))
    | 5 => some (need (v ≤ d.oget (O.EQ_PRESET_MAX l)) stRange (set.clampEnd fun c => c = 4 * 65536 + 5 * 256 + l))
    | 6 => some (need (d.oget (O.EQ_PRESET_MIN l) ≤ v) stRange (set.clampEnd fun c => c = 4 * 65536 + 5 * 256 + l))
    | _ => none
  else none

/-- Remove the oldest inbound message (R863). -/
def Dev.rxPop (d : Dev) : Dev := { d with dict := { d.dict with inbound := d.dict.inbound.drop 1 } }

/-- Dictionary and Cantor objects (chapter 18), and the Clerestory's (chapter 21). -/
def Dev.writeMgmt (d : Dev) (i s v : Nat) : Option WRes :=
  let set := d.oset (okey i s 0) v
  match i, s with
  | 0x1120, 5 => some (.ok d.rxPop)
  | 0x1130, _ => some (need (bits v 14 1 = 0 && bits v 12 2 ≠ 3 && v < 2 ^ 24) stRange (set.persist (okey i s 0)))
  | 0x9010, 1 => some (d.clrBase v)
  | 0x9010, 3 => some (need (v % 4096 = 0 && 65536 ≤ v) stRange set)
  | 0x9020, 1 => some (need (v = 0 || 10 ≤ v) stRange set)
  | 0x9030, _ => some (.ok d.latch)
  | 0x9050, _ => some (if bits v 9 7 ≠ 0 || 256 < bits v 0 9 then .error stRange else d.snapRequest v)
  | _, _ => none

/-- Write scalar `v` to an object whose rights, length and type allow it: its range, its effect, and its persistence (R843, R844,
R1061). -/
def Dev.scalarWrite (d : Dev) (p : Path) (i s v : Nat) : WRes :=
  match objRow i s with
  | none => .error stNoObject
  | some r =>
    if r.derived then .ok d
    else if !r.inRange v then .error stRange
    else
      ((d.writeSel p i s v).orElse fun _ => (d.writeBoot i s v).orElse fun _ => (d.writePower i s v).orElse fun _ =>
        (d.writeCache i s v).orElse fun _ => (d.writeQueue p i s v).orElse fun _ => (d.writeMemory i s v).orElse fun _ =>
        (d.writeFabric i s v).orElse fun _ => d.writeMgmt i s v).getD
        (.ok (if r.persist then d.osetP (okey i s 0) v else d.oset (okey i s 0) v))

/-! ### STR and DOMAIN objects -/

/-- A stored element of a DOMAIN is one its table allows. -/
def elemOk (i e v : Nat) : Bool :=
  match i with
  | 0x3211 => v ≠ 0
  | 0x3305 => v < 16 || v = 255
  | 0x7003 => bits v 25 3 = 0 && bits v 15 5 = 0 && bits v 5 5 = 0 && bits v 0 5 < 20 && bits v 10 5 < 20 && bits v 20 5 < 20
  | 0x9040 => if e % 2 = 0 then v % 4096 = 0 && v < 2 ^ 52 else v / 2 ^ 32 = 0 && (v = 0 || (v % 4096 = 0 && 65536 ≤ v))
  | _ => true

/-- The effect of writing element `e` of a DOMAIN. -/
def Dev.elemWrite (d : Dev) (i s e v : Nat) : Dev :=
  let k := okey i s e
  let old := d.oget k
  let d := d.oset k v
  match i with
  | 0x3211 => { d with l2 := { d.l2 with lfsr := [] } }
  | 0x3305 => { d with dict := { d.dict with nextFrame := if (mget d.dict.nextFrame k).isSome then d.dict.nextFrame else mset d.dict.nextFrame k old } }
  | 0x9040 => if v = old then d else d.setWring (e / 2) ⟨0, 0⟩
  | _ => d

/-- Bytes `a` onward of an element list with `bs` written over. -/
def overwrite (old : List Byte) (a : Nat) (bs : List Byte) : List Byte := old.take a ++ bs ++ old.drop (a + bs.length)

/-- The message a write of CANTOR_TX describes: header fields and payload (R863). -/
def cantorTxOf (bs : List Byte) : CantorMsg :=
  let h := leNat (bs.take 32)
  { cantorZero with
    dest := bits h 0 12, destEp := bits h 106 2, op := bits h 120 3, byte := bits h 185 3, length := bits h 188 12, sub := bits h 200 8,
    index := bits h 208 16, offset := bits h 224 32, payload := (bs.drop 32).take (if bits h 120 3 = 2 then bits h 188 12 + 1 else
      if bits h 120 3 = 4 then 32 else 0) }

/-- Send the message of CANTOR_TX (R863, R866): one that wants a response waits for it. -/
def Dev.cantorTx (d : Dev) (m : CantorMsg) : WRes :=
  let big := fun n => decide (m.op = n) && decide (256 ≤ m.length)
  if m.op = 0 || 4 < m.op || m.destEp = 3 || big 1 || big 2 then .error stRange
  else if d.oget O.CANTOR_TX_STATUS = 1 then .error stState
  else if m.payload.length ≠ (if m.op = 2 then m.length + 1 else if m.op = 4 then 32 else 0) then .error stProtocol
  else
    let m := { m with srcEp := 2, origin := 0, resp := false }
    if m.op = 4 then .ok ((d.oset O.CANTOR_TX_STATUS 2).sendCantor m)
    else
      let w : CantorWait := ⟨if d.dict.count < 2 ^ 32 then d.dict.count else 1, m.dest, d.time + 1000 * d.oget O.CANTOR_TIMEOUT⟩
      .ok (Dev.sendCantor (Dev.oset { d with dict := { d.dict with waits := [w] } } O.CANTOR_TX_STATUS 1) m)

/-- Write bytes `a` to `a + bs.length - 1` of a DOMAIN. -/
def Dev.blockWrite (d : Dev) (r : ObjRow) (i s a : Nat) (bs : List Byte) : WRes :=
  if r.derived then .ok d
  else if i = 0x1120 then (if a ≠ 0 || bs.length < 32 then .error stProtocol else d.cantorTx (cantorTxOf bs))
  else
    let lo := a / r.ew
    let n := (a + bs.length - 1) / r.ew + 1 - lo
    let old := (rangeFrom lo n).flatMap fun e => leBytes r.ew (d.oget (okey i s e))
    let new := overwrite old (a - lo * r.ew) bs
    let es := (rangeFrom 0 n).map fun j => (lo + j, leNat ((new.drop (j * r.ew)).take r.ew))
    if es.any fun e => !elemOk i e.1 e.2 then .error stRange
    else
      let d := es.foldl (fun (d : Dev) (e : Nat × Nat) => d.elemWrite i s e.1 e.2) d
      .ok (if i = 0x3305 then d.auditAll else d)

/-! ### One access -/

/-- The words of a scalar burst. -/
def wordsOf : Nat → List Byte → List Nat
  | 0, _ => []
  | n + 1, bs => leNat (bs.take 8) :: wordsOf n (bs.drop 8)

/-- Apply a scalar burst from subindex `s` upward: each is judged, and takes effect, after the ones below it (R852). -/
def Dev.scalarsWrite (d : Dev) (p : Path) (i s : Nat) : List Nat → WRes
  | [] => .ok d
  | v :: vs =>
    match d.scalarWrite p i s v with
    | .ok d => Dev.scalarsWrite d p i (s + 1) vs
    | .error c => .error c

/-- A write of bytes in one atomic access (R845, R847): the device after it and the status; a refused one changes nothing and is
counted in DICT_REFUSALS. -/
def Dev.dictWrite (d : Dev) (p : Path) (i s off byte : Nat) (bs : List Byte) : Dev × Nat :=
  let c := burstCheck (d.writeCheck p i) i s off byte bs.length
  if c ≠ 0 then (d.oinc O.DICT_REFUSALS, c)
  else
    let r : WRes :=
      match objRow i s, blockSize i s with
      | some r, some _ => d.blockWrite r i s (8 * off + byte) bs
      | _, _ => d.scalarsWrite p i s (wordsOf (bs.length / 8) bs)
    match r with
    | .ok d => (d, 0)
    | .error c => (d.oinc O.DICT_REFUSALS, c)

end Sys2Proof.Machine
end

