-- ==== Sys2Proof/Machine/Packet.lean ====
section
/-! DEFINITION. Machine/Packet.lean: the packets of a queue: their header, classes and fields (Tables 12.2, 12.5, 12.6) and the
three checks of R566. -/

namespace Sys2Proof.Machine

/-! ### Header and classes (R554, R564) -/

/-- OPC. -/
def pkOpc (p : Nat) : Nat := bits p 0 8
/-- CR. -/
def pkCr (p : Nat) : Bool := bit p 8
/-- IRQ. -/
def pkIrq (p : Nat) : Bool := bit p 9
/-- GRAPH. -/
def pkGraph (p : Nat) : Nat := bits p 16 16
/-- NODE. -/
def pkNode (p : Nat) : Nat := bits p 32 32

/-- The opcode creates a node (Table 12.2). -/
def isNodeOp (o : Nat) : Bool := o = 1 || (4 ≤ o && o ≤ 0x0B)

/-- The opcode acts on device state and belongs to no graph (Table 12.2). -/
def isQueueOp (o : Nat) : Bool := (0x0C ≤ o && o ≤ 0x0E) || (0x80 ≤ o && o ≤ 0x88)

/-- The opcode is defined (Table 12.2). -/
def opDefined (o : Nat) : Bool := isNodeOp o || isQueueOp o || o = 2 || o = 3

/-- Only kernel queues may carry the opcode. -/
def kernelOnly (o : Nat) : Bool := 0x80 ≤ o

/-! ### Body fields (Table 12.6) -/

/-- The named fields of an opcode's body: low bit and width. -/
def bodyFields (o : Nat) : List (Nat × Nat) :=
  match o with
  | 0x01 => [(64, 178), (248, 256)]
  | 0x02 => [(64, 4), (96, 416)]
  | 0x03 => [(64, 1)]
  | 0x04 => [(64, 2), (96, 32), (128, 128)]
  | 0x05 => [(64, 2), (96, 32), (128, 128)]
  | 0x06 => [(64, 13), (128, 128), (256, 40)]
  | 0x07 => [(64, 24), (128, 144)]
  | 0x08 => [(64, 36), (128, 92)]
  | 0x09 => [(128, 64)]
  | 0x0A => [(64, 64), (128, 384)]
  | 0x0C => [(64, 1)]
  | 0x0D => [(64, 16), (128, 64)]
  | 0x0E => [(64, 16)]
  | 0x80 => [(64, 6), (96, 16)]
  | 0x81 => [(64, 11), (96, 160)]
  | 0x82 => [(64, 8), (80, 16)]
  | 0x83 => [(64, 9), (128, 6), (135, 1), (160, 3), (168, 8), (182, 202)]
  | 0x84 => [(64, 15)]
  | 0x85 => [(64, 17), (128, 128)]
  | 0x86 => [(64, 9), (128, 149)]
  | 0x87 => [(64, 45), (256, 256)]
  | 0x88 => [(64, 43)]
  | _ => []

/-- Every bit from 64 upward outside the named fields is 0 (R567, R568). -/
def reservedZero (o p : Nat) : Bool := ((bodyFields o).foldl (fun x f => setBits x f.1 f.2 0) p) / 2 ^ 64 = 0

/-- A device virtual address field that is a multiple of `m` (R5, R568). -/
def vaOk (p lo m : Nat) : Bool := bits p lo 64 < 2 ^ 52 && bits p lo 64 % m = 0

/-- Predecessor `i` of an EDGE. -/
def edgePred (p i : Nat) : Nat := bits p (96 + 32 * i) 32

/-- COUNT of an EDGE. -/
def edgeCount (p : Nat) : Nat := bits p 64 4

/-- NAME and HASH of a WATCH obey R431 and R973. -/
def watchOk (p : Nat) : Bool :=
  let name := bits p 128 384
  let l := nameBytes name
  (name / 2 ^ (8 * l.length) = 0) && l.all (fun b => 0x20 ≤ b.toNat && b.toNat ≤ 0x7E) &&
    bits p 96 32 = (if l.isEmpty then 0 else nameHash l)

/-- Header ranges (R565). -/
def headerOk (p : Nat) : Bool :=
  let o := pkOpc p
  bits p 10 6 = 0 &&
    (if isQueueOp o then pkGraph p = 0 && pkNode p = 0
     else if o = 3 then pkGraph p ≠ 0 && pkNode p = 0
     else pkGraph p ≠ 0 && pkNode p ≠ 0)

/-- Ranges of a body (R26, R28, R565, R567, R568) on a chip with an ID. -/
def rangesOk (chip p : Nat) : Bool :=
  match pkOpc p with
  | 0x01 =>
    (rangeFrom 0 16).all (fun i => bit (tkSlots p) i || tkHandle p i = 0) && !(tkTandem p && tkGang p ≠ 1) &&
      bits p 224 14 ≤ 10000 && tkStreams p ≤ 16 && cdiv (tkChoirs p) 4 * tkRegs p ≤ 512
  | 0x02 =>
    1 ≤ edgeCount p && edgeCount p ≤ 13 && (rangeFrom 0 13).all fun i => decide (edgePred p i = 0) = decide (edgeCount p ≤ i)
  | 0x04 => if bit p 64 then bits p 128 64 < 2 ^ 19 && bits p 128 64 % 8 = 0 else bits p 96 32 = 0 && vaOk p 128 8
  | 0x05 => vaOk p 128 8
  | 0x06 =>
    vaOk p 128 32 && vaOk p 192 32 && cpLength p ≠ 0 && cpLength p % 32 = 0 && (cpRemote p || cpChip p = chip)
  | 0x07 => vaOk p 128 64 && vaOk p 192 64
  | 0x08 =>
    bits p 64 8 ≤ 4 && bits p 72 4 ≤ 3 && vaOk p 128 64 && !(bits p 64 8 = 0 && bits p 76 24 ≠ 0)
  | 0x09 => vaOk p 128 8
  | 0x0A => watchOk p
  | 0x0D => vaOk p 128 128
  | 0x81 =>
    1 ≤ bits p 64 11 && bits p 64 11 ≤ 1024 && 10 ≤ bits p 96 32 && bits p 96 32 ≤ 10000000 && vaOk p 128 16
  | 0x83 => bits p 64 9 ≤ 256 && bits p 170 2 ≠ 3 && bits p 192 64 < 2 ^ 52
  | 0x84 => bits p 64 9 ≤ 256
  | 0x85 =>
    let m := bits p 64 2
    bits p 66 9 ≤ 256 && !(m = 0 && bits p 66 9 ≠ 0) && !(m ≠ 2 && bits p 75 6 ≠ 0) &&
      (if m = 3 then vaOk p 128 65536 && bits p 192 64 % 65536 = 0 else bits p 128 128 = 0)
  | 0x86 =>
    if bit p 72 then bits p 128 149 = 0
    else 1 ≤ bits p 256 21 && bits p 256 21 ≤ 1048576 && bits p 192 64 % 524288 = 0
  | 0x88 => bits p 96 9 ≤ 256 && !(bit p 105 && bits p 96 9 ≠ 0)
  | _ => true

/-- The cause that a packet halts its queue with, if any (R566): 0x0B ERR_ILLEGAL_PACKET, 0x0C ERR_PRIVILEGE. -/
def packetCheck (chip owner p : Nat) : Option Nat :=
  if !opDefined (pkOpc p) then some 0x0B
  else if kernelOnly (pkOpc p) && owner ≠ 256 then some 0x0C
  else if !(reservedZero (pkOpc p) p && headerOk p && rangesOk chip p) then some 0x0B
  else none

end Sys2Proof.Machine
end

