-- ==== Sys2Proof/Machine/Accept.lean ====
section
/-! DEFINITION. Machine/Accept.lean: what the precentor does with a packet it accepts: nodes, edges and seals of graphs, descriptors,
windows, chapels, the horarium, tenants, dictionary writes and resumptions (chapters 9, 10, 12, 13, 14). -/

namespace Sys2Proof.Machine

/-! ### Refusals and the opening of graphs (R572 to R576) -/

/-- A refusal that names an OPEN graph fails it: none of its nodes is executed, and it ends at its SEAL (R575). -/
def Dev.failOpen (d : Dev) (owner queue id cause detail first : Nat) : Dev :=
  match d.graph owner queue id with
  | none => d
  | some g =>
    if g.isSealed || g.failed then d
    else
      let d := (d.prec.nodes.filter fun x => x.ofGraph owner queue id && !x.state.ended).foldl (fun d x => d.nodeEnd x .cancelled) d
      d.onGraph owner queue id fun g => { g with failed := true, firstFailed := first, cause := cause, detail := detail }

/-- A packet is refused: its record, the log entry (R602), and its OPEN graph fails. -/
def Dev.refuse (d : Dev) (k n p cause detail : Nat) : Dev :=
  let d := d.raise { cause := cause, detail := detail, owner := k / 16, queue := k % 16, graph := pkGraph p, node := pkNode p }
  let d := d.post k { CRec.zero with packet := n, node := pkNode p, opcode := pkOpc p, graph := pkGraph p, cause := cause,
                                     detail := detail, kind := 3, irq := pkIrq p }
  d.failOpen (k / 16) (k % 16) (pkGraph p) cause detail (pkNode p)

/-- A graph opens; the queue's timer runs from the opening of its first live graph (R572, R588). -/
def Dev.graphOpen (d : Dev) (k id : Nat) : Dev :=
  let idle := !(d.prec.graphs.any fun g => g.owner = k / 16 && g.queue = k % 16)
  let d := if idle then d.onQueue k fun q => { q with lastDone := d.time } else d
  { d with prec := { d.prec with graphs := d.prec.graphs ++ [Graph.mk (k / 16) (k % 16) id false false false 0 false 0 0 0 0] } }

/-! ### Nodes -/

/-- The distinct elements of a list. -/
def distinct (l : List Nat) : List Nat := l.foldl (fun m x => if m.contains x then m else m ++ [x]) []

/-- Slots of a TASK that a mask names, with their handles. -/
def slotHandles (mask p : Nat) : List (Nat × Nat) :=
  (rangeFrom 0 16).filterMap fun i => if bit mask i then some (i, tkHandle p i) else none

/-- Descriptor handles a node names (R419). -/
def nodeHandles (p : Nat) : List Nat :=
  match pkOpc p with
  | 1 => distinct ((slotHandles (tkSlots p) p).map (·.2))
  | 7 => distinct [(fxHandles 7 p).1, (fxHandles 7 p).2]
  | 8 => if bits p 64 8 = 0 then [] else distinct [(fxHandles 8 p).1, (fxHandles 8 p).2]
  | _ => []

/-- Two byte ranges are disjoint. -/
def rangesApart (a b : Nat × Nat) : Bool := decide (a.2 ≤ b.1) || decide (b.2 ≤ a.1)

/-- A TASK is restartable (R577, R445): not NORESTART, named by no SIGNAL, no slot in both masks, and every OUT footprint disjoint
from every IN footprint and from the stream table. -/
def taskRestartable (p : Nat) (named : Bool) (descs : List (Nat × Nat)) : Bool :=
  let foot := fun (m : Nat) => (descs.filter fun e => bit m e.1).map fun e => (tdBase e.2, tdEnd e.2)
  let table := (tkTable p, tkTable p + 64 * tkStreams p * tkGang p)
  !tkNoRestart p && !named && (tkIn p &&& tkOut p) = 0 &&
    (foot (tkOut p)).all fun o => (foot (tkIn p)).all (rangesApart o) && (tkStreams p = 0 || rangesApart o table)

/-- The node of a packet, before its mark is known. -/
def nodeOf (k n p order : Nat) : Node :=
  { owner := k / 16, queue := k % 16, graph := pkGraph p, id := pkNode p, opc := pkOpc p, body := p, count := n, cr := pkCr p,
    irq := pkIrq p, state := .accepted, preds := [], left := 0, restartable := false, dispatches := 0,
    order := order, readyAt := 0, dispatchedAt := 0, firstDispatch := 0, core := 0, reports := [],
    refs := nodeHandles p, lastPages := [], noProgress := 0, mismatches := 0, unverified := false, grace := false, chapel := 0,
    pool := false, counted := false, avoid := none, noted := false, notBefore := 0, tablePoison := false, eccLast := none,
    timerSpent := false }

/-- A SIGNAL of the graph names the node as its target. -/
def Dev.signalled (d : Dev) (k p : Nat) : Bool :=
  d.prec.nodes.any fun y => y.ofGraph (k / 16) (k % 16) (pkGraph p) && y.opc = 4 && bit y.body 64 && bits y.body 96 32 = pkNode p

/-- The node joins its graph. -/
def Dev.nodeAdd (d : Dev) (x : Node) : Dev :=
  { d with prec := { d.prec with nodes := d.prec.nodes ++ [x], nextOrder := d.prec.nextOrder + 1 } }

/-- The mark of a node that is no TASK (R579, R814): a COPY by its ranges; SIGNAL, WAIT and TIMESTAMP always; RESHARD and COLLECTIVE
at dispatch, when their maps are read; of WATCH and NOP the spec states none, and the mark is a free value (assumption 40). -/
def Dev.nodeMark (d : Dev) (p : Nat) : Dev × Bool :=
  match pkOpc p with
  | 6 => (d, apart (cpSrc p) (cpLength p) (cpDst p) (cpLength p) || cpRemote p)
  | 7 => (d, false)
  | 8 => (d, false)
  | 0x0A => (d.freed, bit (d.freeBits 1) 0)
  | 0x0B => (d.freed, bit (d.freeBits 1) 0)
  | _ => (d, true)

/-- A node packet whose graph takes it: its descriptors, its target and its mark (R418, R576, R577, R579, R582). A TASK whose stored
descriptor has an uncorrectable error is never dispatched, and its node fails at once (R448). -/
def Dev.nodeTake (d : Dev) (k n p : Nat) : Dev :=
  let owner := k / 16
  let x := nodeOf k n p d.prec.nextOrder
  if x.refs.any (fun h => d.descStateOf owner h ≠ 1) then d.refuse k n p 4 0
  else if pkOpc p = 1 then
    match d.readDescs owner (slotHandles (tkSlots p) p) with
    | (d, .inr h) => (d.nodeAdd x).nodeFail x 5 0 .note { Report.none with addr := h }
    | (d, .inl descs) =>
      let named := d.signalled k p
      d.nodeAdd { x with restartable := taskRestartable p named descs }
  else
    let t := d.nodeIn owner (k % 16) (pkGraph p) (bits p 96 32)
    let bad := pkOpc p = 4 && bit p 64 && (match t with
      | some y => decide (y.opc ≠ 1)
      | none => false)
    if bad then d.refuse k n p 0x31 0x0B
    else
      let (d, mark) := d.nodeMark p
      d.nodeAdd { x with restartable := mark }

/-- The device pool, or a tenant's quota, is exhausted. -/
def Dev.poolFull (d : Dev) (owner : Nat) : Bool :=
  decide (d.oget O.NODE_POOL ≤ d.prec.nodes.length) ||
    (owner ≠ 256 && decide (dget 0 d.prec.quota owner ≤ (d.prec.nodes.filter fun x => x.owner = owner).length))

/-- A node packet (R572, R575, Table 12.11). A graph that has ended keeps its number until its record is written, and a packet that names it
is refused as one that names a SEALED graph (assumption 83). -/
def Dev.acceptNode (d : Dev) (k n p : Nat) : Dev :=
  let owner := k / 16
  let id := pkGraph p
  let mine := d.prec.nodes.filter fun x => x.ofGraph owner (k % 16) id
  match d.graph owner (k % 16) id with
  | some g =>
    if g.isSealed then d.refuse k n p 0x31 1
    else if g.failed then d
    else if mine.any (fun x => x.id = pkNode p) then d.refuse k n p 0x31 2
    else if 65536 ≤ mine.length then d.refuse k n p 0x31 6
    else if d.poolFull owner then d.refuse k n p 0x31 7
    else d.nodeTake k n p
  | none =>
    if d.graphEnding k id then d.refuse k n p 0x31 1
    else if 64 ≤ (d.prec.graphs.filter fun g => g.owner = owner && g.queue = k % 16).length then d.refuse k n p 0x31 8
    else
      let d := d.graphOpen k id
      if d.poolFull owner then d.refuse k n p 0x31 7 else d.nodeTake k n p

/-! ### EDGE and SEAL (R573, R574) -/

/-- An EDGE (R574, R575). -/
def Dev.acceptEdge (d : Dev) (k n p : Nat) : Dev :=
  let owner := k / 16
  let id := pkGraph p
  let find := fun i => d.nodeIn owner (k % 16) id i
  let preds := distinct ((rangeFrom 0 (edgeCount p)).map (edgePred p))
  match d.graph owner (k % 16) id with
  | some g =>
    if g.isSealed then d.refuse k n p 0x31 1
    else if g.failed then d
    else
      match find (pkNode p) with
      | none => d.refuse k n p 0x31 3
      | some x =>
        if preds.any (fun i => (find i).isNone) then d.refuse k n p 0x31 3
        else if preds.any (fun i => match find i with
            | some y => decide (x.order ≤ y.order)
            | none => true) then d.refuse k n p 0x31 4
        else
          let all := distinct (x.preds ++ preds)
          if 64 < all.length then d.refuse k n p 0x31 5
          else d.onNode x.order fun y => { y with preds := all, left := all.length }
  | none => d.refuse k n p 0x31 (if d.graphEnding k id then 1 else 3)

/-- A SEAL (R573, R575): roots become READY, the others WAITING, and those that need a node which failed at acceptance are cancelled
(R583); a failed or empty graph ends at once. -/
def Dev.acceptSeal (d : Dev) (k n p : Nat) : Dev :=
  let owner := k / 16
  let id := pkGraph p
  match d.graph owner (k % 16) id with
  | none =>
    if d.graphEnding k id then d.refuse k n p 0x31 1
    else d.post k { CRec.zero with packet := n, opcode := 3, graph := id, kind := 2, irq := pkIrq p }
  | some g =>
    if g.isSealed then d.refuse k n p 0x31 1
    else
      let seq := d.prec.nextOrder
      let d := { d with prec := { d.prec with nextOrder := seq + 1 } }
      let d := d.onGraph owner (k % 16) id fun g =>
        { g with isSealed := true, stopOnFail := bit p 64, sealCount := n, sealIrq := pkIrq p, sealSeq := seq }
      let d := if g.failed then d
        else
          let d := (d.prec.nodes.filter fun x => x.ofGraph owner (k % 16) id && !x.state.ended).foldl (fun d x =>
            if x.preds.isEmpty then d.nodeReady x else d.onNode x.order fun y => { y with state := .waiting }) d
          d.cascade owner (k % 16) id (bit p 64 && (d.prec.nodes.any fun x => x.ofGraph owner (k % 16) id && x.state = .failed))
      d.graphCheck owner (k % 16) id

/-! ### Reading memory for a queue packet -/

/-- The code of host reads that bring the data of a queue packet. -/
def usePacketData : Nat := 11

/-- The bytes that a queue packet names, read as its owner in pieces of one line; those of a host window come with
HOST_COMPLETION, and the packet goes on at the next tick (R428, R613). -/
def Dev.gatherRead (d : Dev) (owner seq va n : Nat) : Nat → Dev × VRes
  | 0 => (d, .wait)
  | f + 1 =>
    let g := (d.prec.gather.find? fun g => g.seq = seq).getD ⟨seq, [], false, 0⟩
    let rest := d.prec.gather.filter fun g => g.seq ≠ seq
    let purge := fun (d : Dev) => { d with prec := { d.prec with gather := rest } }
    let got := g.bytes.length
    if g.cause ≠ 0 then (purge d, .fail ⟨g.cause, 0, 0, 0, 0, false, true, false⟩)
    else if n ≤ got then (purge d, .ok (g.bytes.take n) g.poison)
    else if d.host.reads.any (fun r => r.use = usePacketData && r.arg = seq) then (d, .wait)
    else
      match d.vaRead 0x3000 owner (va + got) (min (128 - (va + got) % 128) (n - got)) usePacketData seq with
      | (d, .ok bs po) =>
        Dev.gatherRead { d with prec := { d.prec with gather := rest ++ [Gather.mk seq (g.bytes ++ bs) (g.poison || po) 0] } } owner seq va n f
      | (d, .wait) => (d, .wait)
      | (d, .fail e) => (purge d, .fail e)

/-- Data that the host has sent for a queue packet, or the cause of the read's failure. -/
def Dev.gatherData (d : Dev) (seq : Nat) (bs : List Byte) (poison : Bool) (cause : Nat) : Dev :=
  let g := (d.prec.gather.find? fun g => g.seq = seq).getD ⟨seq, [], false, 0⟩
  { d with prec := { d.prec with gather :=
      (d.prec.gather.filter fun g => g.seq ≠ seq) ++ [Gather.mk seq (g.bytes ++ bs) (g.poison || poison) cause] } }

/-! ### Descriptors (R420, R428, R429, R571) -/

/-- A descriptor packet is refused (Table 9.6). -/
def Dev.descRefuse (d : Dev) (k : Nat) (w : QWait) (reason handle : Nat) : Dev :=
  (d.completePacket k w 4 reason handle 0).oinc O.DESC_REFUSALS

/-- A DESC_CREATE whose first checks passed, as far as its image has come (R428): the read's failure completes the packet and refuses
nothing (R571). -/
def Dev.descImageRead (d : Dev) (k : Nat) (w : QWait) (p : Nat) : Dev :=
  let owner := k / 16
  let h := bits p 64 16
  match d.gatherRead owner w.seq (bits p 128 64) 128 4 with
  | (d, .wait) => d
  | (d, .fail f) => (d.completePacket k w f.cause f.detail h (bits p 128 64)).violated f.cause
  | (d, .ok _ true) => d.completePacket k w 6 0 h 0
  | (d, .ok bs false) =>
    match d.descCheck owner (leNat bs) with
    | some r => d.descRefuse k w r h
    | none =>
      let d := d.dpaWriteAll 259 256 (d.descAddr owner h) bs false
      let d := { d with prec := { d.prec with descState := mset d.prec.descState (4096 * owner + h) 1 } }
      d.completePacket k w 0 0 h 0

/-- DESC_CREATE: checks 0x01 and 0x02, then the image. -/
def Dev.descCreate (d : Dev) (k : Nat) (w : QWait) (p : Nat) (ecc : Bool) : Dev :=
  let h := bits p 64 16
  if 4096 ≤ h then d.descRefuse k w 1 h
  else if d.descStateOf (k / 16) h ≠ 0 then d.descRefuse k w 2 h
  else if ecc then d.completePacket k w 5 0 h 0
  else d.descImageRead k w p

/-- An owner's DESC_CREATE still reads its image: it is being accepted, and the owner's queues accept no other packet until it is
(R428, R569; assumption 78). -/
def Dev.accepting (d : Dev) (owner : Nat) : Bool :=
  d.prec.queues.any fun e => e.1 / 16 = owner && e.2.waits.any fun w => w.opc = 0x0D

/-- DESC_DESTROY. -/
def Dev.descDestroy (d : Dev) (k : Nat) (w : QWait) (p : Nat) : Dev :=
  let owner := k / 16
  let h := bits p 64 16
  if 4096 ≤ h then d.descRefuse k w 1 h
  else if d.descStateOf owner h = 0 then d.descRefuse k w 2 h
  else if d.descRefs owner h ≠ 0 then d.descRefuse k w 3 h
  else
    let d := { d with prec := { d.prec with descState := mdel d.prec.descState (4096 * owner + h) } }
    d.completePacket k w 0 0 h 0

/-! ### Chapels and the horarium (R607 to R609, R613, R614, R887) -/

/-- CHAPEL_SET. -/
def Dev.chapelSet (d : Dev) (k : Nat) (w : QWait) (p : Nat) : Dev :=
  let c := bits p 64 4
  let mask := bits p 96 16
  let old := d.oget (O.CHAPEL c)
  if (rangeFrom 0 16).any fun b => b ≠ c && (d.qtrs b &&& mask) ≠ 0 then d.completePacket k w 0x34 1 0 0
  else if (rangeFrom 0 16).any fun q => bit mask q && d.octFailed (octOfQtr q) then d.completePacket k w 0x34 2 0 0
  else
    let new := mask + bits p 68 2 * 2 ^ 16
    let d := d.oset (O.CHAPEL c) new
    let d := if new % 2 ^ 17 ≠ old % 2 ^ 17 then d.chapelDeficits c else d
    let gone := fun q => bit old q && !bit mask q
    let d := (d.prec.nodes.filter fun x => x.state = .running && x.opc = 1 && x.restartable &&
        (d.coresOf x).any fun n => gone (n / 16)).foldl Dev.nodeRequeue d
    let d := (rangeFrom 0 8).foldl (fun (d : Dev) o =>
      if bits mask (2 * o) 2 ≠ 0 && d.pd (octDomain o) = 0 then
        match d.pdOn (octDomain o) with
        | .ok d => d
        | .error _ => d
      else d) d
    (d.auditAll).completePacket k w 0 0 0 0

/-- An entry of a table as stored (Table 13.2). -/
def horEntryOf (e : Nat) : HorEntry := ⟨bits e 112 16, bits e 96 16, bits e 64 32, bits e 32 32, bits e 10 2, bit e 9, bits e 0 9⟩

/-- The first failing check of an entry (Table 13.3). -/
def horEntryBad (frame e : Nat) : Option Nat :=
  let x := horEntryOf e
  if bits e 12 20 ≠ 0 then some 2
  else if x.length = 0 || frame < x.start + x.length then some 3
  else if frame < x.guard then some 4
  else if (x.pool && x.owner ≠ 0) || 256 < x.owner then some 5
  else if x.level = 0 && x.pool then some 6
  else if x.chapels = 0 then some 7
  else none

/-- HORARIUM_LOAD, as far as its table has come. -/
def Dev.horLoad (d : Dev) (k : Nat) (w : QWait) (p : Nat) (ecc : Bool) : Dev :=
  let n := bits p 64 11
  let frame := bits p 96 32
  let a := bits p 128 64
  let epoch := bits p 192 64
  if ecc then d.completePacket k w 5 0 0 0
  else
    match d.gatherRead 256 w.seq a (16 * n) 132 with
    | (d, .wait) => d
    | (d, .fail f) => (d.completePacket k w f.cause f.detail 0 a).violated f.cause
    | (d, .ok _ true) => d.completePacket k w 6 0 0 0
    | (d, .ok bs false) =>
      let es := (rangeFrom 0 n).map fun i => leNat ((bs.drop (16 * i)).take 16)
      if epoch % 1000 ≠ 0 then d.completePacket k w 0x33 1 0 0
      else
        match es.zipIdx.findSome? fun e => (horEntryBad frame e.1).map fun det => (det, e.2) with
        | some (det, i) => d.completePacket k w 0x33 det 0 (a + 16 * i)
        | none =>
          let d := (d.onSched fun s => { s with staged := some ⟨frame, epoch, es.map horEntryOf, d.time⟩ }).horShow
          d.completePacket k w 0 0 0 0

/-! ### Windows and translations (R453 to R455, R470, R471) -/

/-- The window of a record (Table 10.3). -/
def windowOf (r : Nat) : Window :=
  ⟨bits r 64 64, bits r 128 64, bits r 192 64, bit r 63, bits r 54 9, bits r 44 4, bits r 42 2, bits r 40 2, bit r 34, bit r 33, bit r 32⟩

/-- The owner's windows, with those whose record is not yet written. -/
def Dev.ownerWindows (d : Dev) (owner : Nat) : List (Nat × Window) :=
  (d.tr.wins.filter fun e => e.1 / 64 = owner) ++ (d.tr.newWins.filter fun w => w.key / 64 = owner).map fun w => (w.key, w.win)

/-- The first failing check of a WINDOW_MAP (Table 10.4). -/
def Dev.windowBad (d : Dev) (owner r : Nat) : Option Nat :=
  let w := windowOf r
  let ws := d.ownerWindows owner
  if owner < 256 && d.oget (O.TENANT_STATE owner) = 0 then some 1
  else if ws.any (fun e => e.1 % 64 = bits r 0 6) then some 2
  else if w.base % 65536 ≠ 0 || w.size % 65536 ≠ 0 || w.hostBase % 4096 ≠ 0 then some 3
  else if w.size = 0 || 2 ^ 52 < w.base + w.size then some 4
  else if ws.any (fun e => e.2.base < w.base + w.size && w.base < e.2.base + e.2.size) then some 5
  else if w.home = 3 && (w.x || w.enc || w.l2p ≠ 0 || w.policy ≠ 0) then some 6
  else if w.home ≠ 3 && w.hostBase ≠ 0 then some 6
  else if w.enc && w.keySlot ≠ owner then some 7
  else none

/-- WINDOW_MAP; the window comes into force when its record is written (R454). -/
def Dev.windowMap (d : Dev) (k : Nat) (w : QWait) (p : Nat) : Dev :=
  let owner := bits p 64 9
  let r := bits p 128 256
  match d.windowBad owner r with
  | some det => d.completePacket k w 3 det 0 0
  | none =>
    let win := NewWindow.mk k w.count (64 * owner + bits r 0 6) (windowOf r)
    Dev.completePacket { d with tr := { d.tr with newWins := d.tr.newWins ++ [win] } } k w 0 0 0 0

/-- Remove the translations that a packet selects, and let it wait for the accesses that were translated through them (R455, R471). In mode
WINDOW these are the owner's in the range `span` of the window. -/
def Dev.invalidateFor (d : Dev) (w : QWait) (mode owner win base len : Nat) (span : Nat × Nat) : Dev :=
  let d := d.tlbInvalidate mode owner win base len
  let range := if mode = 2 then span else (base, len)
  { d with tr := { d.tr with epoch := d.tr.epoch + 1 },
           prec := { d.prec with invals := d.prec.invals ++ [⟨w.seq, mode, owner, range.1, range.2, d.tr.epoch⟩] } }

/-- The range of a window, of one whose record is not yet written too. -/
def Dev.windowSpan (d : Dev) (owner i : Nat) : Nat × Nat :=
  (((d.ownerWindows owner).find? fun e => e.1 % 64 = i).map fun e => (e.2.base, e.2.size)).getD (0, 0)

/-- WINDOW_UNMAP (Table 10.5): the window, then its owner's descriptors, then its translations. -/
def Dev.windowUnmap (d : Dev) (k : Nat) (w : QWait) (p : Nat) : Dev :=
  let owner := bits p 64 9
  let i := bits p 73 6
  if owner < 256 && d.oget (O.TENANT_STATE owner) = 0 then d.completePacket k w 3 1 0 0
  else if (d.ownerWindows owner).all fun e => e.1 % 64 ≠ i then d.completePacket k w 3 2 0 0
  else
    let key := 64 * owner + i
    let span := d.windowSpan owner i
    let d := { d with tr := { d.tr with wins := mdel d.tr.wins key, newWins := d.tr.newWins.filter fun x => x.key ≠ key } }
    let live := (d.prec.descState.filter fun e => e.1 / 4096 = owner && e.2 = 1).map (·.1)
    let d := live.foldl (fun (d : Dev) e =>
      let (d, v, bad) := d.dpaRead 259 256 (d.descAddr owner (e % 4096)) 128
      if bad then d.descSpoilNoted owner (e % 4096)
      else if tdWindow v = i then { d with prec := { d.prec with descState := mset d.prec.descState e 2 } } else d) d
    let d := d.tear owner (fun c => tdWindow c.desc = i) true
    (d.invalidateFor w 2 owner i 0 0 span).auditAll

/-- The accesses that a packet waits for have returned their data or been acknowledged. -/
def Dev.invalDone (d : Dev) (w : QWait) : Bool := !(d.prec.invals.any fun i => i.seq = w.seq && d.flights.any i.awaits)

/-- Step 1 of a tick latches the end of unmaps and invalidations (R471, Table 10.12). -/
def Dev.invalLatch (d : Dev) : Dev :=
  d.prec.queues.foldl (fun d e =>
    (e.2.waits.filter fun w => w.opc = 0x84 || w.opc = 0x85).foldl (fun (d : Dev) w =>
      if d.invalDone w then
        let d := { d with prec := { d.prec with invals := d.prec.invals.filter fun x => x.seq ≠ w.seq } }
        d.completePacket e.1 w 0 0 0 0
      else d) d) d

/-! ### Tenants, the dictionary, resumptions -/

/-- CONTEXT_KILL (R677): an ABSENT tenant has nothing to tear down. -/
def Dev.contextKill (d : Dev) (k : Nat) (w : QWait) (p : Nat) : Dev :=
  let t := bits p 64 8
  if d.oget (O.TENANT_STATE t) = 0 then d.completePacket k w 0 0 0 0 else d.teardownAsk t (bits p 80 16) false false

/-- TENANT_SETUP with SETUP (R649). -/
def Dev.setupTake (d : Dev) (k : Nat) (w : QWait) (p : Nat) : Dev :=
  match d.tenantSetup (bits p 64 8) (bits p 128 64) (bits p 192 64) (bits p 256 21) with
  | .ok d => d.completePacket k w 0 0 0 0
  | .error det => d.completePacket k w 0x35 det 0 0

/-- TENANT_SETUP with RELEASE (R650). -/
def Dev.releaseTenant (d : Dev) (k : Nat) (w : QWait) (p : Nat) : Dev :=
  let t := bits p 64 8
  if d.oget (O.TENANT_STATE t) = 0 then d.completePacket k w 0x35 1 0 0 else d.teardownAsk t 0 true false

/-- DICT_WRITE (R855). -/
def Dev.dictPacket (d : Dev) (k : Nat) (w : QWait) (p : Nat) : Dev :=
  match d.dictWrite .hk (bits p 64 16) (bits p 80 8) (bits p 88 16) 0 (leBytes (bits p 104 5 + 1) (bits p 256 256)) with
  | (d, 0) => d.completePacket k w 0 0 0 0
  | (d, st) => d.completePacket k w 0x3C st 0 0

/-! ### Queue packets -/

/-- FENCE waits until fenceCheck finds nothing before it (R569, R570). -/
def Dev.fenceTake (d : Dev) (k : Nat) : Dev := (d.onQueue k fun q => { q with fencing := true }).fenceCheck k

/-- The wait of a queue packet (R569): a FENCE keeps GRAPHS, a CONTEXT_KILL or RELEASE its tenant, any other its packet. -/
def waitArg (p : Nat) : Nat :=
  match pkOpc p with
  | 0x0C => bits p 64 1
  | 0x82 => bits p 64 8
  | 0x86 => bits p 64 8
  | _ => p

/-- A queue packet passes its checks: it waits, and its action begins (R569). `ecc` marks an uncorrectable error in data it
reads. -/
def Dev.acceptQueue (d : Dev) (k n p : Nat) (ecc : Bool) : Dev :=
  let seq := d.prec.nextOrder
  let w := QWait.mk (pkOpc p) n (pkIrq p) (waitArg p) seq
  let d := { d with prec := { d.prec with nextOrder := seq + 1 } }
  let d := d.onQueue k fun q => { q with waits := q.waits ++ [w] }
  match pkOpc p with
  | 0x0C => d.fenceTake k
  | 0x0D => d.descCreate k w p ecc
  | 0x0E => d.descDestroy k w p
  | 0x80 => d.chapelSet k w p
  | 0x81 => d.horLoad k w p ecc
  | 0x82 => d.contextKill k w p
  | 0x83 => d.windowMap k w p
  | 0x84 => d.windowUnmap k w p
  | 0x85 => d.invalidateFor w (bits p 64 2) (bits p 66 9) (bits p 75 6) (bits p 128 64) (bits p 192 64)
      (d.windowSpan (bits p 66 9) (bits p 75 6))
  | 0x86 => if bit p 72 then d.releaseTenant k w p else d.setupTake k w p
  | 0x87 => d.dictPacket k w p
  | _ => (d.faultResume (bits p 64 32) (bits p 96 9) (bit p 105) (!bit p 106)).completePacket k w 0 0 0 0

/-- Packets that await data of host memory go on at a tick. -/
def Dev.gatherGo (d : Dev) : Dev :=
  d.prec.queues.foldl (fun d e =>
    (e.2.waits.filter fun w => w.opc = 0x0D || w.opc = 0x81).foldl (fun (d : Dev) w =>
      if w.opc = 0x0D then d.descImageRead e.1 w w.arg else d.horLoad e.1 w w.arg false) d) d

/-! ### Acceptance (R557, R566) -/

/-- What the precentor does with a packet that passed the checks. -/
def Dev.packetGo (d : Dev) (k n p : Nat) (ecc : Bool) : Dev :=
  let o := pkOpc p
  if isNodeOp o then d.acceptNode k n p
  else if o = 2 then d.acceptEdge k n p
  else if o = 3 then d.acceptSeal k n p
  else d.acceptQueue k n p ecc

/-- GET passes the packet (R557). -/
def Dev.packetPassed (d : Dev) (k n : Nat) : Dev :=
  d.onQueue k fun q =>
    let next := (n + 1) % 2 ^ 32
    { q with get := next, put := if q.put = n then next else q.put, readAhead := q.readAhead.filter fun r => r.count ≠ n }

/-- The precentor accepts the next packet of queue `k` (R566). -/
def Dev.acceptPacket (d : Dev) (k p : Nat) (ecc : Bool) : Dev :=
  let n := (d.queue k).get
  match packetCheck (d.oget O.CHIP_ID) (k / 16) p with
  | some c =>
    let d := (d.haltQueue k c 0 0 (pkOpc p) 0 true).packetPassed k n
    if c = 0x0C then d.oinc O.PRIVILEGE_REJECTS else d
  | none => ((d.packetPassed k n).oinc O.PACKETS_ACCEPTED).packetGo k n p ecc

/-- Packets of the queue can be read: its owner is served and no record is held back (R560, R595, R676). -/
def Dev.readable (d : Dev) (k : Nat) : Bool :=
  let q := d.queue k
  q.state = .enabled && q.records.isEmpty && !q.full && d.ownerLive (k / 16) && !d.failed

/-- The queue can be given a packet: no FENCE of it waits (R570) and no image of its owner is being read (R428). -/
def Dev.acceptable (d : Dev) (k : Nat) : Bool := d.readable k && !(d.queue k).fencing && !d.accepting (k / 16)

/-- A packet row: queue `q` of an owner accepts a packet with the row's opcode, and with the row's OP where the row names one. -/
def State.packet (s : State) (owner q op : Nat) (p : BitVec 512) : Host.Outcome State Fault Refusal :=
  s.runIf (owner ≤ 256 && q < 16) fun d =>
    if d.acceptable (16 * owner + q) then d.acceptPacket (16 * owner + q) (setBits p.toNat 0 8 op) false else d

/-! ### The packet commands -/

/-- TASK (R567, R576, R577). -/
def execTask (owner q : Nat) (p : BitVec 512) (s : State) : Host.Outcome State Fault Refusal := s.packet owner q 0x01 p

/-- EDGE (R574). -/
def execEdge (owner q : Nat) (p : BitVec 512) (s : State) : Host.Outcome State Fault Refusal := s.packet owner q 0x02 p

/-- SEAL (R573). -/
def execSeal (owner q : Nat) (p : BitVec 512) (s : State) : Host.Outcome State Fault Refusal := s.packet owner q 0x03 p

/-- SIGNAL (R582). -/
def execSignal (owner q : Nat) (p : BitVec 512) (s : State) : Host.Outcome State Fault Refusal := s.packet owner q 0x04 p

/-- WAIT (R582). -/
def execWait (owner q : Nat) (p : BitVec 512) (s : State) : Host.Outcome State Fault Refusal := s.packet owner q 0x05 p

/-- COPY (R579, R824). -/
def execCopy (owner q : Nat) (p : BitVec 512) (s : State) : Host.Outcome State Fault Refusal := s.packet owner q 0x06 p

/-- RESHARD (R814). -/
def execReshard (owner q : Nat) (p : BitVec 512) (s : State) : Host.Outcome State Fault Refusal := s.packet owner q 0x07 p

/-- COLLECTIVE (R817). -/
def execCollective (owner q : Nat) (p : BitVec 512) (s : State) : Host.Outcome State Fault Refusal := s.packet owner q 0x08 p

/-- TIMESTAMP (R582). -/
def execTimestamp (owner q : Nat) (p : BitVec 512) (s : State) : Host.Outcome State Fault Refusal := s.packet owner q 0x09 p

/-- WATCH (R973). -/
def execWatch (owner q : Nat) (p : BitVec 512) (s : State) : Host.Outcome State Fault Refusal := s.packet owner q 0x0A p

/-- NOP (R582). -/
def execNopPacket (owner q : Nat) (p : BitVec 512) (s : State) : Host.Outcome State Fault Refusal := s.packet owner q 0x0B p

/-- FENCE (R569, R570). -/
def execFencePacket (owner q : Nat) (p : BitVec 512) (s : State) : Host.Outcome State Fault Refusal := s.packet owner q 0x0C p

/-- DESC_CREATE (R428, R429). -/
def execDescCreate (owner q : Nat) (p : BitVec 512) (s : State) : Host.Outcome State Fault Refusal := s.packet owner q 0x0D p

/-- DESC_DESTROY (R420). -/
def execDescDestroy (owner q : Nat) (p : BitVec 512) (s : State) : Host.Outcome State Fault Refusal := s.packet owner q 0x0E p

/-- CHAPEL_SET (R606 to R609). -/
def execChapelSet (owner q : Nat) (p : BitVec 512) (s : State) : Host.Outcome State Fault Refusal := s.packet owner q 0x80 p

/-- HORARIUM_LOAD (R613, R614). -/
def execHorariumLoad (owner q : Nat) (p : BitVec 512) (s : State) : Host.Outcome State Fault Refusal := s.packet owner q 0x81 p

/-- CONTEXT_KILL (R677). -/
def execContextKill (owner q : Nat) (p : BitVec 512) (s : State) : Host.Outcome State Fault Refusal := s.packet owner q 0x82 p

/-- WINDOW_MAP (R452 to R454). -/
def execWindowMap (owner q : Nat) (p : BitVec 512) (s : State) : Host.Outcome State Fault Refusal := s.packet owner q 0x83 p

/-- WINDOW_UNMAP (R455). -/
def execWindowUnmap (owner q : Nat) (p : BitVec 512) (s : State) : Host.Outcome State Fault Refusal := s.packet owner q 0x84 p

/-- TLB_INVALIDATE (R470, R471). -/
def execTlbInvalidate (owner q : Nat) (p : BitVec 512) (s : State) : Host.Outcome State Fault Refusal := s.packet owner q 0x85 p

/-- TENANT_SETUP with OP SETUP (R649). -/
def execTenantSetup (owner q : Nat) (p : BitVec 512) (s : State) : Host.Outcome State Fault Refusal := s.packet owner q 0x86 (BitVec.ofNat 512 (setBits p.toNat 72 1 0))

/-- TENANT_SETUP with OP RELEASE (R650). -/
def execTenantRelease (owner q : Nat) (p : BitVec 512) (s : State) : Host.Outcome State Fault Refusal := s.packet owner q 0x86 (BitVec.ofNat 512 (setBits p.toNat 72 1 1))

/-- DICT_WRITE (R855). -/
def execDictWrite (owner q : Nat) (p : BitVec 512) (s : State) : Host.Outcome State Fault Refusal := s.packet owner q 0x87 p

/-- FAULT_RESUME (R489). -/
def execFaultResume (owner q : Nat) (p : BitVec 512) (s : State) : Host.Outcome State Fault Refusal := s.packet owner q 0x88 p

end Sys2Proof.Machine
end

