-- ==== Sys2Proof/Machine/Cantor.lean ====
section
/-! DEFINITION. Machine/Cantor.lean: the dictionary ports, the Cantor network and the timebase (chapter 18). -/

namespace Sys2Proof.Machine

/-! ### Requests to a BAR (Table 11.11) -/

/-- What becomes of a request to a BAR of function `fn`: 0 it is served, 1 Unsupported Request, 2 discarded and counted (R535), 3
none arrives, because the host port is not up. -/
def Dev.barGate (d : Dev) (fn : Nat) : Nat :=
  if d.boot.inReset || d.oget O.HOSTPORT_STATE = 0 || d.pd 1 ≠ 2 then 3
  else match d.funcState fn with
    | 0 => 1
    | 3 => 2
    | _ => if d.host.d3hot || (d.func 0).inFlr then 1 else 0

/-- Unsupported Request is logged in the function addressed, or in the PF when there is none. -/
def Dev.urLog (d : Dev) (fn : Nat) (h : TlpHeader) : Dev := d.aer (if d.funcState fn = 0 then 0 else fn) 0x14 (some h)

/-- A write to a BAR: posted, so a request that is not supported is only logged. -/
def Dev.barWrite (d : Dev) (fn bar off len : Nat) (f : Dev → Dev) : Dev :=
  match d.barGate fn with
  | 0 => f d
  | 1 => d.urLog fn ⟨fn, 0, 1, bar, off, len⟩
  | 2 => d.oinc O.BAR_MISUSE
  | _ => d

/-- A read of a BAR. -/
def Dev.barRead (d : Dev) (fn bar off len : Nat) (f : Dev → Dev) : Dev :=
  match d.barGate fn with
  | 0 => f d
  | 1 => (d.urLog fn ⟨fn, 0, 0, bar, off, len⟩).emit (.cpl fn 1 [] false)
  | 2 => d.oinc O.BAR_MISUSE
  | _ => d

/-! ### Dictionary ports (R848 to R853) -/

/-- A port as reset leaves it. -/
def DPort.reset : DPort := ⟨0, 0, false, 0, false, false, 0, 0, [], 0, 0, 0, 0⟩

/-- Port `n`: 0 the PF's, t + 1 that of VF t. -/
def Dev.port (d : Dev) (n : Nat) : DPort := dget DPort.reset d.dict.ports n

/-- Set a port. -/
def Dev.setPort (d : Dev) (n : Nat) (x : DPort) : Dev :=
  { d with dict := { d.dict with ports := dset DPort.reset d.dict.ports n x } }

/-- The path of a port (R839). -/
def portPath (n : Nat) : Path := if n = 0 then .hk else .ht (n - 1)

/-- Index of a burst. -/
def DPort.index (x : DPort) : Nat := bits x.goAddr 16 16
/-- Subindex of a burst. -/
def DPort.sub (x : DPort) : Nat := bits x.goAddr 8 8
/-- Element offset of a burst. -/
def DPort.off (x : DPort) : Nat := bits x.goAddr 0 8 + 256 * bits x.goHi 0 24
/-- BYTE of a burst. -/
def DPort.byte (x : DPort) : Nat := bits x.goHi 24 3
/-- Bytes that a burst moves through DP_DATA, in whole words. -/
def DPort.words (x : DPort) : Nat := 8 * cdiv x.goLen 8

/-- End the burst of a port with a status. -/
def DPort.finish (x : DPort) (status : Nat) : DPort := { x with busy := false, done := true, status := status, stage := 0 }

/-- GO (R849): the checks of the whole burst, and the port staged for it. A read is staged until its snapshot, a write until its
last DP_DATA word; GO while BUSY is refused and counted (R853). -/
def Dev.dpGo (d : Dev) (n : Nat) : Dev :=
  let x := d.port n
  if x.busy then d.oinc O.DICT_REFUSALS
  else
    let x := { x with goAddr := x.addr, goHi := x.addrHi, goLen := x.length + 1, buf := [], count := 0, status := 0, done := false }
    let p := portPath n
    let c := burstCheck (if x.dir then d.writeCheck p x.index else d.readCheck p x.index) x.index x.sub x.off x.byte x.goLen
    if c ≠ 0 then (d.setPort n (x.finish c)).oinc O.DICT_REFUSALS
    else d.setPort n { x with busy := true, stage := if x.dir then 3 else 1 }

/-- ABORT (R853): a burst that has not taken effect ends with PROTOCOL. -/
def Dev.dpAbort (d : Dev) (n : Nat) : Dev :=
  let x := d.port n
  if x.busy then d.setPort n (x.finish stProtocol) else d

/-- A write of DP_CTRL: its fields, then ABORT, then GO. -/
def Dev.dpCtrl (d : Dev) (n v : Nat) : Dev :=
  let d := d.setPort n { d.port n with dir := bit v 16, length := bits v 0 12 }
  let d := if bit v 30 then d.dpAbort n else d
  if bit v 31 then d.dpGo n else d

/-- The snapshot of a read burst, taken in one atomic access (R850). -/
def Dev.dpSnapshot (d : Dev) (n : Nat) : Dev :=
  let x := d.port n
  match d.dictRead (portPath n) x.index x.sub x.off x.byte x.goLen with
  | (d, .error c) => d.setPort n (x.finish c)
  | (d, .ok bs) => d.setPort n { x with busy := false, done := true, buf := bs, stage := 2 }

/-- A read of DP_DATA: the next 8 bytes of the buffer; one issued before DONE is completed when the snapshot is taken. -/
def Dev.dpDataRead (d : Dev) (n : Nat) : Dev :=
  let d := if (d.port n).stage = 1 then d.dpSnapshot n else d
  let x := d.port n
  if x.stage ≠ 2 then d.emit (.cpl n 0 (leBytes 8 0) false)
  else
    let bs := (x.buf.drop x.count).take 8
    let d := d.emit (.cpl n 0 (leBytes 8 (leNat bs)) false)
    if x.count < x.words then d.setPort n { x with count := x.count + 8 } else d

/-- A write of DP_DATA: 8 more bytes of a write burst; any other is discarded and counted (R851). -/
def Dev.dpDataWrite (d : Dev) (n v : Nat) : Dev :=
  let x := d.port n
  if x.stage ≠ 3 then d.oinc O.BAR_MISUSE
  else d.setPort n { x with buf := x.buf ++ leBytes 8 v, count := x.count + 8, stage := if x.words ≤ x.count + 8 then 4 else 3 }

/-- The engine serves the burst of a port: the snapshot of a read, or the application of a write whose words have all come. -/
def Dev.dpServe (d : Dev) (n : Nat) : Dev :=
  let x := d.port n
  if x.stage = 1 then d.dpSnapshot n
  else if x.stage ≠ 4 then d
  else
    match d.dictWrite (portPath n) x.index x.sub x.off x.byte (x.buf.take x.goLen) with
    | (e, c) => if e.boot.inReset then e else e.setPort n ((e.port n).finish c)

/-- The elements that hold the value of object `i`:`s`: those of a STR or DOMAIN, or element `j` of an ARRAY or RECORD. -/
def objElems (i s j : Nat) : List Nat :=
  match objRow i s with
  | some r => if r.block then rangeFrom 0 (r.size / r.ew) else [j]
  | none => [j]

/-- What SECDED finds in the dictionary store as a burst begins (R882): a corrected error; an uncorrectable one in the value of the
object named, which returns to its persisted value or its default; or one in the engine's own state. -/
def Dev.storeErr (d : Dev) (i s : Nat) (e : HwErr) : Dev :=
  match e with
  | .corrected .. => d.corrected 0x9000 0
  | .word j =>
    let d := (objElems i s j).foldl (fun (d : Dev) e =>
      let k := okey i s e
      d.oset k ((mget d.dict.crypt k).getD ((mget objDefaults k).getD (objUnlisted k)))) d
    d.raise { cause := 5, eng := 0x9000 }
  | .tag => d.raise { cause := 5, sev := .device, eng := 0x9000 }
  | _ => d

/-- A write of DP_ADDR (register 0), DP_ADDR_HI (1), DP_CTRL without GO or ABORT (2), or both address registers in one 8-byte write (3):
it takes effect at once, on the next burst (R848, R875). -/
def Dev.dpRegister (d : Dev) (n reg v : Nat) : Dev :=
  let x := d.port n
  match reg with
  | 0 => d.setPort n { x with addr := v % 2 ^ 32 }
  | 1 => d.setPort n { x with addrHi := v % 2 ^ 27 }
  | 2 => d.setPort n { x with dir := bit v 16, length := bits v 0 12 }
  | _ => d.setPort n { x with addr := v % 2 ^ 32, addrHi := v / 2 ^ 32 % 2 ^ 27 }

/-- DP_STATUS of a port (Table 18.6). -/
def DPort.statusWord (x : DPort) : Nat := x.status + x.count * 2 ^ 16 + b2n x.done * 2 ^ 30 + b2n x.busy * 2 ^ 31

/-! ### Messages (R856 to R866) -/

/-- The message that a string of bytes spells: a 32-byte header, the payload and a 16-byte tag. -/
def cantorOf (bs : List Byte) : CantorMsg :=
  let h := leNat (bs.take 32)
  { dest := bits h 0 12, src := bits h 12 12, echo := bits h 64 32, destEp := bits h 106 2, srcEp := bits h 108 2, origin := bits h 110 2,
    lastPart := bits h 112 4, part := bits h 116 4, op := bits h 120 3, resp := bit h 127, count := bits h 128 32, boot := bits h 160 16,
    status := bits h 176 8, byte := bits h 185 3, length := bits h 188 12, sub := bits h 200 8, index := bits h 208 16,
    offset := bits h 224 32,
    rsv := bits h 24 40 + bits h 96 10 * 2 ^ 40 + bits h 123 4 * 2 ^ 50 + bits h 184 1 * 2 ^ 54,
    payload := (bs.drop 32).take (bs.length - 48), tag := beNat (bs.drop (bs.length - 16)) }

/-- Log a dropped message: the first of each detail in each 1 s (R881). -/
def Dev.cantorDrop (d : Dev) (detail : Nat) : Dev :=
  let due := match mget d.dict.dropAt detail with
    | none => true
    | some t => decide (t + 1000000000 ≤ d.time)
  if due then Dev.logNote { d with dict := { d.dict with dropAt := mset d.dict.dropAt detail d.time } } 0x3D detail 0x9000 0 else d

/-- A replay window accepts a message (R858, R859): the window after it, or none. -/
def Replay.accept (w : Replay) (boot count : Nat) : Option Replay :=
  let diff := (boot + 65536 - w.boot) % 65536
  if diff = 0 then
    if w.high < count then some ⟨boot, count, if count < w.high + 64 then (w.seen * 2 ^ (count - w.high) + 1) % 2 ^ 64 else 1⟩
    else if 64 ≤ w.high - count || bit w.seen (w.high - count) then none
    else some { w with seen := w.seen + 2 ^ (w.high - count) }
  else if diff < 32768 then some ⟨boot, count, 1⟩
  else none

/-- Steps 1 to 3 of R860 for a message from a port: accepted or dropped. A chip without the key drops everything (R864). -/
def Dev.cantorCheck (d : Dev) (i3c : Bool) (m : CantorMsg) : Dev × Bool :=
  if !d.keyLoaded || d.oget O.CANTOR_ENABLE = 0 then (d.oinc O.CANTOR_DROPS_OTHER, false)
  else if m.tag ≠ cantorMac m d.dict.key then ((d.oinc O.CANTOR_DROPS_AUTH).cantorDrop 1, false)
  else
    let k := if i3c then 4096 else m.src
    let w := match mget d.dict.windows k with
      | none => some (Replay.mk m.boot m.count 1)
      | some w => w.accept m.boot m.count
    match w with
    | none => ((d.oinc O.CANTOR_DROPS_REPLAY).cantorDrop 2, false)
    | some w => ({ d with dict := { d.dict with windows := mset d.dict.windows k w } }, true)

/-- The response to a request (R861). -/
def cantorAnswer (m : CantorMsg) (status : Nat) (payload : List Byte) (part lastPart : Nat) : CantorMsg :=
  { cantorZero with
    dest := m.src, destEp := m.srcEp, echo := m.count, resp := true, op := m.op, status := status, byte := m.byte, length := m.length,
    sub := m.sub, index := m.index, offset := m.offset, payload := payload, part := part, lastPart := lastPart }

/-- A request has a reserved field or encoding, or a payload of the wrong length (Tables 18.8 and 18.9). -/
def cantorBad (m : CantorMsg) : Bool :=
  m.rsv ≠ 0 || m.op = 0 || 3 < m.op || 2 ≤ m.origin || m.srcEp = 3 || m.destEp = 3 || m.status ≠ 0 || m.echo ≠ 0 || m.part ≠ 0 ||
    m.lastPart ≠ 0 || (m.op ≠ 3 && 256 ≤ m.length) || m.payload.length ≠ (if m.op = 2 then m.length + 1 else 0)

/-- Serve one request of the queue and answer it (R861, R867). -/
def Dev.cantorServe (d : Dev) (m : CantorMsg) : Dev :=
  let p : Path := if m.origin = 1 then .tc else .fp m.src
  let d := d.oinc O.CANTOR_RX_MSGS
  if m.op = 2 then
    let (d, c) := d.dictWrite p m.index m.sub m.offset m.byte m.payload
    d.sendCantor (cantorAnswer m c [] 0 0)
  else
    match d.dictRead p m.index m.sub m.offset m.byte (m.length + 1) with
    | (d, .error c) => d.sendCantor (cantorAnswer m c [] 0 0)
    | (d, .ok bs) =>
      let n := cdiv bs.length 256
      (rangeFrom 0 n).foldl (fun (d : Dev) (k : Nat) => d.sendCantor (cantorAnswer m 0 ((bs.drop (256 * k)).take 256) k (n - 1))) d

/-- Serve the request queue in order (R865). -/
def Dev.cantorServeAll (d : Dev) : Nat → Dev
  | 0 => d
  | f + 1 =>
    match d.dict.requests with
    | [] => d
    | m :: ms => Dev.cantorServeAll (Dev.cantorServe { d with dict := { d.dict with requests := ms } } m) f

/-- A request or a NOTIFY for the dictionary (steps 4 to 6 of R860). A response finds nothing that awaits it there. -/
def Dev.cantorRequest (d : Dev) (m : CantorMsg) : Dev :=
  if m.resp then d.oinc O.CANTOR_DROPS_OTHER
  else if m.op = 4 then d
  else if cantorBad m then d.sendCantor (cantorAnswer m stProtocol [] 0 0)
  else if 64 ≤ d.dict.requests.length then d.sendCantor (cantorAnswer m stQueueFull [] 0 0)
  else { d with dict := { d.dict with requests := d.dict.requests ++ [m] } }

/-- A message for an endpoint of this chip. -/
def Dev.cantorLocal (d : Dev) (m : CantorMsg) : Dev := if m.destEp = 2 then d.hostMessage m else d.cantorRequest m

/-- Relay a fabric message to the I3C port (R862): BOOT, COUNT and the tag are made again. -/
def Dev.relayOut (d : Dev) (m : CantorMsg) : Dev :=
  let (d, c) := d.takeCount
  let m := { m with boot := d.oget O.CANTOR_BOOT, count := c }
  let m := { m with tag := cantorMac m d.dict.key }
  (d.oinc O.CANTOR_TX_MSGS).toTray m

/-- A message arrives over the fabric for this chip. -/
def Dev.fabricMessage (d : Dev) (m : CantorMsg) : Dev :=
  match d.cantorCheck false m with
  | (d, false) => d
  | (d, true) => if m.destEp = 1 then d.relayOut m else d.cantorLocal m

/-- A message arrives on the I3C port (R862): served when it names this chip, otherwise restamped and routed; dropped when the chip
has no valid ID. -/
def Dev.i3cMessage (d : Dev) (m : CantorMsg) : Dev :=
  match d.cantorCheck true m with
  | (d, false) => d
  | (d, true) =>
    let own := { m with src := d.oget O.CHIP_ID, srcEp := 1, origin := 1 }
    if m.dest = d.oget O.CHIP_ID then d.cantorLocal own
    else if d.idValid then d.sendCantor own
    else (d.oinc O.CANTOR_DROPS_OTHER).cantorDrop 3

/-- The dictionary engine and the network are up: Sahcy runs, or the ROM serves the I3C port in phase RECOVERY (R957). -/
def Dev.engineUp (d : Dev) : Bool := !d.boot.inReset && (d.boot.running.isSome || d.oget O.BOOT_PHASE = 6)

/-- A message arrives on a port. -/
def Dev.cantorArrive (d : Dev) (i3c : Bool) (m : CantorMsg) : Dev :=
  if !d.engineUp then d
  else if i3c then (d.i3cMessage m).cantorServeAll 64
  else if d.idValid && m.dest = d.oget O.CHIP_ID then (d.fabricMessage m).cantorServeAll 64
  else d

/-! ### The JT-16's bus (R995 to R997) -/

/-- Stamp a message of the JT-16: SRC 0, its BOOT and COUNT, and the tag under its key; a COUNT past its range raises BOOT (R859). -/
def Dev.trayStamp (d : Dev) (key : Nat) (m : CantorMsg) : Dev × CantorMsg :=
  let t := d.tray
  let (b, c) := if t.count < 2 ^ 32 then (t.boot, t.count) else ((t.boot + 1) % 65536, 1)
  let m := { m with src := 0, boot := b, count := c }
  ({ d with tray := { t with boot := b, count := c + 1 } }, { m with tag := cantorMac m key })

/-- Send the requests of a slot's bus, one at a time, each after the response to the one before it. The bus of the modelled device
carries them to it; a message for another slot's device leaves the model. -/
def Dev.trayPump (d : Dev) (n : Nat) : Nat → Dev
  | 0 => d
  | f + 1 =>
    match (d.slot n).queue, d.tray.key with
    | q :: qs, some key =>
      if (d.slot n).sent || d.tray.down then d
      else
        let (d, m) := d.trayStamp key q.msg
        let d := d.onSlot n fun s => { s with queue := TrayReq.mk m q.why :: qs, sent := true }
        let d := d.emit (.slotMsg n m)
        if n = d.tray.home then Dev.trayPump (d.cantorArrive true m) n f else d
    | _, _ => d

/-- A message arrives on a port; a response that goes on to the JT-16 lets it send its next request. -/
def Dev.cantorIn (d : Dev) (i3c : Bool) (m : CantorMsg) : Dev := (d.cantorArrive i3c m).trayPump d.tray.home 24

/-! ### The timebase (R872, R873) -/

/-- The primary loses lock while the spare stands by: the timebase moves to it without a step (R872, R793). -/
def Dev.timebaseSwitch (d : Dev) : Dev :=
  if d.oget O.TIMEBASE_SOURCE ≠ 0 || d.oget O.SPARE_STATE ≠ 0 || d.oget O.SPARE_ENABLE ≠ 1 then d
  else
    let d := (((d.oset O.TIMEBASE_SOURCE 1).oset O.SPARE_STATE 1).oinc O.TIMEBASE_SWITCHES).logNote 0x3E 0 0x9000 0
    let d := d.notify ⟨7, 0x3E, 0, 0, 0x1201, 0⟩
    if d.oget O.TIME_STATE = 0 then d else (d.timeState 3).timeEval

/-- The timebase has no working source: ERR_TIMEBASE, and the device acts as for a failure of PD_0 (R873). -/
def Dev.timebaseFailure (d : Dev) : Dev :=
  if d.boot.inReset || (d.oget O.TIMEBASE_SOURCE = 0 && d.oget O.SPARE_STATE = 0 && d.oget O.SPARE_ENABLE = 1) then d else d.pdFail 0 0x3E

/-! ### Commands -/

/-- The port exists. -/
def isPort (n : Nat) : Bool := decide (n ≤ 256)

/-- DP_READ_BURST (R849, R850): GO with DIR read. -/
def execDpReadBurst (port value : Nat) (e : HwErr) (s : State) : Host.Outcome State Fault Refusal :=
  s.runIf (isPort port) fun d => d.barWrite port 0 8 4 fun d =>
    let x := d.port port
    (d.storeErr (bits x.addr 16 16) (bits x.addr 8 8) e).dpCtrl port (setBits (setBits value 31 1 1) 16 1 0)

/-- DP_WRITE_BURST (R849, R851): GO with DIR write. -/
def execDpWriteBurst (port value : Nat) (s : State) : Host.Outcome State Fault Refusal :=
  s.runIf (isPort port) fun d => d.barWrite port 0 8 4 fun d => d.dpCtrl port (setBits (setBits value 31 1 1) 16 1 1)

/-- DP_ABORT (R853): ABORT, and then GO when the value sets it as well. -/
def execDpAbort (port value : Nat) (s : State) : Host.Outcome State Fault Refusal :=
  s.runIf (isPort port) fun d => d.barWrite port 0 8 4 fun d => d.dpCtrl port (setBits value 30 1 1)

/-- DP_DATA_READ (R850). -/
def execDpDataRead (port : Nat) (s : State) : Host.Outcome State Fault Refusal :=
  s.runIf (isPort port) fun d => d.barRead port 0 16 8 fun d => d.dpDataRead port

/-- DP_DATA_WRITE (R851). -/
def execDpDataWrite (port value : Nat) (s : State) : Host.Outcome State Fault Refusal :=
  s.runIf (isPort port) fun d => d.barWrite port 0 16 8 fun d => d.dpDataWrite port value

/-- DP_BURST_DONE (R851): the dictionary engine serves the burst of a port. -/
def execDpBurstDone (port : Nat) (s : State) : Host.Outcome State Fault Refusal := s.runIf (isPort port) fun d => d.dpServe port

/-- DP_REGISTER_WRITE (R848, R875). -/
def execDpRegisterWrite (port reg value : Nat) (s : State) : Host.Outcome State Fault Refusal :=
  s.runIf (isPort port && reg < 4) fun d => d.barWrite port 0 (4 * (reg % 3)) (if reg = 3 then 8 else 4) fun d => d.dpRegister port reg value

/-- CANTOR_READ (R860): a READ request arrives. -/
def execCantorRead (i3c : Bool) (m : CantorMsg) (s : State) : Host.Outcome State Fault Refusal :=
  s.runIf (m.op = 1 && !m.resp) fun d => d.cantorIn i3c m

/-- CANTOR_WRITE (R867): a WRITE request arrives. -/
def execCantorWrite (i3c : Bool) (m : CantorMsg) (s : State) : Host.Outcome State Fault Refusal :=
  s.runIf (m.op = 2 && !m.resp) fun d => d.cantorIn i3c m

/-- CANTOR_READ_BURST (R861): a READ_BURST request arrives. -/
def execCantorReadBurst (i3c : Bool) (m : CantorMsg) (s : State) : Host.Outcome State Fault Refusal :=
  s.runIf (m.op = 3 && !m.resp) fun d => d.cantorIn i3c m

/-- CANTOR_RESPONSE (R863): a response arrives. -/
def execCantorResponse (i3c : Bool) (m : CantorMsg) (s : State) : Host.Outcome State Fault Refusal :=
  s.runIf m.resp fun d => d.cantorIn i3c m

/-- I3C_RELAY (R862): a message arrives that this chip passes between its I3C port and the fabric. -/
def execI3cRelay (i3c : Bool) (m : CantorMsg) (s : State) : Host.Outcome State Fault Refusal :=
  s.runIf (i3c || m.destEp = 1) fun d => d.cantorIn i3c m

/-- NOTIFY (R868): the chip notifies an event of Table 18.10. -/
def execNotify (n : NotifyArg) (s : State) : Host.Outcome State Fault Refusal :=
  s.runIf (1 ≤ n.event && n.event ≤ 8 && n.cause < 256 && n.detail < 256 && n.sev < 4 && n.index < 65536 && n.sub < 256) fun d =>
    if d.boot.running.isSome then d.notify n else d

/-- CANTOR_TIMEOUT_EXPIRY (R866): the request of COUNT `count` has waited CANTOR_TIMEOUT. -/
def execCantorTimeoutExpiry (count : Nat) (s : State) : Host.Outcome State Fault Refusal :=
  s.run fun d =>
    if d.dict.waits.any fun w => w.count = count && w.deadline ≤ d.time then
      Dev.oset { d with dict := { d.dict with waits := d.dict.waits.filter fun w => w.count ≠ count } } O.CANTOR_TX_STATUS 3
    else d

/-- TIMEBASE_SWITCH. -/
def execTimebaseSwitch (s : State) : Host.Outcome State Fault Refusal := s.run Dev.timebaseSwitch

/-- TIMEBASE_FAILURE. -/
def execTimebaseFailure (s : State) : Host.Outcome State Fault Refusal := s.run Dev.timebaseFailure

/-- SPARE_LOSS_OF_LOCK (R872): the spare leaves STANDBY for FAILED. -/
def execSpareLossOfLock (s : State) : Host.Outcome State Fault Refusal :=
  s.run fun d => if d.oget O.SPARE_STATE = 0 then d.oset O.SPARE_STATE 2 else d

end Sys2Proof.Machine
end

