-- ==== Sys2Proof/Machine/Dict.lean ====
section
/-! DEFINITION. Machine/Dict.lean: the commands that write a dictionary object, each along the path that carries it. The status of the
access is sent as `Out.status` (assumption 3). -/

namespace Sys2Proof.Machine

/-- An access reaches the dictionary engine along a path: a port whose function serves requests, a message of the I3C port while the
engine is up, one of the fabric or Sahcy's own access while Sahcy runs (R854, R957). -/
def Dev.pathUp (d : Dev) : Path → Bool
  | .hk => d.barGate 0 = 0
  | .ht t => d.barGate (t + 1) = 0
  | .tc => d.engineUp
  | .fp _ => d.engineUp && d.boot.running.isSome
  | .fw => d.boot.running.isSome

/-- A write of bytes along a path, and its status. -/
def Dev.pathWrite (d : Dev) (p : Path) (i s off byte : Nat) (bs : List Byte) : Dev :=
  if !d.pathUp p then d
  else
    let (d, c) := d.dictWrite p i s off byte bs
    d.emit (.status c)

/-- A write of a scalar along a path. -/
def Dev.rowWrite (d : Dev) (p : Path) (i s v : Nat) : Dev := d.pathWrite p i s 0 0 (leBytes 8 v)

/-- DICT_OBJECT_WRITE (R843): a write to an object that has no row of its own. -/
def execDictObjectWrite (path : Path) (index sub off byte : Nat) (data : List Byte) (s : State) : Host.Outcome State Fault Refusal :=
  s.runIf (path.ok && index < 65536 && sub < 256 && off < 2 ^ 32 && byte < 8 && 0 < data.length && data.length ≤ 4096) fun d =>
    d.pathWrite path index sub off byte data

/-- CANTOR_TX (R863): the header fields and payload of a message are written, and the chip sends it. -/
def execCantorTx (path : Path) (m : CantorMsg) (s : State) : Host.Outcome State Fault Refusal :=
  s.runIf (path.ok && m.payload.length ≤ 256) fun d => d.pathWrite path 0x1120 1 0 0 (leBytes 32 (cantorHeader m) ++ m.payload)

/-- MAINT_GO (R346, R347): the operation that the L2_MAINT record describes starts. -/
def execMaintGo (path : Path) (s : State) : Host.Outcome State Fault Refusal :=
  s.runIf path.ok fun d => d.rowWrite path 0x3220 6 1

/-- FAULT_GET_WRITE (R482): the kernel moves GET of the fault ring. -/
def execFaultGetWrite (path : Path) (value : Nat) (s : State) : Host.Outcome State Fault Refusal :=
  s.runIf path.ok fun d => d.rowWrite path 0x3420 4 value

/-- FAULT_RING_BASE_WRITE (R504): the kernel sets the fault ring's address. -/
def execFaultRingBaseWrite (path : Path) (value : Nat) (s : State) : Host.Outcome State Fault Refusal :=
  s.runIf path.ok fun d => d.rowWrite path 0x3420 1 value

/-- QUEUE_ENABLE (R556, R561): ENABLE of the queue the path selects. -/
def execQueueEnable (path : Path) (s : State) : Host.Outcome State Fault Refusal :=
  s.runIf path.ok fun d => d.rowWrite path 0x4010 7 1

/-- QUEUE_RESET (R556, R600): RESET of the queue the path selects. -/
def execQueueReset (path : Path) (s : State) : Host.Outcome State Fault Refusal :=
  s.runIf path.ok fun d => d.rowWrite path 0x4010 7 2

/-- QUEUE_DISABLE (R556): DISABLE of the queue the path selects. -/
def execQueueDisable (path : Path) (s : State) : Host.Outcome State Fault Refusal :=
  s.runIf path.ok fun d => d.rowWrite path 0x4010 7 0

/-- LOG_POP (R667): the `n` oldest entries of the log the path selects are removed. -/
def execLogPop (path : Path) (n : Nat) (s : State) : Host.Outcome State Fault Refusal :=
  s.runIf path.ok fun d => d.rowWrite path 0x8010 5 n

/-- RETIRE_ADD (R721): the driver retires a page. -/
def execRetireAdd (path : Path) (value : Nat) (s : State) : Host.Outcome State Fault Refusal :=
  s.runIf path.ok fun d => d.rowWrite path 0x6043 0 value

/-- RETIRE_ACK (R721): the driver dismisses a request. -/
def execRetireAck (path : Path) (value : Nat) (s : State) : Host.Outcome State Fault Refusal :=
  s.runIf path.ok fun d => d.rowWrite path 0x6042 0 value

/-- ENTER_TEST (R729): a channel group enters TEST. -/
def execEnterTest (path : Path) (group : Nat) (s : State) : Host.Outcome State Fault Refusal :=
  s.runIf (path.ok && group < 32) fun d => d.rowWrite path 0x6011 0 (256 + group)

/-- LEAVE_TEST (R729): a channel group leaves TEST. -/
def execLeaveTest (path : Path) (group : Nat) (s : State) : Host.Outcome State Fault Refusal :=
  s.runIf (path.ok && group < 32) fun d => d.rowWrite path 0x6011 0 (512 + group)

/-- TG_START (R730): a channel's traffic generator starts. -/
def execTgStart (path : Path) (ch : Nat) (s : State) : Host.Outcome State Fault Refusal :=
  s.runIf (path.ok && ch < 256) fun d => d.rowWrite path (0x6100 + ch) 1 1

/-- TG_STOP (R730): a channel's traffic generator stops. -/
def execTgStop (path : Path) (ch : Nat) (s : State) : Host.Outcome State Fault Refusal :=
  s.runIf (path.ok && ch < 256) fun d => d.rowWrite path (0x6100 + ch) 1 2

/-- LINK_ENABLE_WRITE (R746, R751): a link is enabled or disabled. -/
def execLinkEnableWrite (path : Path) (link value : Nat) (s : State) : Host.Outcome State Fault Refusal :=
  s.runIf (path.ok && link < 20) fun d => d.rowWrite path (0x7100 + link) 1 value

/-- TIME_SET (R787): the root's fabric time is set. -/
def execTimeSet (path : Path) (value : Nat) (s : State) : Host.Outcome State Fault Refusal :=
  s.runIf path.ok fun d => d.rowWrite path 0x7010 7 value

/-- CANTOR_RX_POP (R863): the oldest inbound message is removed. -/
def execCantorRxPop (path : Path) (s : State) : Host.Outcome State Fault Refusal :=
  s.runIf path.ok fun d => d.rowWrite path 0x1120 5 1

/-- PD_ON (R886, R887): a power domain is asked ON. -/
def execPdOn (path : Path) (x : Nat) (s : State) : Host.Outcome State Fault Refusal :=
  s.runIf (path.ok && x < 16) fun d => d.rowWrite path 0x2001 x 1

/-- PD_OFF (R889): a power domain is asked OFF. -/
def execPdOff (path : Path) (x : Nat) (s : State) : Host.Outcome State Fault Refusal :=
  s.runIf (path.ok && x < 16) fun d => d.rowWrite path 0x2001 x 0

/-- PD_LOW (R727, R886): a memory domain is asked into SELF_REFRESH. -/
def execPdLow (path : Path) (x : Nat) (s : State) : Host.Outcome State Fault Refusal :=
  s.runIf (path.ok && x < 16) fun d => d.rowWrite path 0x2001 x 2

/-- RESET_REQUEST_WARM (R930, R932): a WARM reset is requested. -/
def execResetRequestWarm (path : Path) (s : State) : Host.Outcome State Fault Refusal :=
  s.runIf path.ok fun d => d.rowWrite path 0x1012 0 1

/-- RESET_REQUEST_COLD (R930, R932): a COLD reset is requested. -/
def execResetRequestCold (path : Path) (s : State) : Host.Outcome State Fault Refusal :=
  s.runIf path.ok fun d => d.rowWrite path 0x1012 0 2

/-- FLASH_READ (R947): the sector at FLASH_ADDR is read. -/
def execFlashRead (path : Path) (s : State) : Host.Outcome State Fault Refusal :=
  s.runIf path.ok fun d => d.rowWrite path 0x1022 0 1

/-- FLASH_PROGRAM (R947): the erased sector at FLASH_ADDR is programmed. -/
def execFlashProgram (path : Path) (s : State) : Host.Outcome State Fault Refusal :=
  s.runIf path.ok fun d => d.rowWrite path 0x1022 0 2

/-- FLASH_ERASE (R947): the sector at FLASH_ADDR is erased. -/
def execFlashErase (path : Path) (s : State) : Host.Outcome State Fault Refusal :=
  s.runIf path.ok fun d => d.rowWrite path 0x1022 0 3

/-- BOOT_PREFERENCE (R948): the slot to prefer, and a trial of it. -/
def execBootPreference (path : Path) (slot : Nat) (s : State) : Host.Outcome State Fault Refusal :=
  s.runIf path.ok fun d => d.rowWrite path 0x1014 0 slot

/-- BOOT_CONFIRM (R948): the trial is confirmed. -/
def execBootConfirm (path : Path) (value : Nat) (s : State) : Host.Outcome State Fault Refusal :=
  s.runIf path.ok fun d => d.rowWrite path 0x1017 0 value

/-- KEY_REVOKE (R949): signing keys are revoked. -/
def execKeyRevoke (path : Path) (value : Nat) (s : State) : Host.Outcome State Fault Refusal :=
  s.runIf path.ok fun d => d.rowWrite path 0x101B 0 value

/-- CNT_LATCH (R961): every counter is copied at one instant. -/
def execCntLatch (path : Path) (s : State) : Host.Outcome State Fault Refusal :=
  s.runIf path.ok fun d => d.rowWrite path 0x9030 0 1

/-- SNAP_REQUEST (R979): a snapshot of a RUNNING task node. -/
def execSnapRequest (path : Path) (value : Nat) (s : State) : Host.Outcome State Fault Refusal :=
  s.runIf path.ok fun d => d.rowWrite path 0x9050 0 value

/-- CLR_RING_BASE_WRITE (R988): the kernel sets the observation ring's address. -/
def execClrRingBaseWrite (path : Path) (value : Nat) (s : State) : Host.Outcome State Fault Refusal :=
  s.runIf path.ok fun d => d.rowWrite path 0x9010 1 value

/-- DEVICE_UTC_SET (R1030): the pair of UTC and fabric time is set. -/
def execDeviceUtcSet (path : Path) (value : Nat) (s : State) : Host.Outcome State Fault Refusal :=
  s.runIf path.ok fun d => d.rowWrite path 0xB003 1 value

/-- LIFE_COMMIT (R1021): the lifetime record is committed. -/
def execLifeCommit (path : Path) (s : State) : Host.Outcome State Fault Refusal :=
  s.runIf path.ok fun d => d.rowWrite path 0xA004 0 1

end Sys2Proof.Machine
end

