-- ==== Sys2Proof/Machine/Deliver.lean ====
section
/-! DEFINITION. Machine/Deliver.lean: packets of the fabric that arrive for this chip, and the commands of the links and of the
fabric operations that bring them (chapters 16 to 18). -/

namespace Sys2Proof.Machine

/-- One packet delivered locally: a Cantor message, an ERROR packet, or a packet of a fabric operation; false while it waits for
the host. -/
def Dev.deliverOne (d : Dev) (p : FPacket) : Dev × Bool :=
  match p.cls with
  | 0 => ((d.fabricMessage (cantorOf p.content)).cantorServeAll 64, true)
  | 4 => (d.errorTake p, true)
  | _ => d.opPacket p

/-- Act on the packets delivered so far, in their order; those that wait stay. -/
def Dev.deliverRound (d : Dev) : Dev :=
  let items := d.fab.inbox
  items.foldl (fun (d : Dev) (e : Nat × FPacket) =>
    match d.deliverOne e.2 with
    | (d, true) => d
    | (d, false) => { d with fab := { d.fab with inbox := d.fab.inbox ++ [e] } })
    { d with fab := { d.fab with inbox := [] } }

/-- Act on the packets delivered, and on those that this delivers in its turn. -/
def Dev.deliverAll (d : Dev) : Dev := (rangeFrom 0 4).foldl (fun d _ => d.deliverRound) d

/-- Operations whose node has ended otherwise fail with PEER_FAILED to their peers (R816, R828). -/
def Dev.opsSweep (d : Dev) : Dev :=
  (d.fab.ops.map (·.order)).foldl (fun d k =>
    let live := match d.node k with
      | some x => !x.state.ended
      | none => false
    if live then d
    else match d.op k with
      | some o => d.opFail k (opCause o.opc) 7 7 none
      | none => d) d

/-- A packet of a fabric operation comes as a command: at once, or kept with those that wait. -/
def Dev.opArrive (d : Dev) (p : FPacket) : Dev := Dev.deliverAll { d with fab := { d.fab with inbox := d.fab.inbox ++ [(20, p)] } }

/-- The meaning of a row of Table 17.8: the packet has the row's KIND. -/
def State.opRow (s : State) (kind : Nat) (p : FPacket) : Host.Outcome State Fault Refusal :=
  s.runIf ((opHdrOf p).kind = kind && 1 ≤ p.cls && p.cls ≤ 3) fun d => d.opArrive p

/-- A routing entry with an uncorrectable error is invalid until it is written again (R792). -/
def Dev.routeLost (d : Dev) (dest : Nat) : Dev :=
  let k := O.ROUTE_TABLE dest
  (d.oset k (setBits (d.oget k) 31 1 0)).noteEvent 5 0 (linkEng 0)

/-- The router acts on a packet (R766), with what the check of its buffer or of its entry shows (R792). -/
def Dev.packetRoute (d : Dev) (link : Nat) (p : FPacket) (e : HwErr) : Dev :=
  match e with
  | .word _ => d.dropPacket p 0x0F 3 link
  | .corrected .. => ((d.corrected (linkEng link) 0).route link 0 0 0 p).deliverAll
  | .tag => ((d.routeLost p.dest).route link 0 0 0 p).deliverAll
  | _ => (d.route link 0 0 0 p).deliverAll

/-! ### Commands -/

/-- LINK_DOWN (R751); operations whose parent link it was fail (R834). -/
def execLinkDown (link : Nat) (s : State) : Host.Outcome State Fault Refusal := s.runIf (link < 20) fun d => (d.linkDown link).opsLinks

/-- FLIT_RECEIVE (R755). -/
def execFlitReceive (link : Nat) (f : Flit) (e : HwErr) (s : State) : Host.Outcome State Fault Refusal :=
  s.runIf (link < 20) fun d => (d.flitReceive link f e).deliverAll

/-- PACKET_ROUTE (R766): `link` 20 is the chip's own input. -/
def execPacketRoute (link : Nat) (p : FPacket) (e : HwErr) (s : State) : Host.Outcome State Fault Refusal :=
  s.runIf (link ≤ 20) fun d => d.packetRoute link p e

/-- ERROR_PACKET_RECEIVE (R834). -/
def execErrorPacketReceive (p : FPacket) (s : State) : Host.Outcome State Fault Refusal := s.runIf (p.cls = 4) fun d => d.errorTake p

/-- ENTER (R804). -/
def execEnter (p : FPacket) (s : State) : Host.Outcome State Fault Refusal := s.opRow 1 p

/-- RELEASE (R804). -/
def execRelease (p : FPacket) (s : State) : Host.Outcome State Fault Refusal := s.opRow 2 p

/-- ABORT (R815). -/
def execAbortCmd (p : FPacket) (s : State) : Host.Outcome State Fault Refusal := s.opRow 3 p

/-- PULL (R810). -/
def execPull (p : FPacket) (s : State) : Host.Outcome State Fault Refusal := s.opRow 4 p

/-- DATA (R811). -/
def execData (p : FPacket) (s : State) : Host.Outcome State Fault Refusal := s.opRow 5 p

/-- UP (R819). -/
def execUp (p : FPacket) (s : State) : Host.Outcome State Fault Refusal := s.opRow 6 p

/-- DOWN (R819). -/
def execDown (p : FPacket) (s : State) : Host.Outcome State Fault Refusal := s.opRow 7 p

/-- WRITE (R824). -/
def execWrite (p : FPacket) (s : State) : Host.Outcome State Fault Refusal := s.opRow 8 p

/-- ACK (R824). -/
def execAck (p : FPacket) (s : State) : Host.Outcome State Fault Refusal := s.opRow 9 p

/-- BARRIER_PASS (R804): T_rel of the operation with this node has come. -/
def execBarrierPass (op : Nat) (s : State) : Host.Outcome State Fault Refusal := s.run fun d => (d.pass op).deliverAll

/-- ENTER_RESEND (R805). -/
def execEnterResend (op : Nat) (s : State) : Host.Outcome State Fault Refusal := s.run fun d => d.resend op

/-- OP_TIMEOUT_EXPIRY (R833). -/
def execOpTimeoutExpiry (op : Nat) (s : State) : Host.Outcome State Fault Refusal := s.run fun d => d.opTimeout op

end Sys2Proof.Machine
end

