-- ==== Sys2Proof/Machine/HbmCmd.lean ====
section
/-! DEFINITION. Machine/HbmCmd.lean: the commands of the memory controllers (chapter 15). -/

namespace Sys2Proof.Machine

/-- The controllers of a DPA's memory are in a quiesce: they issue no command but refresh (R912). -/
def Dev.memQuiet (d : Dev) (dpa : Nat) : Bool := d.quiescing (memDomain (if dpa < southBase then 0 else 1))

/-- HBM_READ (R711 to R714): a controller reads a sector for an owner (0x1FF for none) and returns it. -/
def execHbmRead (dpa owner : Nat) (err : MemErr) (s : State) : Host.Outcome State Fault Refusal :=
  if (owner ≤ 256 || owner = 0x1FF) && (s.dev.homeDie dpa).isNone then .fault (.noMemory dpa)
  else s.runIf (owner ≤ 256 || owner = 0x1FF) fun d => if d.memQuiet dpa then d else d.hbmRead dpa owner err

/-- HBM_WRITE (R709, R713): a controller writes the bytes of a sector that `mask` names; `err` is what the read of a merge finds. -/
def execHbmWrite (dpa mask : Nat) (data : BitVec 256) (m : SectorMark) (s : State) : Host.Outcome State Fault Refusal :=
  if mask < 2 ^ 32 && (s.dev.homeDie dpa).isNone then .fault (.noMemory dpa)
  else s.runIf (mask < 2 ^ 32) fun d => if d.memQuiet dpa then d else d.hbmWrite dpa mask data.toNat m.poison m.err

/-- STACK_TEMP_READ (R725, R739): a stack's hottest reading, degrees times 4; the throttle of the octants follows it. -/
def execStackTempRead (stack : Nat) (temp : Int) (s : State) : Host.Outcome State Fault Refusal :=
  s.runIf (stack < 8) fun d => (d.stackTemp stack temp).throttleAll

/-- REFRESH (R726): bank 64 * pc + b is bank b of pseudo-channel pc. -/
def execRefresh (ch bank kind : Nat) (s : State) : Host.Outcome State Fault Refusal :=
  s.runIf (ch < 256 && bank < 128 && kind < 4) fun d => d.refresh ch bank kind

/-- STROBE_REALIGN (R724). -/
def execStrobeRealign (ch : Nat) (s : State) : Host.Outcome State Fault Refusal := s.runIf (ch < 256) fun d => d.strobe ch

/-- PATROL_SCRUB (R728). -/
def execPatrolScrub (ch : Nat) (err : MemErr) (s : State) : Host.Outcome State Fault Refusal := s.runIf (ch < 256) 
  fun d => if d.quiescing (memDomain (ch / 128)) then d else d.patrol ch err

/-- CA_PARITY_RETRY (R738): `trained` is the outcome of a retraining, when the failure is the fourth in a row. -/
def execCaParityRetry (ch : Nat) (trained : Bool) (s : State) : Host.Outcome State Fault Refusal :=
  s.runIf (ch < 256) fun d => d.caParity ch trained

/-- TG_DONE (R733), with the errors its channel or loop shows. -/
def execTgDone (x : TgEnd) (s : State) : Host.Outcome State Fault Refusal :=
  s.runIf (x.ch < 256 && x.errs.all TgErr.ok) fun d => d.tgDone x.ch x.errs

end Sys2Proof.Machine
end

