-- ==== Sys2Proof/Machine/Tick.lean ====
section
/-! DEFINITION. Machine/Tick.lean: one tick of the precentor (R562): its six steps, and the timers that fire in it (chapters 12 and
13). -/

namespace Sys2Proof.Machine

/-! ### Step 2: the outcomes of running nodes (R580, R584, R590) -/

/-- Cores whose completion a task awaits. -/
def Node.width (x : Node) : Nat := if x.opc ≠ 1 then 1 else if tkTandem x.body then 2 else tkGang x.body

/-- The cause allows a re-dispatch (R143): an uncorrectable error, or a tandem mismatch. -/
def redispatchCause (c : Nat) : Bool := c = 5 || c = 0x0D

/-- The report that decides a node in a tick, by the priority of R590: deadlock, another cause that forbids retry, an abort for a
batch or a re-dispatch cause, completion of every core. -/
def Node.verdict (x : Node) : Option Report :=
  let rs := x.reports
  let forbids := fun (r : Report) => r.kind = 2 && !redispatchCause r.cause
  ((((rs.find? fun r => forbids r && r.cause = 9).or (rs.find? forbids)).or (rs.find? fun r => r.kind = 3 || r.kind = 4)).or
    (rs.find? fun r => r.kind = 2)).or
    (if x.width ≤ (rs.filter fun r => r.kind = 1).length then rs.head? else none)

/-- An abort for an uncorrectable error: a restartable task is re-dispatched (R359), for a stream read once for each device address
(R412); otherwise it is contained. -/
def Dev.eccAbort (d : Dev) (x : Node) (r : Report) : Dev :=
  if x.restartable && !(r.stream && x.eccLast = some r.addr) then
    ((d.nodeLog x r.cause r.detail .note r).nodeRequeue x).onNode x.order fun y =>
      { y with eccLast := if r.stream then some r.addr else y.eccLast }
  else d.nodeFail x r.cause r.detail .contained r

/-- An abort for a tandem mismatch (R686): a restartable task runs again once, in another cloister, from the next tick. -/
def Dev.mismatchAbort (d : Dev) (x : Node) (r : Report) : Dev :=
  if x.restartable && x.mismatches = 0 then
    (d.nodeRequeue x).onNode x.order fun y =>
      { y with mismatches := 1, avoid := some (r.core / 4), notBefore := d.time + 1000 }
  else d.nodeFailed x r.cause r.detail .note r

/-- The cores of a completed task are idle. -/
def Dev.coresFree (d : Dev) (x : Node) : Dev := (d.coresOf x).foldl (fun d n => d.onCore n Core.release) d

/-- Apply the deciding report of a node. -/
def Dev.outcome (d : Dev) (x : Node) (r : Report) : Dev :=
  let ev := fun (d : Dev) (e c : Nat) => d.clrEvent e c x.graph x.owner x.queue x.id (if x.opc = 1 then x.core else 0) x.width
  if r.kind = 1 then ev ((d.coresFree x).nodeRetire x r.core) 2 0
  else
    let d := if r.kind = 3 || r.kind = 4 then d.batchAbort x r
      else if r.cause = 5 then d.eccAbort x r
      else if r.cause = 0x0D then d.mismatchAbort x r
      else d.nodeFail x r.cause r.detail .note r
    ev d 3 r.cause

/-- Resolve every running node with a deciding report; answers the nodes that were resolved, which no timer of this tick meets
(R494, R589). -/
def Dev.resolve (d : Dev) : Dev × List Nat :=
  (d.prec.nodes.map (·.order)).foldl (fun (a : Dev × List Nat) k =>
    match a.1.node k with
    | none => a
    | some x =>
      if x.state ≠ .running then a
      else match x.verdict with
        | some r => (a.1.outcome x r, a.2 ++ [k])
        | none => a) (d, [])

/-- Nodes that await FAULT_RESUME are acted on as far as their batches allow (R490). -/
def Dev.resumeAll (d : Dev) : Dev :=
  (d.prec.nodes.filter fun x => x.state = .awaitResume).foldl (fun d x => d.resumeCheck x) d

/-! ### Step 3: timers (R585 to R587) -/

/-- The budget of a running task is due. -/
def Node.budgetDue (x : Node) (now : Nat) : Bool :=
  x.opc = 1 && x.state = .running && x.dispatchedAt + 1000 * tkBudget x.body ≤ now

/-- A completion timer fires (R587): the task is aborted; one that is not restartable tears its context down. -/
def Dev.timeout (d : Dev) (x : Node) : Dev :=
  let sev := if x.opc = 1 && !x.restartable then Sev.contained else .note
  (d.oinc O.TIMER_EXPIRIES).ownFails x 7 sev true fun d => d.nodeFail x 7 0 sev .none

/-- A budget expires (R586). -/
def Dev.budgetEnd (d : Dev) (x : Node) : Dev :=
  (d.oinc O.TIMER_EXPIRIES).ownFails x 0x0A .note true fun d => d.nodeFail x 0x0A 0 .note .none

/-- The timers of a tick, those of the nodes it has resolved apart. -/
def Dev.timers (d : Dev) (skip : List Nat) : Dev :=
  (d.prec.nodes.map (·.order)).foldl (fun (d : Dev) k =>
    match d.node k with
    | none => d
    | some x =>
      if skip.contains k then d
      else if x.timeoutDue d.time then d.timeout x
      else if x.budgetDue d.time then d.budgetEnd x
      else d) d

/-- The timer of one node, on its own. -/
def Dev.nodeTimer (d : Dev) (n : NodeRef) (due : Node → Bool) (f : Dev → Node → Dev) : Dev :=
  match d.nodeIn n.owner n.queue n.graph n.node with
  | some x => if due x then f d x else d
  | none => d

/-- The queue timers of a tick (R588). -/
def Dev.queueTimers (d : Dev) : Dev :=
  (d.prec.queues.map (·.1)).foldl (fun d k => if d.queueDue k then d.queueExpire k else d) d

/-- A switch of the horarium table, or the frames begun since the last tick. -/
def Dev.horTick (d : Dev) : Dev :=
  let s := d.horSwitch
  if d.prec.sched.staged.isSome && s.prec.sched.staged.isNone then s else s.frames

/-! ### Step 4: fetching (R511, R533, R534, R557, R563, R603) -/

/-- The code of host reads that bring a packet. -/
def usePacket : Nat := 7
/-- The code of host reads that bring the doubleword of a WAIT. -/
def useWait : Nat := 5
/-- The code of host reads that bring the doubleword of a SIGNAL with ADD. -/
def useSignal : Nat := 6

/-- Packets of queue `k` are fetched: its owner is served, its function is neither DISABLED nor IN_FLR, the host port is not LIMITED,
the PF not in D3hot and the device not failed (R511, R532, R534, R676). -/
def Dev.fetchOk (d : Dev) (k : Nat) : Bool :=
  let st := d.funcState (fnOf (k / 16))
  (d.queue k).state = .enabled && d.ownerLive (k / 16) && st ≠ 0 && st ≠ 3 && d.oget O.HOSTPORT_STATE ≠ 1 && !d.host.d3hot && !d.failed

/-- Read the packet with ring count `n` of queue `k`; none when the read waits for Bus Master Enable (R533). `ecc` marks an
uncorrectable error. -/
def Dev.packetRead (d : Dev) (k n : Nat) (ecc : Bool) : Dev × Option PRead :=
  let q := d.queue k
  match d.vaRead 0x3000 (k / 16) (q.pqBase + 64 * (n % q.pqSlots)) 64 usePacket (2 ^ 32 * k + n) with
  | (d, .ok bs po) => (d, some ⟨n, leNat bs, true, if ecc then 5 else if po then 6 else 0, 0⟩)
  | (d, .wait) => (d, some ⟨n, 0, false, 0, 0⟩)
  | (d, .fail f) => (d, if f.cause = 0x30 && !(d.func (fnOf (k / 16))).busMaster then none else some ⟨n, 0, true, f.cause, f.detail⟩)

/-- Ask again for the packets whose read has not been sent, as one whose translation was awaited. -/
def Dev.readsAgain (d : Dev) (k : Nat) : Dev :=
  (d.queue k).readAhead.foldl (fun (d : Dev) r =>
    if r.back || d.host.reads.any (fun h => h.use = usePacket && h.arg = 2 ^ 32 * k + r.count) then d
    else match d.packetRead k r.count false with
      | (d, some x) => d.onQueue k fun q => { q with readAhead := q.readAhead.map fun (y : PRead) => if y.count = r.count then x else y }
      | (d, none) => d) d

/-- Data of a packet has come from the host. -/
def Dev.packetData (d : Dev) (arg : Nat) (bs : List Byte) (cause : Nat) : Dev :=
  d.onQueue (arg / 2 ^ 32) fun q => { q with readAhead := q.readAhead.map fun (y : PRead) =>
    if y.count = arg % 2 ^ 32 && !y.back then { y with packet := leNat bs, back := true, cause := cause } else y }

/-- Accept the packets of a queue whose reads have returned, in ring order (R563); answers how many more the tick may accept. -/
def Dev.acceptLoop (d : Dev) (k : Nat) (ecc : Bool) : Nat → Dev × Nat
  | 0 => (d, 0)
  | left + 1 =>
    let q := d.queue k
    match q.readAhead with
    | [] => (d, left + 1)
    | r :: _ =>
      if !r.back || r.count ≠ q.get || q.get = q.put || !d.acceptable k then (d, left + 1)
      else if r.cause ≠ 0 then (d.haltQueue k r.cause r.detail 0 0 (q.pqBase + 64 * (r.count % q.pqSlots)) true, left)
      else Dev.acceptLoop (d.acceptPacket k r.packet ecc) k false left

/-- Issue reads of further packets, up to PUT and at most 32 ahead (R563); answers how many more the tick may issue. -/
def Dev.issueLoop (d : Dev) (k : Nat) (ecc : Bool) : Nat → Dev × Nat
  | 0 => (d, 0)
  | left + 1 =>
    let q := d.queue k
    let n := (q.get + q.readAhead.length) % 2 ^ 32
    if q.state ≠ .enabled || !d.readable k || 32 ≤ q.readAhead.length || n = q.put then (d, left + 1)
    else match d.packetRead k n ecc with
      | (d, none) => (d, left + 1)
      | (d, some r) => Dev.issueLoop (d.onQueue k fun q => { q with readAhead := q.readAhead ++ [r] }) k false left

/-- A doorbell value below the previous PUT shortens the packets still to fetch (R558). -/
def Queue.trim (q : Queue) : Queue :=
  { q with readAhead := q.readAhead.filter fun r => (r.count + 2 ^ 32 - q.get) % 2 ^ 32 < (q.put + 2 ^ 32 - q.get) % 2 ^ 32 }

/-- Visit one queue (R563): `acc` and `rd` are the packets the tick may still accept and read. -/
def Dev.visit (d : Dev) (e : HwErr) (k acc rd : Nat) : Dev × Nat × Nat :=
  if !d.fetchOk k then (d, acc, rd)
  else
    let ecc := fun v => match e with
      | .reg r w => r = k && w = v
      | _ => false
    let d := (d.onQueue k Queue.trim).readsAgain k
    let d := if (d.queue k).full then d.cqGetRead k else d
    let (d, acc) := d.acceptLoop k (ecc 1) acc
    let (d, rd) := if acc = 0 then (d, rd) else d.issueLoop k (ecc 0) rd
    (d, acc, rd)

/-- Visit tenant queues in turn until a limit of the tick is reached; answers the queue the next tick starts from when the visit
ends early. -/
def Dev.visitAll (d : Dev) (e : HwErr) : List Nat → Nat → Nat → Dev × Option Nat × Nat × Nat
  | [], acc, rd => (d, none, acc, rd)
  | k :: ks, acc, rd =>
    let (d, acc, rd) := d.visit e k acc rd
    if acc = 0 || rd = 0 then (d, some (k + 1), acc, rd) else Dev.visitAll d e ks acc rd

/-- The packets of step 4 (R563): kernel queues in ascending number, then tenant pairs round-robin. -/
def Dev.fetchStep (d : Dev) (e : HwErr) : Dev :=
  let ks := (d.prec.queues.filter fun q => q.2.state = .enabled).map (·.1)
  match d.visitAll e (ks.filter fun k => 4096 ≤ k) 512 512 with
  | (d, some _, _, _) => d
  | (d, none, acc, rd) =>
    let ts := ks.filter fun k => k < 4096
    let order := (ts.filter fun k => d.prec.rrNext ≤ k) ++ ts.filter fun k => k < d.prec.rrNext
    match order with
    | [] => d
    | first :: _ =>
      let (d, stop, _, _) := d.visitAll e order acc rd
      { d with prec := { d.prec with rrNext := stop.getD (first + 1) } }

/-- The comparison of a WAIT (Table 12.6). -/
def waitHolds (p v : Nat) : Bool :=
  let c := bits p 192 64
  match bits p 64 2 with
  | 0 => v = c
  | 1 => v ≠ c
  | 2 => c ≤ v
  | _ => v < c

/-- The value a WAIT has read (R582); poison in it fails the node with ERR_POISON. -/
def Dev.waitValue (d : Dev) (x : Node) (v : Nat) (poison : Bool) : Dev :=
  if poison then d.report x.order x.dispatches { Report.none with cause := 6, addr := bits x.body 128 64 }
  else if waitHolds x.body v then d.reportDone x else d

/-- The reads of running WAIT nodes (R582, R599). -/
def Dev.waitReads (d : Dev) : Dev :=
  (d.prec.nodes.filter fun x => x.opc = 5 && x.state = .running && x.reports.isEmpty).foldl (fun d x =>
    let a := bits x.body 128 64
    if d.host.reads.any (fun r => r.use = useWait && r.arg = x.order) then d
    else match d.vaRead 0x3000 x.owner a 8 useWait x.order with
      | (d, .ok bs po) => d.waitValue x (leNat bs) po
      | (d, .wait) => d
      | (d, .fail f) => d.nodeFault x 0x3000 [nodeRec x 0x3000 0 a f]) d

/-! ### Step 5: dispatch (R582, R623, R796) -/

/-- Order of the nodes that are not tasks. -/
def Node.opKey (x : Node) : List Nat := [x.readyAt, x.owner, x.queue, x.graph, x.id]

/-- Write a doubleword for a SIGNAL or TIMESTAMP node. -/
def Dev.nodeWrite (d : Dev) (x : Node) (v : Nat) : Dev :=
  let a := bits x.body 128 64
  match d.vaWrite 0x3000 x.owner a (leBytes 8 v) false with
  | (d, .ok ..) => d.reportDone x
  | (d, .wait) => d
  | (d, .fail f) => d.nodeFault x 0x3000 [nodeRec x 0x3000 1 a f]

/-- The doubleword a SIGNAL with ADD has read is written back with VALUE added. -/
def Dev.signalAdd (d : Dev) (x : Node) (v : Nat) (poison : Bool) : Dev :=
  if poison then d.report x.order x.dispatches { Report.none with cause := 6, addr := bits x.body 128 64 }
  else d.nodeWrite x ((v + bits x.body 192 64) % 2 ^ 64)

/-- A SIGNAL to memory (R582). -/
def Dev.signalMemory (d : Dev) (x : Node) : Dev :=
  let a := bits x.body 128 64
  if !bit x.body 65 then d.nodeWrite x (bits x.body 192 64)
  else if d.host.reads.any (fun r => r.use = useSignal && r.arg = x.order) then d
  else match d.translate 0x3000 x.owner a 2 with
    | (d, .fail f) => d.nodeFault x 0x3000 [nodeRec x 0x3000 2 a f]
    | (d, .wait) => d
    | (d, _) =>
      match d.vaRead 0x3000 x.owner a 8 useSignal x.order with
      | (d, .ok bs po) => d.signalAdd x (leNat bs) po
      | (d, .wait) => d
      | (d, .fail f) => d.nodeFault x 0x3000 [nodeRec x 0x3000 0 a f]

/-- Change a doubleword of a core's LM as a SIGNAL does, which may release a CWAIT (R80). -/
def Dev.signalWrite (d : Dev) (n p : Nat) : Dev :=
  let a := bits p 128 19
  let old := (d.core n).lmRead a 8
  if bit p 65 then d.lmWrite n a 8 ((old.1 + bits p 192 64) % 2 ^ 64) old.2 0 else d.lmWrite n a 8 (bits p 192 64) false 0

/-- A SIGNAL to a task (R582): it waits until its target runs on every core of its gang; a target that has left RUNNING for good, or
is no TASK, fails it. -/
def Dev.signalTask (d : Dev) (x : Node) : Dev :=
  let fail := fun (d : Dev) => d.report x.order x.dispatches { Report.none with cause := 0x31, detail := 0x0B }
  match d.nodeIn x.owner x.queue x.graph (bits x.body 96 32) with
  | none => fail d
  | some y =>
    let cs := d.coresOf y
    if y.opc ≠ 1 || y.state.ended || y.state = .awaitResume then fail d
    else if y.state ≠ .running || cs.length ≠ y.width || cs.any (fun n => !(d.core n).started) then d
    else (cs.foldl (fun (d : Dev) n => d.signalWrite n x.body) d).reportDone x

/-- What a running SIGNAL or TIMESTAMP that has not reported does in a tick. -/
def Dev.nodeAct (d : Dev) (x : Node) : Dev :=
  if x.opc = 9 then d.nodeWrite x x.dispatchedAt
  else if x.opc = 4 then (if bit x.body 64 then d.signalTask x else d.signalMemory x)
  else d

/-- The descriptors a fabric operation reads at its dispatch, and the captures its destination tears (R448, R976). -/
def Dev.opInputs (d : Dev) (x : Node) : Dev × Option Nat :=
  if x.opc = 6 then
    let lo := cpDst x.body
    let hi := lo + cpLength x.body
    (if cpRemote x.body then d else d.tear x.owner (fun c => lo < tdEnd c.desc && tdBase c.desc < hi) false, none)
  else if x.refs.isEmpty then (d, none)
  else
    let h := fxHandles x.opc x.body
    match d.readDescs x.owner [(0, h.1), (1, h.2)] with
    | (d, .inr bad) => (d, some bad)
    | (d, .inl _) => (d.tear x.owner (fun c => c.handle = h.2) false, none)

/-- The owner is admitted on some chapel (R796). -/
def Dev.admittedAny (d : Dev) (o : Nat) : Bool := (rangeFrom 0 16).any fun c => d.admitted c o d.time

/-- Dispatch one READY node that is no task (R582, R796); answers whether it was dispatched. -/
def Dev.nodeGo (d : Dev) (x : Node) : Dev × Bool :=
  let run := fun (d : Dev) => d.onNode x.order fun y => y.start d.time
  let y := x.start d.time
  match x.opc with
  | 4 => (if bit x.body 64 then run d else (run d).nodeAct y, true)
  | 5 => (run d, true)
  | 9 => ((run d).nodeAct y, true)
  | 0x0A => (((run d).armWatch y).reportDone y, true)
  | 0x0B => ((run d).nodeRetire y 0xFFFFFFFF, true)
  | _ =>
    if !d.admittedAny x.owner || ((d.op x.order).isNone && d.oget O.FABRIC_OPS_MAX ≤ d.fab.ops.length) then (d, false)
    else match d.opInputs x with
      | (d, some h) => (d.nodeFail x 5 0 .note { Report.none with addr := h }, true)
      | (d, none) => ((run d).opDispatch y, true)

/-- Dispatch the nodes that are no tasks, in order, up to 64 (R623); answers how many were. -/
def Dev.nodesGo (d : Dev) : List Node → Nat → Dev × Nat
  | [], n => (d, n)
  | x :: xs, n =>
    if 64 ≤ n then (d, n)
    else
      let live := match d.node x.order with
        | some y => y.state = .ready
        | none => false
      if !live then Dev.nodesGo d xs n
      else match d.nodeGo x with
        | (d, true) => Dev.nodesGo d xs (n + 1)
        | (d, false) => Dev.nodesGo d xs n

/-- Step 5: the nodes that are READY at its start, tasks last; then the SIGNALs and TIMESTAMPs that have not acted. -/
def Dev.dispatchStep (d : Dev) (displaced : List Nat) : Dev :=
  if d.failed then d
  else
    let rd := d.prec.nodes.filter fun x => x.state = .ready && x.notBefore ≤ d.time && d.ownerLive x.owner
    let (d, n) := d.nodesGo (sortBy (fun a b => keyLe a.opKey b.opKey) (rd.filter fun x => x.opc ≠ 1)) 0
    let fresh := fun (x : Node) => x.state = .ready && !(rd.any fun y => y.order = x.order)
    let d := { d with prec := { d.prec with nodes := mapIf fresh (fun x => { x with notBefore := max x.notBefore (d.time + 1) }) d.prec.nodes } }
    let d := d.dispatchTasks displaced n
    (d.prec.nodes.filter fun x => x.state = .running && x.reports.isEmpty && (x.opc = 4 || x.opc = 9)).foldl (fun d x => d.nodeAct x) d

/-! ### The tick (R562, R617) -/

/-- The fabric time of the next tick: the next multiple of 1,000 ns at which no tick has run. -/
def Dev.nextTick (d : Dev) : Nat :=
  if d.time % 1000 = 0 && d.prec.sched.lastTick < d.time then d.time else (d.time / 1000 + 1) * 1000

/-- Core clocks of core `n` in `ns` nanoseconds. -/
def Dev.coreClocks (d : Dev) (n ns : Nat) : Nat := ns * d.oget (O.OCT_CLOCK (n / 32)) / 1000

/-- The cores count the quiet core clocks of a time that passes (R92), none of a quiesce (R912). -/
def Dev.quietPass (d : Dev) (ns : Nat) : Dev :=
  (d.nave.cores.filter fun e => e.2.task.isSome).foldl (fun d e =>
    let q := d.quiet e.1
    let on := !d.quiescing (4 + e.1 / 32)
    d.onCore e.1 fun c => { c with quietFor := if !q then 0 else if on then c.quietFor + d.coreClocks e.1 ns else c.quietFor }) d

/-- The counters that sum over clocks, for a time that passes (R960, Table 21.2): core clocks holding a task, Lark requests in flight,
stall-clocks with no choir ready, and uncore clocks with a slice's MSHR file full (assumption 91). -/
def Dev.sumsPass (d : Dev) (ns : Nat) : Dev :=
  let d := (d.nave.cores.filter fun e => e.2.task.isSome).foldl (fun (d : Dev) e =>
    let k := if d.quiescing (4 + e.1 / 32) then 0 else d.coreClocks e.1 ns
    let idle := (rangeFrom 0 4).filter fun st => (e.2.nextSlot (d.sound e.1) st 0).isNone
    ((d.count 0 e.1 0 k).count 0 e.1 6 (k * d.larkFlight e.1)).count 0 e.1 7 (k * idle.length)) d
  (d.l2.mshrs.map fun m => sliceOf m.line).eraseDups.foldl (fun (d : Dev) s =>
    if 128 ≤ (d.l2.mshrs.filter fun m => sliceOf m.line = s).length then d.count 1 s 5 (ns * 1024 / 683) else d) d

/-- Fabric time passes to the tick: what is still to be slewed shrinks by 50 ns in each ms (R774); maintenance scans go on (R347), data
on their way from the slices arrive, quiet core clocks and the clocks of links without credit are counted, a commit that waits for
another starts (R1032), and what a quiesce held goes on (R912). -/
def Dev.timePass (d : Dev) (t : Nat) : Dev :=
  let ns := t - d.time
  let d := ((((d.sumsPass ns).maintScan ns).l2Arrive).quietPass ns).creditStalls ns
  let s := d.fab.slew
  let s := if t / 1000 % 5 = 0 then s else if 0 < s then s - 1 else if s < 0 then s + 1 else s
  Dev.linksGo (Dev.l2Retry (Dev.lifePass { d with time := t, fab := { d.fab with frac := 0, slew := s } }))

/-- What the precentor finds in its own tables (R604, R645): an uncorrectable error in graph state fails the device; one in a
horarium table ends that table; one in the error-handling hardware is escalated (R674). -/
def Dev.tableErrors (d : Dev) (e : HwErr) : Dev :=
  match e with
  | .corrected .. => d.corrected 0x3000 0
  | .word 0 => d.horLost false
  | .word 1 => d.horLost true
  | .tag => d.raise { cause := 5, sev := .device }
  | .dirty _ => d.raise { cause := 5, sev := .device }
  | .handling 0 => d.escalate 5 true
  | .handling 1 => d.escalate 5 false
  | .handling _ => d.escalate 7 true
  | _ => d

/-- Step 1: what reached the precentor is latched; a reload of a window table that the last tick left has ended (R503; assumption 79). -/
def Dev.tickLatch (d : Dev) : Dev :=
  let ks := d.prec.queues.map (·.1)
  let d := Dev.atsInvGo { d with tr := { d.tr with reloads := [] } }
  let d := d.schedApply
  let d := if d.oget O.HOSTPORT_STATE = 1 then d else ks.foldl Dev.doorbellLatch d
  (ks.foldl Dev.enableRetry d).invalLatch

/-- Step 2; answers the nodes resolved. -/
def Dev.tickRetire (d : Dev) : Dev × List Nat :=
  let (d, done) := d.resolve
  let d := d.resumeAll.charge
  ((d.prec.queues.map (·.1)).foldl Dev.fenceCheck d, done)

/-- Step 3; answers the cores that an URGENT entry displaces. -/
def Dev.tickTimers (d : Dev) (done : List Nat) : Dev × List Nat :=
  let d := ((d.timers done).queueTimers).batchTick
  let d := (d.fab.ops.map (·.order)).foldl Dev.opTimeout d
  let d := (d.horTick.urgentFloors).teardownNext
  d.boundaries

/-- In DEVICE_FAILED every running task is aborted (R676). -/
def Dev.failedAborts (d : Dev) : Dev :=
  if !d.failed then d else (d.prec.nodes.filter fun x => x.state = .running && x.opc = 1).foldl (fun d x => d.abortCores x false) d

/-- The six steps of a tick (Table 12.4). -/
def Dev.tickSteps (d : Dev) (e : HwErr) : Dev :=
  let d := (d.tableErrors e).tickLatch
  let (d, done) := d.tickRetire
  let (d, displaced) := d.tickTimers done
  let d := ((d.gatherGo).waitReads).fetchStep e
  let d := d.dispatchStep displaced
  let d := (d.prec.queues.map (·.1)).foldl Dev.fenceCheck d
  (d.faultFlush 8192).recordsStep

/-- One tick: fabric time passes to it; links, operations and the dictionary's queue go on; after a backward step of fabric time no
tick runs before time passes the last one (R617). Without PD_1, or before the firmware runs, there is none. -/
def Dev.tick (d : Dev) (e : HwErr) : Dev :=
  if d.boot.inReset || d.boot.running.isNone || d.oget O.BOOT_PHASE ≠ 4 then d
  else
    let t := d.nextTick
    let d := ((((d.timePass t).passAll).opsLinks).pullNext).deliverAll
    if t ≤ d.prec.sched.lastTick then d
    else
      let d := (d.tickSteps e).failedAborts
      let d := (((d.opsSweep).powerTick.hostReadsGo 1024).cantorServeAll 64).clocksClose
      d.onSched fun s => { s with lastTick := t }

/-! ### Commands -/

/-- PRECENTOR_TICK (R562). -/
def execPrecentorTick (e : HwErr) (s : State) : Host.Outcome State Fault Refusal := s.run fun d => d.tick e

/-- TASK_TIMEOUT (R587): the completion timer of a task, when it is due. -/
def execTaskTimeout (n : NodeRef) (s : State) : Host.Outcome State Fault Refusal :=
  s.run fun d => d.nodeTimer n (fun x => x.opc = 1 && x.timeoutDue d.time) Dev.timeout

/-- BUDGET_EXPIRY (R586): the budget of a running task, when it is due. -/
def execBudgetExpiry (n : NodeRef) (s : State) : Host.Outcome State Fault Refusal :=
  s.run fun d => d.nodeTimer n (fun x => x.budgetDue d.time) Dev.budgetEnd

/-- WAIT_TIMEOUT (R587): the timer of a WAIT, when it is due. -/
def execWaitTimeout (n : NodeRef) (s : State) : Host.Outcome State Fault Refusal :=
  s.run fun d => d.nodeTimer n (fun x => x.opc = 5 && x.timeoutDue d.time) Dev.timeout

end Sys2Proof.Machine
end

