-- ==== Sys2Proof/Machine/Host.lean ====
section
/-! DEFINITION. Machine/Host.lean: what a host does through the host port (chapter 11): BARs, doorbells, MSI-X, configuration writes,
function resets, the link, and the completions of the device's own reads. -/

namespace Sys2Proof.Machine

/-! ### Errors of the host port -/

/-- ECC in the host port's own buffers (R552). -/
def Dev.hostPortErr (d : Dev) : HwErr → Dev
  | .none => d
  | .corrected .. => d.corrected 0x5000 0
  | _ => d.raise { cause := 5, sev := .device, eng := 0x5000 }

/-- A TLP with EP set has arrived for a function (Table 11.13). -/
def Dev.poisoned (d : Dev) (h : TlpHeader) (ep : Bool) : Dev :=
  if ep then (d.oinc O.HOST_POISON_RECEIVED).aer h.fn 0x0C (some h) else d

/-! ### Doorbells (R523 to R525) -/

/-- A doorbell write reaches the latch of its queue. Writes to BAR2 are applied before the next command, so none is awaited. -/
def Dev.doorbell (d : Dev) (owner q v : Nat) (ep : Bool) : Dev :=
  d.barWrite (fnOf owner) 0 (0x10000 + 0x1000 * q) 4 fun d =>
    if ep then (d.poisoned ⟨fnOf owner, 0, 1, 0, 0x10000 + 0x1000 * q, 4⟩ true).oinc O.BAR_MISUSE
    else (d.onQueue (16 * owner + q) fun x => { x with latch := some v }).oinc O.DOORBELLS

/-! ### MSI-X (R522, R528 to R531) -/

/-- Vectors of a function. -/
def vectorsOf (fn : Nat) : Nat := if fn = 0 then 256 else 32

/-- Offset of a function's MSI-X table in its BAR0. -/
def msixBase (fn : Nat) : Nat := if fn = 0 then 0x20000 else 0x1000

/-- Offset of its Pending Bit Array. -/
def pbaBase (fn : Nat) : Nat := if fn = 0 then 0x21000 else 0x1800

/-- Bytes of its Pending Bit Array. -/
def pbaSize (fn : Nat) : Nat := if fn = 0 then 32 else 8

/-- An entry as 16 bytes: message address, data, and vector control with the mask in bit 0. -/
def MsixEntry.word (e : MsixEntry) : Nat := e.addr + e.data * 2 ^ 64 + b2n e.masked * 2 ^ 96

/-- The entry that 16 bytes spell; address bits 1 and 0 are fixed at 0. -/
def msixOf (w : Nat) : MsixEntry := ⟨bits w 2 62 * 4, bits w 64 32, bit w 96⟩

/-- Nothing holds back a function's messages but their own masks. -/
def Dev.msixOpen (d : Dev) (fn : Nat) : Bool :=
  let f := d.func fn
  let st := d.funcState fn
  f.msixEnable && !f.funcMask && f.busMaster && st ≠ 0 && st ≠ 3 && !d.host.d3hot

/-- Send the pending vectors of a function that are unmasked, in the order in which they became pending (R530, R545). -/
def Dev.msixFlush (d : Dev) (fn : Nat) : Dev :=
  if !d.msixOpen fn then d
  else
    let f := d.func fn
    let go := f.pba.reverse.filter fun v => !(f.entry v).masked
    let d := d.setFunc fn { f with pba := f.pba.filter fun v => (f.entry v).masked }
    go.foldl (fun d v => d.sendMsix fn v) d

/-- Write bytes of a table entry; unmasking sends a pending message (R530). -/
def Dev.msixPut (d : Dev) (fn vec off size v : Nat) : Dev :=
  let f := d.func fn
  let w := setBits (f.entry vec).word (8 * off) (8 * size) (v % 2 ^ (8 * size))
  (d.setFunc fn { f with table := dset ⟨0, 0, true⟩ f.table vec (msixOf w) }).msixFlush fn

/-- The Pending Bit Array as one number. -/
def Func.pbaWord (f : Func) : Nat := maskOf f.pba

/-- An offset and size are an allowed access to the MSI-X table (R522). -/
def inTable (fn off size : Nat) : Bool :=
  (size = 4 || size = 8) && off % size = 0 && msixBase fn ≤ off && off + size ≤ msixBase fn + 16 * vectorsOf fn

/-- An offset and size are an allowed access to the Pending Bit Array. -/
def inPba (fn off size : Nat) : Bool :=
  (size = 4 || size = 8) && off % size = 0 && pbaBase fn ≤ off && off + size ≤ pbaBase fn + pbaSize fn

/-- Bytes of the table or the Pending Bit Array. -/
def Dev.msixRead (d : Dev) (fn off size : Nat) : Nat :=
  if inTable fn off size then
    let o := off - msixBase fn
    bits ((d.func fn).entry (o / 16)).word (8 * (o % 16)) (8 * size)
  else bits (d.func fn).pbaWord (8 * (off - pbaBase fn)) (8 * size)

/-- A write to the table; the Pending Bit Array is read-only, and a write to it changes nothing. -/
def Dev.msixWrite (d : Dev) (fn off size v : Nat) : Dev :=
  if inTable fn off size then
    let o := off - msixBase fn
    d.msixPut fn (o / 16) (o % 16) size v
  else if inPba fn off size then d
  else d.oinc O.BAR_MISUSE

/-! ### Reads of a BAR (R518 to R522, R1062) -/

/-- DP_CTRL as it reads: GO and ABORT are write-only. -/
def DPort.ctrlWord (x : DPort) : Nat := x.length + b2n x.dir * 2 ^ 16

/-- A read that returns zeros and is counted. -/
def Dev.readZeros (d : Dev) (fn size : Nat) : Dev := (d.emit (.cpl fn 0 (leBytes size 0) false)).oinc O.BAR_MISUSE

/-- A doorbell register's offset in a BAR0. -/
def isDoorbell (off : Nat) : Bool := 0x10000 ≤ off && off < 0x20000 && off % 0x1000 = 0

/-- A read of BAR0. -/
def Dev.bar0Read (d : Dev) (fn off size : Nat) : Dev :=
  let give := fun (v : Nat) => d.emit (.cpl fn 0 (leBytes size v) false)
  let x := d.port fn
  if size = 4 && off = 0 then give x.addr
  else if size = 4 && off = 4 then give x.addrHi
  else if size = 4 && off = 8 then give x.ctrlWord
  else if size = 4 && off = 12 then give x.statusWord
  else if size = 8 && off = 16 then d.dpDataRead fn
  else if size = 4 && isDoorbell off then give 0
  else if inTable fn off size || inPba fn off size then give (d.msixRead fn off size)
  else d.readZeros fn size

/-- A range of PF BAR2 lies in device memory. -/
def Dev.bar2Inside (d : Dev) (off n : Nat) : Bool := 0 < n && d.inMemory off n

/-- A range of PF BAR2 can be reached (R551). -/
def Dev.bar2Reach (d : Dev) (off n : Nat) : Bool := (linePieces (n / 128 + 2) off n).all fun p => d.reachable p.1

/-- A read of PF BAR2 (R519, R547, R551). -/
def Dev.bar2Read (d : Dev) (off n : Nat) : Dev :=
  let h : TlpHeader := ⟨0, 0, 0, 2, off, n⟩
  if !d.bar2Inside off n then (d.urLog 0 h).emit (.cpl 0 1 [] false)
  else if !d.bar2Reach off n then (d.aer 0 0x0F (some h)).emit (.cpl 0 2 [] false)
  else
    let (d, bs, po) := d.dpaReadAll 258 256 off n
    d.emit (.cpl 0 0 bs po)

/-- A write to PF BAR2. -/
def Dev.bar2Write (d : Dev) (off : Nat) (bs : List Byte) (ep : Bool) : Dev :=
  let h : TlpHeader := ⟨0, 0, 1, 2, off, bs.length⟩
  let d := d.poisoned h ep
  if !d.bar2Inside off bs.length then d.urLog 0 h
  else if !d.bar2Reach off bs.length then d.aer 0 0x0F (some h)
  else d.dpaWriteAll 258 256 off bs ep

/-- A host read of a BAR. -/
def Dev.hostBarRead (d : Dev) (fn bar off size : Nat) : Dev :=
  d.barRead fn bar off size fun d =>
    if bar = 0 then d.bar0Read fn off size
    else if fn = 0 then d.bar2Read off size
    else d.readZeros fn size

/-- A write of BAR0 that no register takes: reserved, of the wrong size, or poisoned (R522, R547). -/
def Dev.bar0Discard (d : Dev) (fn off size : Nat) (ep : Bool) : Dev :=
  let taken := (size = 4 && (off = 0 || off = 4 || off = 8 || off = 12)) || (size = 8 && (off = 0 || off = 16)) ||
    (size = 4 && isDoorbell off) || inTable fn off size || inPba fn off size
  if taken && !ep then d else d.barWrite fn 0 off size fun d => (d.poisoned ⟨fn, 0, 1, 0, off, size⟩ ep).oinc O.BAR_MISUSE

/-! ### The ring aperture (R521) -/

/-- A failed check of an aperture write: logged in the owner's log and the PF log, and counted (R657, R658). -/
def Dev.ringDenied (d : Dev) (t va : Nat) (f : TFail) : Dev :=
  (d.raise { cause := f.cause, detail := f.detail, owner := t, eng := 0x5000, addr := va }).violated f.cause

/-- Where bytes of a ring lie in device memory, when its window and pages permit the write; a host window is none of R521's. -/
def Dev.ringPieces (d : Dev) (t va n : Nat) : Dev × Option (List (TRes × Nat × Nat)) :=
  match d.windowAt t va with
  | some (_, w) =>
    if w.home = 3 then (d, none)
    else
      match d.translateAll 0x3000 t 1 (pagePieces (n / 4096 + 2) va n) with
      | (d, .inl ps) => (d, some ps)
      | (d, .inr (.fail f)) => (d.ringDenied t va f, none)
      | (d, .inr _) => (d, none)
  | none => (d.ringDenied t va ⟨3, 2, 0, 0, 0, false, false, false⟩, none)

/-- A write to VF BAR2. -/
def Dev.apertureWrite (d : Dev) (t off : Nat) (bs : List Byte) (ep : Bool) : Dev :=
  d.barWrite (t + 1) 2 off bs.length fun d =>
    let d := d.poisoned ⟨t + 1, 0, 1, 2, off, bs.length⟩ ep
    let q := d.queue (16 * t + off / 2 ^ 20)
    let o := off % 2 ^ 20
    if ep || 64 * q.pqSlots < o + bs.length || 2 ^ 20 < o + bs.length then d.oinc O.BAR_MISUSE
    else
      let va := q.pqBase + o
      match d.ringPieces t va bs.length with
      | (d, none) => d.oinc O.BAR_MISUSE
      | (d, some ps) =>
        ps.foldl (fun (d : Dev) p =>
          match p.1 with
          | .dev _ w x => d.winWrite 258 t w x ((bs.drop (p.2.1 - va)).take p.2.2) false
          | _ => d) d

/-! ### Function resets (R535 to R539) -/

/-- The outstanding requests of a function are abandoned (Table 11.12 step 2); those not yet sent are not sent. -/
def Dev.fnAbandon (d : Dev) (fn : Nat) : Dev :=
  { d with host := { d.host with
      reads := mapIf (fun r => r.fn = fn) (fun r => { r with abandoned := true }) (d.host.reads.filter fun r => r.fn ≠ fn || r.sent) } }

/-- A tenant has a context that an FLR tears down. -/
def Dev.hasContext (d : Dev) (t : Nat) : Bool := d.oget (O.TENANT_STATE t) ≠ 0 && !d.failed

/-- A VF's reset starts: steps 1 to 3 of Table 11.12. Without a context to tear down it ends at once. -/
def Dev.flrBegin (d : Dev) (t : Nat) : Dev :=
  if (d.func (t + 1)).inFlr then d
  else
    let d := (d.setFunc (t + 1) { d.func (t + 1) with inFlr := true }).oinc O.FLR_EVENTS
    let d := d.fnAbandon (t + 1)
    if d.hasContext t then d.teardownAsk t 0 false true else d.flrEnd t

/-- An FLR of VF t (R535); a DISABLED function takes no configuration request. -/
def Dev.flr (d : Dev) (t : Nat) : Dev :=
  if d.boot.inReset || d.oget O.HOSTPORT_STATE = 0 || d.funcState (t + 1) = 0 then d else d.flrBegin t

/-- VF Enable becomes 0: an FLR of every enabled VF (R539). -/
def Dev.vfClear (d : Dev) : Dev :=
  if !d.host.vfEnable then d
  else
    let d := (rangeFrom 0 d.host.numVfs).foldl Dev.flrBegin d
    { d with host := { d.host with vfEnable := false } }

/-- An FLR of the PF (R537, R538). -/
def Dev.pfReset (d : Dev) : Dev :=
  if (d.func 0).inFlr then d
  else
    let d := (d.setFunc 0 { d.func 0 with inFlr := true }).oinc O.FLR_EVENTS
    let d := (d.fnAbandon 0).vfClear
    let d := { d with prec := { d.prec with queues := d.prec.queues.map fun (e : Nat × Queue) => (e.1, { e.2 with latch := none }) } }
    let d := (rangeFrom 0 256).foldl (fun (d : Dev) t => if d.hasContext t then d.teardownAsk t 0 false true else d) d
    (d.kernelEnd).pfFlrEnd

/-- PF FLR as the host initiates it. -/
def Dev.pfFlr (d : Dev) : Dev := if d.boot.inReset || d.oget O.HOSTPORT_STATE = 0 then d else d.pfReset

/-! ### Bus Master Enable, D3hot (R533, R534, R545) -/

/-- What waited for Bus Master Enable of a function goes on: its writes in order, then its messages, then its reads; for the PF also the
fault records of a ring in host memory. -/
def Dev.resumeFn (d : Dev) (fn : Nat) : Dev :=
  let ws := d.host.held.filter fun w => w.fn = fn
  let d := { d with host := { d.host with held := d.host.held.filter fun w => w.fn ≠ fn } }
  let d := ws.foldl (fun (d : Dev) w => d.sendWrite fn w.addr w.bytes w.ep w.via.cached (w.bytes.length + 1)) d
  let d := (d.msixFlush fn).hostReadsGo 1024
  if fn = 0 then d.faultFlush 8192 else d

/-- A configuration request reaches a function: the port is up, and the function is neither DISABLED nor in an FLR. -/
def Dev.configGate (d : Dev) (fn : Nat) : Bool :=
  !d.boot.inReset && d.oget O.HOSTPORT_STATE ≠ 0 && d.pd 1 = 2 && d.funcState fn ≠ 0 && !(d.func fn).inFlr

/-- Bus Master Enable of a function changes. -/
def Dev.busMaster (d : Dev) (fn : Nat) (on : Bool) : Dev :=
  let f := d.func fn
  if f.busMaster = on then d
  else
    let d := d.setFunc fn { f with busMaster := on }
    if on then d.resumeFn fn else d

/-- The PF enters D3hot. -/
def Dev.d3Enter (d : Dev) : Dev := { d with host := { d.host with d3hot := true } }

/-- The PF returns to D0. -/
def Dev.d0Return (d : Dev) : Dev :=
  if !d.host.d3hot then d
  else
    let d := { d with host := { d.host with d3hot := false } }
    (rangeFrom 0 257).foldl Dev.msixFlush d

/-! ### Configuration writes (R515 to R517, R530, R540)

The places of the registers within their capabilities are those of PCIe 6.0 (PRESUMED, assumption 50). -/

/-- Device Control of the PF: Max Payload Size and Max Read Request Size; an encoding the device does not support changes nothing. -/
def Dev.deviceControl (d : Dev) (v : Nat) : Dev :=
  let p := bits v 5 3
  let r := bits v 12 3
  { d with host := { d.host with mps := if p ≤ 2 then 128 * 2 ^ p else d.host.mps, mrrs := if r ≤ 5 then 128 * 2 ^ r else d.host.mrrs } }

/-- SR-IOV Control: VF Enable. -/
def Dev.sriovControl (d : Dev) (v : Nat) : Dev :=
  if bit v 0 then { d with host := { d.host with vfEnable := true } } else d.vfClear

/-- A configuration write of a register, by its offset. -/
def Dev.configWrite (d : Dev) (fn reg v : Nat) : Dev :=
  if d.oget O.HOSTPORT_STATE = 0 || d.boot.inReset || d.pd 1 ≠ 2 then d
  else if d.funcState fn = 0 then d.urLog fn ⟨fn, 0, 3, 0, reg, 4⟩
  else if (d.func fn).inFlr then d
  else
    let f := d.func fn
    match reg with
    | 0x04 => d.busMaster fn (bit v 2)
    | 0x44 => if fn ≠ 0 then d else if bits v 0 2 = 3 then d.d3Enter else if bits v 0 2 = 0 then d.d0Return else d
    | 0x58 =>
      let d := if fn = 0 then d.deviceControl v else d
      if !bit v 15 then d else if fn = 0 then d.pfReset else d.flrBegin (fn - 1)
    | 0xA2 => (d.setFunc fn { f with msixEnable := bit v 15, funcMask := bit v 14 }).msixFlush fn
    | 0x104 => d.aerClear fn 0 v
    | 0x108 => d.setFunc fn { f with aerMask := v }
    | 0x10C => d.setFunc fn { f with aerSev := v }
    | 0x110 => d.aerClear fn 32 v
    | 0x308 => if fn = 0 then d.sriovControl v else d
    | 0x310 => if fn ≠ 0 || d.host.vfEnable || 256 < v then d else { d with host := { d.host with numVfs := v } }
    | 0x346 => d.setFunc fn { f with atsEnable := bit v 15 }
    | 0x354 => d.setFunc fn { f with priEnable := bit v 0 }
    | 0x35C => (d.setFunc fn { f with prAlloc := v }).pagesGo fn (d.tr.tracks.length + 1)
    | 0x60 => if fn = 0 then { d with host := { d.host with aspmL1 := bit v 1 } } else d
    | _ =>
      let lane := (reg - 0x408) / 4
      if fn = 0 && 0x408 ≤ reg && reg % 4 = 0 && lane < 16 then
        { d with host := { d.host with margins := mset d.host.margins lane (v % 65536) } }
      else d

/-! ### What the configuration space reads (R513 to R518)

No row of the table is a configuration read; these definitions give the contents that a host would find. -/

/-- The routing ID of a function, from the PF's: First VF Offset 1 and VF Stride 1 (R513). -/
def routingId (pf fn : Nat) : Nat := pf + fn

/-- The capabilities of Table 11.4: offset, PCIe capability ID (PRESUMED, assumption 50), and whether a VF carries it. -/
def capTable : List (Nat × Nat × Bool) :=
  [(0x40, 0x01, false), (0x50, 0x10, true), (0xA0, 0x11, true), (0x100, 0x0001, true), (0x180, 0x0003, false), (0x190, 0x000E, true),
   (0x1A0, 0x0019, false), (0x1D0, 0x0025, false), (0x1E0, 0x0026, false), (0x220, 0x002A, false), (0x260, 0x0031, false),
   (0x2A0, 0x0027, false), (0x2F0, 0x002F, true), (0x300, 0x0010, false), (0x340, 0x000F, true), (0x350, 0x0013, true)]

/-- The capabilities that a function carries: offset and ID. -/
def capsOf (fn : Nat) : List (Nat × Nat) := (capTable.filter fun c => fn = 0 || c.2.2).map fun c => (c.1, c.2.1)

/-- The header of the capability at an offset: its ID and where the next begins, 0 after the last, in ascending order (R515). -/
def capHeader (fn reg : Nat) : Option Nat :=
  match (capsOf fn).find? fun c => c.1 = reg with
  | none => none
  | some c =>
    let next := (((capsOf fn).find? fun x => reg < x.1 && (reg < 0x100) = (x.1 < 0x100)).map (·.1)).getD 0
    some (if reg < 0x100 then c.2 + next * 2 ^ 8 else c.2 + 2 ^ 16 + next * 2 ^ 20)

/-- What the aligned doubleword of a function's configuration space at `reg` reads, where Table 11.4 and R514 to R517 give it a value; 0
elsewhere. -/
def Dev.configRead (d : Dev) (fn reg : Nat) : Nat :=
  let f := d.func fn
  let status := fun (lo : Nat) => maskOf ((d.host.aer.filter fun e => decide (e.1 = fn) && decide (lo ≤ e.2) && decide (e.2 < lo + 32)).map fun e => e.2 - lo)
  match capHeader fn reg with
  | some h => if reg = 0xA0 then h + (vectorsOf fn - 1) * 2 ^ 16 + b2n f.funcMask * 2 ^ 30 + b2n f.msixEnable * 2 ^ 31 else h
  | none =>
    match reg with
    | 0x00 => d.oget O.PCI_VENDOR_ID + (if fn = 0 then d.oget O.PCI_PF_DEVICE_ID else d.oget O.PCI_VF_DEVICE_ID) * 2 ^ 16
    | 0x04 => b2n f.busMaster * 2 ^ 2
    | 0x08 => 0x120000 * 2 ^ 8
    | 0x34 => if fn = 0 then 0x40 else 0x50
    | 0x44 => if fn = 0 then b2n d.host.d3hot * 3 + 2 ^ 3 else 0
    | 0x54 => 2 + 2 ^ 5 + 2 ^ 28
    | 0x58 => (d.host.mps / 128).log2 * 2 ^ 5 + (d.host.mrrs / 128).log2 * 2 ^ 12
    | 0x5C => 6 + d.oget O.HOST_WIDTH_STRAP * 2 ^ 4 + 2 * 2 ^ 10
    | 0x60 => b2n (fn = 0 && d.host.aspmL1) * 2 + d.oget O.HOST_LINK_RATE * 2 ^ 16 + d.oget O.HOST_LINK_WIDTH * 2 ^ 20
    | 0x74 => 0xF + 2 ^ 4
    | 0xA4 => msixBase fn
    | 0xA8 => pbaBase fn
    | 0x104 => status 0
    | 0x108 => f.aerMask
    | 0x10C => f.aerSev
    | 0x110 => status 32
    | 0x184 => if fn = 0 then d.oget O.SERIAL_NUMBER % 2 ^ 32 else 0
    | 0x188 => if fn = 0 then d.oget O.SERIAL_NUMBER / 2 ^ 32 else 0
    | 0x308 => if fn = 0 then b2n d.host.vfEnable else 0
    | 0x30C => if fn = 0 then 256 + 256 * 2 ^ 16 else 0
    | 0x310 => if fn = 0 then d.host.numVfs else 0
    | 0x314 => if fn = 0 then 1 + 2 ^ 16 else 0
    | 0x318 => if fn = 0 then d.oget O.PCI_VF_DEVICE_ID * 2 ^ 16 else 0
    | 0x31C => if fn = 0 then 0x1F else 0
    | 0x344 => 2 ^ 5 + b2n f.atsEnable * 2 ^ 31
    | 0x354 => b2n f.priEnable
    | 0x358 => 512
    | 0x35C => f.prAlloc
    | _ => 0

/-! ### Completions of the device's reads (R526, R543, R548) -/

/-- The failed access of a host-memory request. -/
def hostFailure : TFail := ⟨0x30, 0, 0, 0, 0, false, true, false⟩

/-- Data comes for a read, to what asked for it. -/
def Dev.hostData (d : Dev) (r : HostRead) (bs : List Byte) (ep : Bool) : Dev :=
  let v := leNat bs
  match r.use with
  | 1 => d.loadHost (r.arg / 64) (r.arg % 64) (r.addr / 128) v ep
  | 2 => d.acopyData (r.arg / 4096) (r.arg % 4096) r.addr bs ep
  | 3 =>
    let n := r.arg % 256
    let d := d.larkCome n (r.arg / 256) bs ep
    if (d.core n).boot = 1 then d.taskStart n else d
  | 4 =>
    if r.arg = 0 then Dev.clrFlush { d with clr := { d.clr with get := v } } 4096
    else d.setWring (r.arg - 1) { d.wring (r.arg - 1) with get := v }
  | 5 => (d.node r.arg).elim d fun x => d.waitValue x v ep
  | 6 => (d.node r.arg).elim d fun x => d.signalAdd x v ep
  | 7 => d.packetData r.arg bs (if ep then 6 else 0)
  | 8 => d.onQueue r.arg fun q => { q with cqGet := v % 2 ^ 32 }
  | 9 => (d.opHostLine r.arg (r.addr / 128) v ep).opGo r.arg
  | 10 => d.capHostLine (r.addr / 128) v ep
  | 11 => d.gatherData r.arg bs ep 0
  | _ => d

/-- A host load fails for the voices of one line. -/
def Dev.hostLoadFail (d : Dev) (n slot a : Nat) : Dev :=
  let h := (d.core n).choir slot
  match h.load with
  | none => d
  | some l =>
    let vs := l.on true (a / 128)
    d.coreExc n ⟨0x30, 0, h.pc - 16, slot, l.blame (vs.map (·.1)), 0, vs.foldl (fun m v => min m v.2.2.2) (2 ^ 64 - 1), []⟩

/-- A read fails: the task, the node, the queue or the packet that asked for it fails with ERR_HOST_ACCESS (R548, R549). -/
def Dev.hostFail (d : Dev) (r : HostRead) : Dev :=
  let va := r.via.va
  match r.use with
  | 1 => d.hostLoadFail (r.arg / 64) (r.arg % 64) r.addr
  | 2 =>
    let n := r.arg / 4096
    match (d.core n).task, (d.core n).acopies.find? fun a => a.id = r.arg % 4096 with
    | some t, some a => d.acopyFail n t a 0 va hostFailure
    | _, _ => d
  | 3 => d.larkExc (r.arg % 256) 0x30 0 va []
  | 4 => if r.arg = 0 then d.clrFail else d.capRingFail (r.arg - 1)
  | 5 => (d.node r.arg).elim d fun x => d.nodeFault x 0x3000 [nodeRec x 0x3000 0 va hostFailure]
  | 6 => (d.node r.arg).elim d fun x => d.nodeFault x 0x3000 [nodeRec x 0x3000 0 va hostFailure]
  | 7 => d.packetData r.arg [] 0x30
  | 8 => d.haltQueue r.arg 0x30 0 0 0 va true
  | 9 =>
    match d.op r.arg, d.node r.arg with
    | some o, some x => d.opFault x o [nodeRec x o.eng 0 va hostFailure]
    | _, _ => d
  | 10 => match d.clr.captures with
    | c :: _ => d.capEnd c 2 0x30
    | [] => d
  | 11 => d.gatherData r.arg [] false 0x30
  | _ => d

/-- A completion arrives, or the time for one has passed: status 0 Successful Completion, 1 Unsupported Request, 2 Completer Abort, 3
completion timeout. -/
def Dev.hostCompletion (d : Dev) (tag status : Nat) (bs : List Byte) (ep : Bool) (e : HwErr) : Dev :=
  let d := d.hostPortErr e
  let h : TlpHeader := ⟨0, 0, 2, 0, tag, bs.length⟩
  match d.host.reads.find? fun r => r.tag = tag && r.sent with
  | none => d.aer 0 0x10 (some h)
  | some r =>
    if status = 0 && !r.abandoned && bs.length ≠ r.len then d.aer 0 0x12 (some h)
    else
      let d := { d with host := { d.host with reads := d.host.reads.filter fun x => x.tag ≠ tag } }
      let d := if r.abandoned then d
        else if status = 0 then (d.poisoned { h with fn := r.fn } ep).hostData r bs ep
        else if status = 3 then (d.aer r.fn 0x0E none).hostFail r
        else if status = 2 then (d.aer r.fn 0x0F (some h)).hostFail r
        else d.hostFail r
      d.hostReadsGo 1024

/-! ### The link (R509 to R512, R550) -/

/-- FULL or LIMITED at a rate and width (R510). -/
def portState (rate width : Nat) : Nat := if rate = 6 && 4 ≤ width then 2 else 1

/-- The link is up at a rate and width. -/
def Dev.linkAt (d : Dev) (rate width : Nat) : Dev :=
  ((d.oset O.HOST_LINK_RATE rate).oset O.HOST_LINK_WIDTH width).oset O.HOSTPORT_STATE (portState rate width)

/-- Lanes that a value of the width straps gives (R1042). -/
def strapWidth (s : Nat) : Nat := match s with
  | 0 => 16
  | 1 => 8
  | _ => 4

/-- A width the link may have: never above the strap's. -/
def widthOk (rate width strap : Nat) : Bool :=
  1 ≤ rate && rate ≤ 6 && [1, 2, 4, 8, 16].contains width && width ≤ strap

/-- The Data Link Layer comes up; PD_1 is ON and PERST# deasserted. -/
def Dev.hostLinkUp (d : Dev) (rate width : Nat) : Dev :=
  if d.boot.inReset || d.pd 1 ≠ 2 || d.host.perst || d.oget O.HOSTPORT_STATE ≠ 0 || !widthOk rate width (d.oget O.HOST_WIDTH_STRAP) then d
  else d.linkAt rate width

/-- The host retrains the link; a change between FULL and LIMITED raises a NOTE event (R512). -/
def Dev.hostRetrain (d : Dev) (rate width : Nat) : Dev :=
  let st := d.oget O.HOSTPORT_STATE
  if d.boot.inReset || st = 0 || !widthOk rate width (d.oget O.HOST_WIDTH_STRAP) then d
  else
    let d := d.linkAt rate width
    if st = portState rate width then d else d.noteEvent 0 (portState rate width) 0x5000

/-- A function's configuration returns to its reset values; an FLR of it in progress goes on. -/
def Dev.configReset (d : Dev) (fn : Nat) : Dev := d.setFunc fn { Func.reset with inFlr := (d.func fn).inFlr }

/-- The Data Link Layer goes down: every access in flight fails, the device acts as for a PF FLR, and the configuration space of every
function is reset (R550). -/
def Dev.hostLinkDown (d : Dev) : Dev :=
  if d.oget O.HOSTPORT_STATE = 0 then d
  else
    let d := d.oinc O.HOST_LINK_DOWNS
    let fl := d.host.reads
    let d := { d with host := { d.host with reads := [], atsSent := [], atsReplies := [], atsInvs := [] } }
    let d := (fl.filter fun r => !r.abandoned).foldl Dev.hostFail d
    let d := d.pfReset
    let d := (d.host.funcs.map (·.1)).foldl Dev.configReset d
    let h := { d.host with reads := [], held := [], atsInvs := [], headers := [], aer := [], d3hot := false }
    let d := { d with host := { h with numVfs := 0, mps := 128, mrrs := 512, aspmL1 := false, margins := [] } }
    ((d.oset O.HOSTPORT_STATE 0).oset O.HOST_LINK_RATE 0).oset O.HOST_LINK_WIDTH 0

/-- A PERST# assertion edge (R933, R1044). -/
def Dev.perstEdge (d : Dev) : Dev :=
  if !d.pkg.powered || d.boot.resetN || d.host.perst then d
  else
    let d := { d with host := { d.host with perst := true } }
    if d.oget O.PERST_ACTION = 0 then d.resetBy false 2 else d.hostLinkDown

/-- PERST# deasserts: the width straps are read (R509, R1042). -/
def Dev.perstDeassert (d : Dev) (strap : Nat) : Dev :=
  if !d.pkg.powered || d.boot.resetN || !d.host.perst then d
  else
    let d := { d with host := { d.host with perst := false }, pkg := { d.pkg with strap := strap } }
    let d := d.oset O.HOST_WIDTH_STRAP (strapWidth strap)
    if strap = 3 && d.boot.running.isSome then d.noteEvent 0 0 0x5000 else d

/-! ### Commands -/

/-- DOORBELL (R523). -/
def execDoorbell (owner q value : Nat) (poison : Bool) (s : State) : Host.Outcome State Fault Refusal :=
  s.runIf (owner ≤ 256 && q < 16 && value < 2 ^ 32) fun d => d.doorbell owner q value poison

/-- BAR_READ (R1062). -/
def execBarRead (fn bar off size : Nat) (s : State) : Host.Outcome State Fault Refusal :=
  s.runIf (fn ≤ 256 && (bar = 0 || bar = 2) && 0 < size && size ≤ 4096) fun d => d.hostBarRead fn bar off size

/-- PF_BAR2_ACCESS (R519). -/
def execPfBar2Access (write : Bool) (off : Nat) (data : List Byte) (len : Nat) (poison : Bool) (s : State) :
    Host.Outcome State Fault Refusal :=
  s.runIf (off < 2 ^ 39 && 0 < len && len ≤ 4096 && (!write || data.length = len)) fun d =>
    if write then d.barWrite 0 2 off len fun d => d.bar2Write off data poison else d.barRead 0 2 off len fun d => d.bar2Read off len

/-- VF_BAR2_WRITE (R521). -/
def execVfBar2Write (t off : Nat) (data : List Byte) (poison : Bool) (s : State) : Host.Outcome State Fault Refusal :=
  s.runIf (t < 256 && off < 2 ^ 24 && 0 < data.length && data.length ≤ 4096) fun d => d.apertureWrite t off data poison

/-- MSIX_TABLE_ACCESS (R522). -/
def execMsixTableAccess (fn : Nat) (write : Bool) (off size value : Nat) (s : State) : Host.Outcome State Fault Refusal :=
  s.runIf (fn ≤ 256 && 0 < size && size ≤ 4096 && msixBase fn ≤ off && off < pbaBase fn + pbaSize fn) fun d =>
    if write then d.barWrite fn 0 off size fun d => d.msixWrite fn off size value
    else d.barRead fn 0 off size fun d =>
      if inTable fn off size || inPba fn off size then d.emit (.cpl fn 0 (leBytes size (d.msixRead fn off size)) false)
      else d.readZeros fn size

/-- MSIX_UNMASK (R530): the mask bit of a vector's table entry is cleared. -/
def execMsixUnmask (fn vec : Nat) (s : State) : Host.Outcome State Fault Refusal :=
  s.runIf (fn ≤ 256 && vec < vectorsOf fn) fun d => d.barWrite fn 0 (msixBase fn + 16 * vec + 12) 4 fun d => d.msixPut fn vec 12 4 0

/-- FLR (R535). -/
def execFlr (t : Nat) (s : State) : Host.Outcome State Fault Refusal := s.runIf (t < 256) fun d => d.flr t

/-- PF_FLR (R537). -/
def execPfFlr (s : State) : Host.Outcome State Fault Refusal := s.run Dev.pfFlr

/-- VF_ENABLE_CLEAR (R539). -/
def execVfEnableClear (s : State) : Host.Outcome State Fault Refusal := s.run fun d => if d.configGate 0 then d.vfClear else d

/-- BUS_MASTER_ENABLE_CHANGE (R533, R545). -/
def execBusMasterEnableChange (fn : Nat) (on : Bool) (s : State) : Host.Outcome State Fault Refusal :=
  s.runIf (fn ≤ 256) fun d => if d.configGate fn then d.busMaster fn on else d

/-- D3HOT_ENTRY (R534). -/
def execD3hotEntry (s : State) : Host.Outcome State Fault Refusal := s.run fun d => if d.configGate 0 then d.d3Enter else d

/-- D0_RETURN (R534). -/
def execD0Return (s : State) : Host.Outcome State Fault Refusal := s.run fun d => if d.configGate 0 then d.d0Return else d

/-- HOSTPORT_STATE_CHANGE (R512). -/
def execHostportStateChange (rate width : Nat) (s : State) : Host.Outcome State Fault Refusal := s.run fun d => d.hostRetrain rate width

/-- HOST_LINK_DOWN (R550). -/
def execHostLinkDown (s : State) : Host.Outcome State Fault Refusal := s.run Dev.hostLinkDown

/-- HOST_COMPLETION (R548). -/
def execHostCompletion (tag status : Nat) (data : List Byte) (ep : Bool) (e : HwErr) (s : State) : Host.Outcome State Fault Refusal :=
  s.runIf (tag < 16384 && status ≤ 3) fun d => d.hostCompletion tag status data ep e

/-- CONFIG_WRITE (R517). -/
def execConfigWrite (fn reg value : Nat) (s : State) : Host.Outcome State Fault Refusal :=
  s.runIf (fn ≤ 256 && reg < 4096 && value < 2 ^ 32) fun d => d.configWrite fn reg value

/-- PERST_EDGE (R933). -/
def execPerstEdge (s : State) : Host.Outcome State Fault Refusal := s.run Dev.perstEdge

/-- PERST_DEASSERT (R509). -/
def execPerstDeassert (strap : Nat) (s : State) : Host.Outcome State Fault Refusal := s.runIf (strap < 4) fun d => d.perstDeassert strap

/-- HOST_LINK_UP (R510). -/
def execHostLinkUp (rate width : Nat) (s : State) : Host.Outcome State Fault Refusal := s.run fun d => d.hostLinkUp rate width

/-- BAR0_DISCARDED_WRITE (R522). -/
def execBar0DiscardedWrite (fn off size : Nat) (poison : Bool) (s : State) : Host.Outcome State Fault Refusal :=
  s.runIf (fn ≤ 256 && 0 < size && size ≤ 4096) fun d => d.bar0Discard fn off size poison

end Sys2Proof.Machine
end

