-- ==== Sys2Proof/Machine/Tray.lean ====
section
/-! DEFINITION. Machine/Tray.lean: the JT-16 tray controller (chapter 22): slots and their power, coolant alarms, leak ropes, the pump
loop, its writes to devices, and its restart. What its commands answer stands in TrayCmd.lean. -/

namespace Sys2Proof.Machine

/-! ### Slots (Table 22.6) -/

/-- The device of the home slot answers on its bus. -/
def Dev.homeAnswers (d : Dev) : Bool := d.pkg.powered && d.engineUp

/-- Code of a slot's state. -/
def Dev.slotState (d : Dev) (n : Nat) : Nat :=
  let s := d.slot n
  let home := n = d.tray.home
  let answers := if home then d.homeAnswers else s.answers && s.phase ≠ 0
  let phase := if home then d.oget O.BOOT_PHASE else s.phase
  if !s.present then 0
  else if s.fault then 2
  else if !s.pwrEn then 1
  else if !s.pgood then 2
  else if s.untrusted then 7
  else if !answers then (if s.answers then 4 else 3)
  else if phase = 5 || phase = 6 || (home && d.failed) then 6
  else if phase = 4 then 5 else 4

/-- A powered state. -/
def Dev.slotPowered (d : Dev) (n : Nat) : Bool := 3 ≤ d.slotState n

/-- Numbers of the slots. -/
def slotNums : List Nat := rangeFrom 0 16

/-- Kinds of events that are no alarm: a restart, a slot whose state the JT-16 has changed (R1007), a sensor that failed (R1016), a device
that failed its attestation (R996). -/
def evRestarted : Nat := 33
def evSlot : Nat := 34
def evSensor : Nat := 35
def evUntrusted : Nat := 36

/-- Record an event. -/
def Dev.trayEvent (d : Dev) (kind unit a b : Nat) : Dev := { d with tray := d.tray.event ⟨kind, unit, a, b⟩ }

/-- Put a request of the JT-16 on a slot's bus, and send it when the bus is free. None goes to a device that failed its attestation (R996);
one that finds the queue full is not made, and a power-limit write is then to be retried (R1000; assumption 95). -/
def Dev.trayReq (d : Dev) (n why : Nat) (m : CantorMsg) : Dev :=
  if d.tray.key.isNone || !d.slotPowered n || (d.slot n).untrusted then d
  else if 17 ≤ (d.slot n).queue.length then d.onSlot n fun s => { s with retry := s.retry || why = 2 || why = 3 }
  else (d.onSlot n fun s => { s with queue := s.queue ++ [TrayReq.mk m why] }).trayPump n 24

/-- A TC write of an object of a slot's device, a scalar of the dictionary (R997). -/
def Dev.trayWrite (d : Dev) (n index sub v : Nat) : Dev :=
  d.trayReq n 1 { cantorZero with
    dest := d.tray.param (0x50 + n), srcEp := 1, origin := 1, op := 2, index := index, sub := sub, length := 7, payload := leBytes 8 v }

/-- The slots whose devices the JT-16 writes: READY, and trusted. -/
def Dev.slotReady (d : Dev) (n : Nat) : Bool := d.slotState n = 5

/-! ### Slot power (R1003) -/

/-- RESET_N and PWR_EN of a slot become asserted; PGOOD rises, and RESET_N is released, or the slot becomes FAULT. -/
def Dev.slotOn (d : Dev) (n : Nat) (pgood : Bool) : Dev :=
  let was := (d.slot n).pwrEn
  let d := if n ≠ d.tray.home then d else if was then d.resetN else d.powerOn
  let d := d.onSlot n fun s => { s with
    resetN := !pgood, pwrEn := pgood, pgood := pgood, fault := !pgood, answers := pgood, untrusted := false, attested := false, phase := 0,
    addr := if pgood then 8 else 0, queue := [], sent := false }
  let d := if !pgood && n = d.tray.home then d.powerLoss else d
  d.trayEvent evSlot n (d.slotState n) 0

/-- RESET_N of a slot is asserted and PWR_EN deasserted. -/
def Dev.slotOff (d : Dev) (n : Nat) : Dev :=
  let d := if n = d.tray.home then d.resetN.powerLoss else d
  let d := d.onSlot n fun s => { s with
    resetN := true, pwrEn := false, pgood := false, fault := false, answers := false, untrusted := false, attested := false, phase := 0,
    addr := 0, queue := [], sent := false, saved := none, retry := false }
  d.trayEvent evSlot n (d.slotState n) 0

/-! ### Leak ropes (R1001, R1002) -/

/-- A rope never read. -/
def Rope.reset : Rope := ⟨0, 0, 0, 0, false, false, 0, none, [], []⟩

/-- A rope. -/
def Tray.rope (t : Tray) (r : Nat) : Rope := dget Rope.reset t.ropes r

/-- Where segment `s` of rope `r` ends, in millimetres; 0 when the rope has ended before. -/
def Tray.segEnd (t : Tray) (r s : Nat) : Nat :=
  if (rangeFrom 0 (s + 1)).all fun i => t.param (0x10 + 8 * r + i) ≠ 0 then t.param (0x10 + 8 * r + s) else 0

/-- Where it begins. -/
def Tray.segStart (t : Tray) (r s : Nat) : Nat := if s = 0 then 0 else t.segEnd r (s - 1)

/-- Both loops of a rope are closed. -/
def Rope.intact (x : Rope) : Bool := !x.openA && !x.openB

/-- Code of the state of a segment (Table 22.4, the first matching row). A segment beyond the end of its rope is OK. -/
def Tray.segState (t : Tray) (r s : Nat) : Nat :=
  let x := t.rope r
  let e := t.segEnd r s
  if e = 0 then 0
  else if x.blind.any (· < e) then 2
  else if !x.intact && e ≤ x.breakAt then 3
  else if x.latched.contains s then 1
  else 0

/-- A segment in LEAK holds a slot off (R1009). -/
def Dev.leakHolds (d : Dev) (n : Nat) : Bool :=
  (d.slot n).leakHeld && (rangeFrom 0 32).any fun i => d.tray.segState (i / 8) (i % 8) = 1 && bit (d.tray.param (0x30 + i)) n

/-- A rope after a reading (R1001): the counts, the break point, and the latches that end, each segment's once it is acknowledged and the
rope has been dry for 10 s. -/
def Rope.reading (x : Rope) (r : RopeReading) : Rope :=
  let oa := decide (10000 < r.contA)
  let ob := decide (10000 < r.contB)
  let intact := !oa && !ob
  let openRun := if intact then 0 else min 3 (x.openRun + 1)
  let closedRun := if intact then min 10 (x.closedRun + 1) else 0
  let dry := if 100000 < r.rab then min 100 (x.dryRun + 1) else 0
  let bp := if intact then x.breakAt else r.pf * 25
  let held := if 100 ≤ dry then x.latched.filter fun s => !x.acked.contains s else x.latched
  { openRun := openRun, closedRun := closedRun, leakRun := if intact && r.rab < 50000 then min 3 (x.leakRun + 1) else 0, dryRun := dry,
    openA := oa, openB := ob, breakAt := bp,
    blind := if 3 ≤ openRun then some (min bp (x.blind.getD bp)) else if closedRun < 10 then x.blind else none,
    latched := held, acked := x.acked.filter held.contains }

/-- Distance to the bridge in millimetres: the voltage drop along A over the current and 3.0 Ω/m, and a free value where no current flows
(R1001; assumption 82). -/
def bridgeAt (r : RopeReading) : Nat :=
  if r.curUa = 0 then Config.bridgeWithoutCurrent r.dropUv else r.dropUv * 1000 / (r.curUa * 3)

/-- The segment of a rope that holds a point. -/
def Tray.segAt (t : Tray) (r mm : Nat) : Option Nat :=
  (rangeFrom 0 8).find? fun s => (mm = 0 && s = 0 || t.segStart r s < mm) && mm ≤ t.segEnd r s

/-- A LEAK acts on a slot: power off, and the valve to close 5 s later. -/
def Dev.leakIsolate (d : Dev) (n : Nat) : Dev :=
  (d.slotOff n).onSlot n fun s => { s with closing := true, leakHeld := true }

/-- One reading of a rope. -/
def Dev.ropeRead (d : Dev) (n : Nat) (r : RopeReading) : Dev :=
  if d.tray.down then d
  else
    let old := d.tray.rope n
    let x := old.reading r
    let d := { d with tray := { d.tray with ropes := dset Rope.reset d.tray.ropes n x } }
    let d := if x.blind.isSome && old.blind.isNone then d.trayEvent 7 n 2 x.breakAt else d
    if x.leakRun < 3 then d
    else
      match d.tray.segAt n (bridgeAt r) with
      | none => d
      | some s =>
        if x.latched.contains s then d
        else
          let x := { x with latched := s :: x.latched }
          let d := { d with tray := { d.tray with ropes := dset Rope.reset d.tray.ropes n x } }
          let d := d.trayEvent 7 (8 * n + s) 1 (bridgeAt r)
          if d.tray.param 8 = 0 then d
          else (slotNums.filter fun k => bit (d.tray.param (0x30 + 8 * n + s)) k).foldl Dev.leakIsolate d

/-! ### Alarms (Table 22.5) -/

/-- A condition that does not hold. -/
def Cond.reset : Cond := ⟨false, 0⟩

/-- The condition of an alarm row for a unit. -/
def Tray.cond (t : Tray) (row unit : Nat) : Cond := dget Cond.reset t.conds (64 * row + unit)

/-- An alarm holds for a unit. -/
def Tray.alarm (t : Tray) (row unit : Nat) : Bool := (t.cond row unit).active

/-- A condition after a sample: it is entered when its entry condition has held for `t` ms, left when its clear condition has held for
10 s. -/
def Cond.next (c : Cond) (enter clear : Bool) (t ms : Nat) : Cond :=
  if c.active then
    if !clear then ⟨true, 0⟩ else if 10000 ≤ c.ms + ms then ⟨false, 0⟩ else ⟨true, c.ms + ms⟩
  else
    if !enter then ⟨false, 0⟩ else if t ≤ c.ms + ms then ⟨true, 0⟩ else ⟨false, c.ms + ms⟩

/-- Evaluate an alarm row for a unit; an entry is an event. -/
def Dev.alarmEval (d : Dev) (row unit : Nat) (enter clear : Bool) (t ms value : Nat) : Dev :=
  let c := d.tray.cond row unit
  let n := c.next enter clear t ms
  let d := { d with tray := { d.tray with conds := dset Cond.reset d.tray.conds (64 * row + unit) n } }
  if n.active && !c.active then d.trayEvent row unit value 0 else d

/-- The alarms as TRAY_ALARMS and STATUS show them: one bit per row. -/
def Tray.alarms (t : Tray) : Nat :=
  let leak := (rangeFrom 0 32).any fun i => t.segState (i / 8) (i % 8) = 1 || t.segState (i / 8) (i % 8) = 2
  let row := fun i => if i = 7 then leak else if i = 8 then t.clampMax || t.clampMin else (rangeFrom 0 16).any fun u => t.alarm i u
  (rangeFrom 0 11).foldl (fun v i => v + b2n (row i) * 2 ^ i) 0

/-! ### Power limits (R1000, R1011) -/

/-- An alarm holds that lowers the power limit of a slot's device. -/
def Dev.limitHeld (d : Dev) (n : Nat) : Bool := d.tray.alarm 3 n || d.tray.alarm 1 0

/-- Lower the power limit of a slot's device: PKG_POWER_LIMIT is read and saved first. What a device that is not the modelled one answers
is a free value. -/
def Dev.limitLower (d : Dev) (n : Nat) : Dev :=
  if !d.slotReady n then d
  else if n = d.tray.home then
    if (d.slot n).saved.isSome then d.trayReq n 2 (d.tray.limitWrite n (d.tray.param 2))
    else d.trayReq n 3 { cantorZero with
      dest := d.tray.param (0x50 + n), srcEp := 1, origin := 1, op := 1, index := 0x2018, length := 7 }
  else
    let v := d.freeBits 16
    let failed := (d.freed).freeBits 1 = 1
    let d := d.freed.freed.trayWrite n 0x2018 0 (d.tray.param 2)
    d.onSlot n fun s => { s with saved := some (s.saved.getD v), retry := failed }

/-- Restore the saved power limit once no alarm holds it down. -/
def Dev.limitRestore (d : Dev) (n : Nat) : Dev :=
  match (d.slot n).saved with
  | some v =>
    if d.limitHeld n then d
    else
      let d := d.trayReq n 1 (d.tray.limitWrite n v)
      d.onSlot n fun s => { s with saved := none, retry := false }
  | none => d.onSlot n fun s => { s with retry := s.retry && d.limitHeld n }

/-! ### Samples (R1000, R1016) -/

/-- Supply or return pressure in kPa times 10 from a loop current in 0.01 mA, within the range of Table 22.2. -/
def pressureOf (i : Nat) : Nat := min 6000 ((i - 400) * 15 / 4)

/-- A temperature reading is in range. -/
def tempOk (t : Int) : Bool := decide (-160 ≤ t) && decide (t ≤ 1600)

/-- The readings of a sample of one slot. -/
def Slot.sample (s : Slot) (r : TraySample) (n : Nat) : Slot :=
  let f := (r.flow[n]?).getD 0
  let o := (r.outlet[n]?).getD 0
  let p := (r.power[n]?).getD 0
  let fb := bit r.flowBad n || decide (1000 < f)
  let ob := bit r.outletBad n || !tempOk o
  let pb := bit r.powerBad n || decide (20000 < p)
  { s with present := bit r.present n, pgood := bit r.pgood n,
           flow := if fb then s.flow else f, outlet := if ob then s.outlet else o, power := if pb then s.power else p,
           flowFailed := fb, outletFailed := ob, powerFailed := pb }

/-- Which of two readings are bad, as a mask. -/
def badPair (mask : Nat) (f : Nat → Bool) : Nat := b2n (bit mask 0 || f 0) + 2 * b2n (bit mask 1 || f 1)

/-- Take a pair of readings, each kept when it is bad. -/
def takePair {α : Type} (dflt : α) (old new : List α) (bad : Nat) : List α :=
  (rangeFrom 0 2).map fun i => ((if bit bad i then old[i]? else new[i]?)).getD dflt

/-- The sensors that fail with a sample, by the IDs of Table 22.2. -/
def Dev.sensorsFailed (d : Dev) : List Nat :=
  let pair := fun (base mask : Nat) => ((rangeFrom 0 2).filter fun i => bit mask i).map fun i => base + i
  pair 1 d.tray.inletFailed ++ pair 35 d.tray.pressureFailed ++ pair 37 d.tray.speedFailed ++
  slotNums.flatMap fun n =>
    let s := d.slot n
    (if s.outletFailed then [3 + n] else []) ++ (if s.flowFailed then [19 + n] else []) ++ (if s.powerFailed then [39 + n] else [])

/-- Take the readings of a sample; a sensor that fails raises an event. -/
def Dev.sampleTake (d : Dev) (r : TraySample) : Dev :=
  let before := d.sensorsFailed
  let ib := badPair r.inletBad fun i => !tempOk ((r.inlet[i]?).getD 0)
  let pb := badPair 0 fun i => let c := (r.current[i]?).getD 0; c < 360 || decide (2100 < c)
  let sb := badPair r.speedBad fun i => decide (8000 < (r.speed[i]?).getD 0)
  let t := d.tray
  let d := { d with tray := { t with
    inlet := takePair 0 t.inlet r.inlet ib, inletFailed := ib,
    pressure := takePair 0 t.pressure (r.current.map pressureOf) pb, pressureFailed := pb,
    speed := takePair 0 t.speed r.speed sb, speedFailed := sb,
    clock := if t.clockSet then (t.clock + 1000000 * r.ms) % 2 ^ 64 else t.clock, upMs := min 60000 (t.upMs + r.ms) } }
  let d := slotNums.foldl (fun (d : Dev) n => d.onSlot n fun s => s.sample r n) d
  (d.sensorsFailed.filter fun i => !before.contains i).foldl (fun (d : Dev) i => d.trayEvent evSensor i 0 0) d

/-- The conditions on a slot, evaluated only while it is powered. -/
def Dev.slotAlarms (d : Dev) (ms n : Nat) : Dev :=
  let s := d.slot n
  let low := d.tray.param 1
  let on := d.slotPowered n
  let ok := fun (b : Bool) => on && b
  let off := !on
  let clear := off || (!s.flowFailed && decide (low + 10 ≤ s.flow))
  let was := d.tray.alarm 3 n
  let d := d.alarmEval 3 n (ok (s.flowFailed || decide (s.flow < low))) clear (if s.flowFailed then 0 else 2000) (if off then 10000 else ms) s.flow
  let d := if d.tray.alarm 3 n && !was then d.limitLower n else d
  let d := d.alarmEval 4 n (ok (!s.flowFailed && decide (2 * s.flow < low))) clear 5000 (if off then 10000 else ms) s.flow
  d.alarmEval 5 n (ok (!s.outletFailed && decide (960 < s.outlet))) (off || (!s.outletFailed && decide (s.outlet < 928))) 2000
    (if off then 10000 else ms) s.outlet.toNat

/-- The readings of the inlets that have not failed. -/
def Tray.inlets (t : Tray) : List Int := ((rangeFrom 0 2).filter fun i => !bit t.inletFailed i).map fun i => (t.inlet[i]?).getD 0

/-- The conditions on the inlets. -/
def Dev.inletAlarms (d : Dev) (ms : Nat) : Dev :=
  let xs := d.tray.inlets
  let high : Int := 16 * d.tray.param 3
  let crit : Int := 16 * d.tray.param 4
  let v := (xs.headD 0).toNat
  let d := d.alarmEval 0 0 (!xs.isEmpty && xs.all fun x => decide (high < x)) (!xs.isEmpty && xs.all fun x => decide (x < high - 16)) 2000 ms v
  let was := d.tray.alarm 1 0
  let d := d.alarmEval 1 0 (xs.isEmpty || xs.any fun x => decide (crit < x)) (!xs.isEmpty && xs.all fun x => decide (x < crit - 32))
    (if xs.isEmpty then 0 else 1000) ms v
  let d := if d.tray.alarm 1 0 && !was then slotNums.foldl Dev.limitLower d else d
  d.alarmEval 2 0 (!xs.isEmpty && xs.all fun x => decide (x < 320)) (!xs.isEmpty && xs.all fun x => decide (336 < x)) 10000 ms v

/-- What pump `i` is commanded: 100 % for the other's failure, else the common command. -/
def Tray.pumpCommand (t : Tray) (i : Nat) : Nat := if (t.pumpMax[i]?).getD false then 100 else t.pumpCmd

/-- The conditions on the pumps: full speed is 8,000 rpm. A failed pump puts the other at 100 %. -/
def Dev.pumpAlarms (d : Dev) (ms : Nat) : Dev :=
  let one := fun (d : Dev) i =>
    let v := (d.tray.speed[i]?).getD 0
    let want := 80 * d.tray.pumpCommand i
    let bad := bit d.tray.speedFailed i
    d.alarmEval 6 i (!bad && decide (10 * v < want)) (!bad && decide (9 * want ≤ 10 * v && 10 * v ≤ 11 * want)) 2000 ms v
  let d := one (one d 0) 1
  { d with tray := { d.tray with pumpMax := [d.tray.alarm 6 1, d.tray.alarm 6 0] } }

/-- The conditions on the supply pressure. -/
def Dev.pressureAlarms (d : Dev) (ms : Nat) : Dev :=
  let t := d.tray
  let p := (t.pressure[0]?).getD 0
  let ok := !bit t.pressureFailed 0
  let driven := 0 < t.pumpCommand 0 || 0 < t.pumpCommand 1
  let d := d.alarmEval 9 0 (ok && decide (10 * t.param 9 < p)) (ok && decide (p + 200 < 10 * t.param 9)) 1000 ms p
  d.alarmEval 10 0 (ok && driven && decide (p < 10 * t.param 10)) (ok && decide (10 * t.param 10 + 100 < p)) 2000 ms p

/-- One sample: the readings, every condition, and the restoration of power limits. -/
def Dev.traySample (d : Dev) (r : TraySample) : Dev :=
  if d.tray.down then d
  else
    let d := d.sampleTake r
    let d := d.inletAlarms r.ms
    let d := slotNums.foldl (fun (d : Dev) n => d.slotAlarms r.ms n) d
    slotNums.foldl Dev.limitRestore ((d.pumpAlarms r.ms).pressureAlarms r.ms)

/-! ### The pump loop (R1004, R1005) -/

/-- POLICY_CLAMPED of a pump bound, with the bound and the commanded value. -/
def Dev.pumpClamp (d : Dev) (low : Bool) (cmd : Nat) : Dev :=
  let d := d.trayEvent 8 (b2n low) (d.tray.param (if low then 6 else 7)) cmd
  { d with tray := if low then { d.tray with clampMin := true } else { d.tray with clampMax := true } }

/-- One period of the loop; a failed pressure sensor holds the command (R1016). How much of the 2 % a period uses outside PRESSURE_HIGH is a free value (R1004; assumption 61). -/
def Dev.pumpLoop (d : Dev) : Dev :=
  if d.tray.down then d
  else
    let t := d.tray
    let c := t.pumpCmd
    let lo := t.param 6
    let hi := t.param 7
    let put := fun (d : Dev) (v : Nat) => { d with tray := { d.tray with pumpCmd := v } }
    let supply := (t.pressure[0]?).getD 0
    let back := (t.pressure[1]?).getD 0
    let least1 := 1 + d.freeBits 8 % 2
    let most2 := d.freeBits 8 % 3
    if t.pressureFailed ≠ 0 then d
    else if t.alarm 9 0 then
      let v := if c ≤ 10 || supply + 200 < 10 * t.param 9 then c else max 10 (c - 2)
      let d := put d v
      if v < lo && !t.clampMin then d.pumpClamp true v else d
    else if slotNums.any fun n => t.alarm 3 n && d.slotPowered n then
      let v := min 100 (c + least1)
      let d := put d.freed v
      if hi < v && !t.clampMax then d.pumpClamp false v else d
    else if hi < c then put d.freed (max hi (c - least1))
    else if c < lo then put d.freed (min lo (c + least1))
    else if supply < back + 10 * t.param 5 then put d.freed (min hi (c + most2))
    else if back + 10 * t.param 5 < supply then put d.freed (max lo (c - most2))
    else d

/-! ### Writes to devices (R999, R1008, R1017) -/

/-- UTC_SET on a READY device. -/
def Dev.utcWrite (d : Dev) (n : Nat) : Dev := if d.tray.clockSet && d.slotReady n then d.trayWrite n 0xB003 1 d.tray.clock else d

/-- The mirror objects of Table 22.8 on a slot's device. -/
def Dev.mirrors (d : Dev) (n : Nat) : Dev :=
  if !d.slotReady n then d
  else
    let t := d.tray
    let hot := t.inlets.foldl max (t.inlets.headD 0)
    let d := d.trayWrite n 0xB000 0 t.beats
    let d := (d.trayWrite n 0xB001 0 t.serial).trayWrite n 0xB002 0 n
    let d := d.trayWrite n 0xB004 0 (ofSigned 16 (hot / 4))
    (d.trayWrite n 0xB005 0 (d.slot n).flow).trayWrite n 0xB006 0 t.alarms

/-- The heartbeat, every 1 s. -/
def Dev.trayHeartbeat (d : Dev) : Dev :=
  if d.tray.down then d
  else slotNums.foldl Dev.mirrors { d with tray := { d.tray with beats := (d.tray.beats + 1) % 2 ^ 32 } }

/-- NOTIFY_TARGET subindex 01 of a device that has become READY: every event, valid, endpoint I3C, the slot's chip ID; then UTC_SET. -/
def Dev.notifySetup (d : Dev) (n : Nat) : Dev :=
  if d.tray.down || !d.slotPowered n || (d.slot n).untrusted then d
  else
    let d := if n = d.tray.home then d else d.onSlot n fun s => { s with answers := true, phase := 4 }
    if !d.slotReady n then d
    else (d.trayWrite n 0x1130 1 (d.tray.param (0x50 + n) + 2 ^ 12 + 2 ^ 15 + 0xFF * 2 ^ 16)).utcWrite n

/-- A device is attested when it first reaches BOOT_PHASE 2 or later after power-on (R996). -/
def Dev.deviceAttest (d : Dev) (n d1 d2 d4 : Nat) : Dev :=
  let s := d.slot n
  let up := n ≠ d.tray.home || d.boot.running.isSome
  if d.tray.down || !d.slotPowered n || s.attested || !up then d
  else
    let bad := !d.tray.allow.contains (d1, d2, d4)
    let d := d.onSlot n fun s => { s with attested := true, untrusted := bad, answers := true, phase := max 2 s.phase }
    if bad then d.trayEvent evUntrusted n 7 0 else d

/-- A powered slot has been silent for 3 s. -/
def Dev.slotSilent (d : Dev) (n : Nat) : Dev :=
  if d.tray.down || !d.slotPowered n || (n = d.tray.home && d.homeAnswers) then d
  else d.onSlot n fun s => { s with answers := false, phase := 0 }

/-- A power-limit write that failed is made again while its alarm holds. -/
def Dev.limitRetry (d : Dev) (n : Nat) (ok : Bool) : Dev :=
  if d.tray.down || !(d.slot n).retry || !d.limitHeld n then d
  else if n = d.tray.home then d.limitLower n
  else (d.trayWrite n 0x2018 0 (d.tray.param 2)).onSlot n fun s => { s with retry := !ok }

/-- RELAY_TIMEOUT has passed since the request outstanding on a bus was sent (R997). -/
def Dev.relayTimeout (d : Dev) (n : Nat) : Dev :=
  match (d.slot n).queue with
  | [] => d
  | q :: qs =>
    if d.tray.down || !(d.slot n).sent then d
    else
      let d := d.onSlot n fun s => { s with queue := qs, sent := false, retry := s.retry || q.why = 2 || q.why = 3 }
      let d := if q.why = 0 then d.emit (.vendor 2 7 []) else d
      d.trayPump n 24

/-! ### Restart (R1014, R1015) -/

/-- The JT-16 loses its supply: every latched output holds. -/
def Dev.traySupplyLoss (d : Dev) : Dev := { d with tray := { d.tray with down := true } }

/-- The JT-16 restarts: outputs, parameters, saved values and its log hold; BOOT rises, COUNT starts at 1; ENTDAA runs on each bus; its
clock has gone on for an open time (assumption 95). -/
def Dev.trayRestart (d : Dev) : Dev :=
  let t := d.tray
  let t := { t with
    down := false, boot := (t.boot + 1) % 65536, count := 1, receiver := none, upMs := 0, spdm := Spdm.reset,
    clock := if t.clockSet then (t.clock + Config.freeValue d.free) % 2 ^ 64 else t.clock,
    conds := t.conds.map fun (e : Nat × Cond) => (e.1, { e.2 with ms := 0 }),
    ropes := t.ropes.map fun (e : Nat × Rope) => (e.1, { e.2 with openRun := 0, closedRun := 0, leakRun := 0, dryRun := 0 }),
    image := if t.staged then 1 - t.image else t.image, staged := false }
  let t := { t with conds := t.conds.filter fun e => e.2 ≠ Cond.reset, ropes := t.ropes.filter fun e => e.2 ≠ Rope.reset }
  let d := slotNums.foldl (fun (d : Dev) n =>
    d.onSlot n fun s => { s with queue := [], sent := false, addr := if s.pwrEn then 8 else 0 }) { d.freed with tray := t }
  d.trayEvent evRestarted 0 d.tray.image 0

end Sys2Proof.Machine
end

