-- ==== Sys2Proof/Machine/TrayCmd.lean ====
section
/-! DEFINITION. Machine/TrayCmd.lean: the commands of the JT-16: vendor-defined messages, MCTP control, PLDM, and the events of the tray
(chapter 22). -/

namespace Sys2Proof.Machine

/-! ### Vendor-defined messages (R993) -/

/-- A vendor command of the tray host; a JT-16 that is down answers nothing. -/
def Dev.vendor (d : Dev) (cmd : Nat) (f : Dev → Dev × Nat × List Byte) : Dev :=
  if d.tray.down then d
  else
    let (d, code, body) := f d
    d.emit (.vendor cmd code body)

/-- A vendor command that names a slot. -/
def Dev.vendorSlot (d : Dev) (cmd slot : Nat) (f : Dev → Dev × Nat × List Byte) : Dev :=
  d.vendor cmd fun d => if 16 ≤ slot then (d, 2, []) else f d

/-- One bit for each slot. -/
def Dev.slotMask (d : Dev) (f : Slot → Bool) : Nat := slotNums.foldl (fun v n => v + b2n (f (d.slot n)) * 2 ^ n) 0

/-- The four bytes of a rope in the tray record. -/
def Tray.ropeBytes (t : Tray) (r : Nat) : List Byte :=
  let x := t.rope r
  let states := (rangeFrom 0 8).foldl (fun v s => v + t.segState r s * 4 ^ s) 0
  leBytes 2 (b2n x.intact + 2 * b2n x.openA + 4 * b2n x.openB + 8 * b2n (x.latched.any fun s => !x.acked.contains s)) ++ leBytes 2 states

/-- The tray status record (Table 22.10). -/
def Dev.trayRecord (d : Dev) : List Byte :=
  let t := d.tray
  let slots := fun (f : Slot → Nat) => slotNums.flatMap fun n => leBytes 2 (f (d.slot n))
  let two := fun (f : Nat → Nat) => leBytes 2 (f 0) ++ leBytes 2 (f 1)
  leBytes 1 1 ++
  leBytes 1 (b2n t.key.isSome + 2 * b2n t.clockSet + 4 * b2n t.receiver.isSome + 8 * b2n (t.upMs < 60000)) ++
  leBytes 2 t.alarms ++ leBytes 2 t.boot ++ leBytes 2 t.eventsLost ++ leBytes 8 (if t.clockSet then t.clock else 0) ++
  (rangeFrom 0 4).flatMap t.ropeBytes ++ slotNums.flatMap (fun n => leBytes 1 (d.slotState n)) ++
  leBytes 2 (d.slotMask (·.pwrEn)) ++ leBytes 2 (d.slotMask (·.resetN)) ++ leBytes 2 (d.slotMask (·.valve)) ++
  leBytes 2 (d.slotMask (·.present)) ++ leBytes 2 (d.slotMask (·.pgood)) ++ leBytes 2 0 ++
  leBytes 1 (t.pumpCommand 0) ++ leBytes 1 (t.pumpCommand 1) ++ leBytes 2 0 ++
  slots (·.flow) ++ slots (fun s => ofSigned 16 s.outlet) ++ two (fun i => ofSigned 16 ((t.inlet[i]?).getD 0)) ++
  two (fun i => (t.pressure[i]?).getD 0) ++ two (fun i => (t.speed[i]?).getD 0) ++ slots (·.power) ++
  leBytes 2 (t.inletFailed + 4 * t.pressureFailed + 16 * t.speedFailed) ++
  leBytes 2 (d.slotMask (·.flowFailed)) ++ leBytes 2 (d.slotMask (·.outletFailed)) ++ leBytes 2 (d.slotMask (·.powerFailed)) ++
  leBytes 76 0

/-- RELAY (R997, R1011). `answer` is what the device of a slot other than the modelled one's answers, when it answers. -/
def Dev.relay (d : Dev) (n : Nat) (m : CantorMsg) (answer : Option CantorMsg) : Dev :=
  if d.tray.down then d
  else if 16 ≤ n then d.emit (.vendor 2 2 [])
  else if d.tray.key.isNone || !d.slotPowered n then d.emit (.vendor 2 3 [])
  else if 17 ≤ (d.slot n).queue.length then d.emit (.vendor 2 5 [])
  else
    let limit := m.op = 2 && m.index = 0x2018 && m.sub = 0 && m.dest = d.tray.param (0x50 + n) && d.limitHeld n
    let d := if limit && (d.slot n).saved.isSome then d.onSlot n fun s => { s with saved := some (leNat m.payload % 65536) } else d
    let d := (d.onSlot n fun s => { s with queue := s.queue ++ [TrayReq.mk m 0] }).trayPump n 24
    match answer with
    | some a => if n = d.tray.home then d else (d.trayAnswer n a).trayPump n 24
    | none => d

/-- SLOT_POWER ON: a slot without a device, or one that a LEAK holds, is refused (R1003, R1009). -/
def Dev.powerOnCode (d : Dev) (n : Nat) (pgood : Bool) : Dev × Nat :=
  if !(d.slot n).present || d.leakHolds n then (d, 3) else (d.slotOn n pgood, 0)

/-- SLOT_POWER OFF. -/
def Dev.powerOffCode (d : Dev) (n : Nat) : Dev × Nat := if !(d.slot n).present then (d, 3) else (d.slotOff n, 0)

/-- Drive a slot's valve: 0 CLOSED, 1 OPEN. -/
def Dev.valveCode (d : Dev) (n v : Nat) : Dev × Nat :=
  if 1 < v then (d, 4) else (d.onSlot n fun s => { s with valve := v = 1 }, 0)

/-- The range of a parameter (Table 22.7). -/
def paramRange (id : Nat) : Option (Nat × Nat) :=
  match id with
  | 0x01 => some (120, 500)
  | 0x02 => some (300, 1500)
  | 0x03 => some (30, 45)
  | 0x04 => some (40, 55)
  | 0x05 => some (50, 400)
  | 0x06 => some (10, 100)
  | 0x07 => some (10, 100)
  | 0x08 => some (0, 1)
  | 0x09 => some (100, 400)
  | 0x0A => some (0, 200)
  | 0x60 => some (10, 3600)
  | 0x61 => some (10, 10000)
  | n =>
    if 0x10 ≤ n && n < 0x30 then some (0, 30000)
    else if 0x30 ≤ n && n < 0x50 then some (0, 65535)
    else if 0x50 ≤ n && n < 0x60 then some (0, 4095) else none

/-- The relations of Table 22.7: PUMP_MIN is at most PUMP_MAX, and the segment ends of a rope ascend. -/
def Tray.paramFits (t : Tray) (id v : Nat) : Bool :=
  if id = 6 then v ≤ t.param 7
  else if id = 7 then t.param 6 ≤ v
  else if 0x10 ≤ id && id < 0x30 && v ≠ 0 then
    let s := id % 8
    (s = 0 || t.param (id - 1) < v) && (s = 7 || t.param (id + 1) = 0 || v < t.param (id + 1))
  else true

/-- PARAM_SET; a write of PUMP_MAX or PUMP_MIN ends its clamp (R1004, R1005). -/
def Dev.paramSet (d : Dev) (id v : Nat) : Dev × Nat × List Byte :=
  match paramRange id with
  | none => (d, 4, [])
  | some (lo, hi) =>
    if v < lo || hi < v || !d.tray.paramFits id v then (d, 4, [])
    else
      let t := { d.tray with params := dset (paramDefault id) d.tray.params id v }
      let t := if id = 7 then { t with clampMax := false } else if id = 6 then { t with clampMin := false } else t
      ({ d with tray := t }, 0, [])

/-- An event as LOG_READ returns it: kind, unit, both values. -/
def TrayEvent.bytes (e : TrayEvent) : List Byte := leBytes 2 e.kind ++ leBytes 2 e.unit ++ leBytes 4 e.b ++ leBytes 32 e.a

/-- LEAK_ACK: the latch goes at once when the rope has been dry for 10 s (R1001). -/
def Dev.leakAck (d : Dev) (r : Nat) : Dev :=
  let x := d.tray.rope r
  let x := if 100 ≤ x.dryRun then { x with latched := [], acked := [] } else { x with acked := x.latched }
  { d with tray := { d.tray with ropes := dset Rope.reset d.tray.ropes r x } }

/-! ### PLDM (R992) -/

/-- A PLDM or MCTP control request; a JT-16 that is down answers nothing. -/
def Dev.mctp (d : Dev) (type : Nat) (f : Dev → Dev × Nat × List Byte) : Dev :=
  if d.tray.down then d
  else
    let (d, code, body) := f d
    d.emit (.mctp type code body)

/-- A numeric sensor of Table 22.2: whether it has failed, and its reading in units of its resolution. -/
def Dev.numeric (d : Dev) (id : Nat) : Option (Bool × Int) :=
  let t := d.tray
  let pick := fun (l : List Nat) (mask i : Nat) => (bit mask i, ((l[i]?).getD 0 : Int))
  if 1 ≤ id && id ≤ 2 then some (bit t.inletFailed (id - 1), (t.inlet[id - 1]?).getD 0)
  else if 3 ≤ id && id ≤ 18 then some ((d.slot (id - 3)).outletFailed, (d.slot (id - 3)).outlet)
  else if 19 ≤ id && id ≤ 34 then some ((d.slot (id - 19)).flowFailed, (d.slot (id - 19)).flow)
  else if id = 35 || id = 36 then some (pick t.pressure t.pressureFailed (id - 35))
  else if id = 37 || id = 38 then some (pick t.speed t.speedFailed (id - 37))
  else if 39 ≤ id && id ≤ 54 then some ((d.slot (id - 39)).powerFailed, (d.slot (id - 39)).power)
  else none

/-- The state a state sensor reads. -/
def Dev.stateSensor (d : Dev) (id : Nat) : Option Nat :=
  if 100 ≤ id && id ≤ 131 then some (d.tray.segState ((id - 100) / 8) ((id - 100) % 8))
  else if 132 ≤ id && id ≤ 147 then some (d.slotState (id - 132)) else none

/-- The state of an effecter. -/
def Dev.effecter (d : Dev) (id : Nat) : Option Nat :=
  if 200 ≤ id && id ≤ 215 then some (b2n (d.slot (id - 200)).pwrEn)
  else if 216 ≤ id && id ≤ 231 then some (b2n (d.slot (id - 216)).valve) else none

/-- Every ID of Table 22.2, in order: the repository of descriptor records. -/
def pdrIds : List Nat := rangeFrom 1 54 ++ rangeFrom 100 48 ++ rangeFrom 200 32

/-- A descriptor record: the ID, then unit code 0 °C, 1 L/min, 2 kPa, 3 rpm, 4 W, 5 state sensor, 6 state effecter, then the least and the
greatest reading. -/
def pdrBytes (id : Nat) : List Byte :=
  let fig : Nat × Int × Int :=
    if id ≤ 18 then (0, -160, 1600) else if id ≤ 34 then (1, 0, 1000) else if id ≤ 36 then (2, 0, 6000)
    else if id ≤ 38 then (3, 0, 8000) else if id ≤ 54 then (4, 0, 20000)
    else if id < 200 then (5, 0, if id ≤ 131 then 3 else 7) else (6, 0, 1)
  leBytes 2 id ++ leBytes 1 fig.1 ++ leBytes 4 (ofSigned 32 fig.2.1) ++ leBytes 4 (ofSigned 32 fig.2.2)

/-- GetPDR: record handles are 1 and up, 0 asks for the first; the answer names the next handle, 0 after the last. -/
def Dev.getPdr (d : Dev) (h : Nat) : Dev × Nat × List Byte :=
  let i := h - 1
  match pdrIds[i]? with
  | none => (d, 0x82, [])
  | some id => (d, 0, leBytes 4 (if i + 1 < pdrIds.length then i + 2 else 0) ++ pdrBytes id)

/-- SetStateEffecterStates: the slot's power or its valve, under the rules of the vendor commands; 0x80 names no effecter, 0x81 is a state
it has not, 0x82 a state refused. -/
def Dev.setEffecter (d : Dev) (id v : Nat) (pgood : Bool) : Dev × Nat × List Byte :=
  if (d.effecter id).isNone then (d, 0x80, [])
  else if 1 < v then (d, 0x81, [])
  else
    let (d, c) := if 216 ≤ id then d.valveCode (id - 216) v else if v = 1 then d.powerOnCode (id - 200) pgood else d.powerOffCode (id - 200)
    (d, if c = 0 then 0 else 0x82, [])

/-- PlatformEventMessage: the oldest event goes to the receiver. -/
def Dev.platformEvent (d : Dev) : Dev :=
  match d.tray.events, d.tray.receiver with
  | e :: es, some _ => if d.tray.down then d else Dev.emit { d with tray := { d.tray with events := es } } (.trayEvent e)
  | _, _ => d

/-- A step of a Type 5 update: a verified component is staged for the next restart, an allowlist package adds an entry. -/
def Dev.fwUpdate (d : Dev) (u : FwUpdate) : Dev × Nat × List Byte :=
  if !u.valid then (d, 0x80, [])
  else if u.kind = 0 then ({ d with tray := { d.tray with staged := true } }, 0, [])
  else
    let a := (u.d1, u.d2, u.d4)
    ({ d with tray := { d.tray with allow := if d.tray.allow.contains a then d.tray.allow else d.tray.allow ++ [a] } }, 0, [])

/-- Message types of R991. -/
def trayTypes : List Nat := [0, 1, 5, 6, 0x7E]

/-! ### Commands -/

/-- STATUS (R994). -/
def execStatus (s : State) : Host.Outcome State Fault Refusal := s.run fun d => d.vendor 1 fun d => (d, 0, d.trayRecord)

/-- RELAY (R997). -/
def execRelay (slot : Nat) (m : CantorMsg) (answer : Option CantorMsg) (s : State) : Host.Outcome State Fault Refusal :=
  s.runIf (m.payload.length ≤ 256) fun d => d.relay slot m answer

/-- SLOT_POWER_ON (R1003): `pgood` tells whether PGOOD rises within 200 ms. -/
def execSlotPowerOn (slot : Nat) (pgood : Bool) (s : State) : Host.Outcome State Fault Refusal :=
  s.run fun d => d.vendorSlot 3 slot fun d => let (d, c) := d.powerOnCode slot pgood; (d, c, [])

/-- SLOT_POWER_OFF (R1003). -/
def execSlotPowerOff (slot : Nat) (s : State) : Host.Outcome State Fault Refusal :=
  s.run fun d => d.vendorSlot 3 slot fun d => let (d, c) := d.powerOffCode slot; (d, c, [])

/-- VALVE (Table 22.3). -/
def execValve (slot value : Nat) (s : State) : Host.Outcome State Fault Refusal :=
  s.run fun d => d.vendorSlot 4 slot fun d => let (d, c) := d.valveCode slot value; (d, c, [])

/-- PARAM_GET (R1018). -/
def execParamGet (id : Nat) (s : State) : Host.Outcome State Fault Refusal :=
  s.run fun d => d.vendor 5 fun d => if (paramRange id).isSome then (d, 0, leBytes 4 (d.tray.param id)) else (d, 4, [])

/-- PARAM_SET (R1018). -/
def execParamSet (id value : Nat) (s : State) : Host.Outcome State Fault Refusal := s.run fun d => d.vendor 6 fun d => d.paramSet id value

/-- UTC_SET (Table 22.3). -/
def execUtcSet (value : Nat) (s : State) : Host.Outcome State Fault Refusal :=
  s.runIf (value < 2 ^ 64) fun d => d.vendor 7 fun d => ({ d with tray := { d.tray with clock := value, clockSet := true } }, 0, [])

/-- LOG_READ (Table 22.3): index 0 is the newest event. -/
def execLogRead (start : Nat) (s : State) : Host.Outcome State Fault Refusal :=
  s.run fun d => d.vendor 8 fun d => if 256 ≤ start then (d, 4, []) else (d, 0, ((d.tray.log.drop start).take 8).flatMap TrayEvent.bytes)

/-- LEAK_ACK (R1001). -/
def execLeakAck (rope : Nat) (s : State) : Host.Outcome State Fault Refusal :=
  s.run fun d => d.vendor 9 fun d => if 4 ≤ rope then (d, 4, []) else (d.leakAck rope, 0, [])

/-- KEY_GENERATE (R998): the key drawn is a free value. -/
def execKeyGenerate (s : State) : Host.Outcome State Fault Refusal :=
  s.run fun d => d.vendor 10 fun d =>
    if d.tray.key.isSome then (d, 3, []) else ({ d.freed with tray := { d.tray with key := some (d.freeBits 384) } }, 0, [])

/-- CLONE_ALLOW (R998). -/
def execCloneAllow (serial : Nat) (s : State) : Host.Outcome State Fault Refusal :=
  s.runIf (serial < 2 ^ 64) fun d => d.vendor 11 fun d =>
    ({ d with tray := { d.tray with clones := if d.tray.clones.contains serial then d.tray.clones else d.tray.clones ++ [serial] } }, 0, [])

/-- GET_PDR. -/
def execGetPdr (handle : Nat) (s : State) : Host.Outcome State Fault Refusal := s.run fun d => d.mctp 1 fun d => d.getPdr handle

/-- GET_SENSOR_READING: operational state 4 is failed, 0 enabled. -/
def execGetSensorReading (id : Nat) (s : State) : Host.Outcome State Fault Refusal :=
  s.run fun d => d.mctp 1 fun d => match d.numeric id with
    | none => (d, 0x80, [])
    | some (bad, v) => (d, 0, leBytes 1 (if bad then 4 else 0) ++ leBytes 4 (ofSigned 32 v))

/-- GET_STATE_SENSOR_READINGS. -/
def execGetStateSensorReadings (id : Nat) (s : State) : Host.Outcome State Fault Refusal :=
  s.run fun d => d.mctp 1 fun d => match d.stateSensor id with
    | none => (d, 0x80, [])
    | some v => (d, 0, leBytes 1 v)

/-- SET_STATE_EFFECTER_STATES. -/
def execSetStateEffecterStates (id value : Nat) (pgood : Bool) (s : State) : Host.Outcome State Fault Refusal :=
  s.run fun d => d.mctp 1 fun d => d.setEffecter id value pgood

/-- GET_STATE_EFFECTER_STATES. -/
def execGetStateEffecterStates (id : Nat) (s : State) : Host.Outcome State Fault Refusal :=
  s.run fun d => d.mctp 1 fun d => match d.effecter id with
    | none => (d, 0x80, [])
    | some v => (d, 0, leBytes 1 v)

/-- SET_EVENT_RECEIVER: the events kept may go. -/
def execSetEventReceiver (eid : Nat) (s : State) : Host.Outcome State Fault Refusal :=
  s.runIf (eid < 256) fun d => d.mctp 1 fun d => ({ d with tray := { d.tray with receiver := some eid } }, 0, [])

/-- PLATFORM_EVENT_MESSAGE. -/
def execPlatformEventMessage (s : State) : Host.Outcome State Fault Refusal := s.run Dev.platformEvent

/-- PLDM_FIRMWARE_UPDATE. -/
def execPldmFirmwareUpdate (u : FwUpdate) (s : State) : Host.Outcome State Fault Refusal := s.run fun d => d.mctp 1 fun d => d.fwUpdate u

/-- SET_ENDPOINT_ID: IDs 0 to 7 and 255 are not assigned to an endpoint. -/
def execSetEndpointId (eid : Nat) (s : State) : Host.Outcome State Fault Refusal :=
  s.runIf (eid < 256) fun d => d.mctp 0 fun d =>
    if eid < 8 || eid = 255 then (d, 2, []) else ({ d with tray := { d.tray with eid := eid } }, 0, leBytes 1 0 ++ leBytes 1 eid ++ leBytes 1 0)

/-- GET_MCTP_VERSION_SUPPORT. -/
def execGetMctpVersionSupport (type : Nat) (s : State) : Host.Outcome State Fault Refusal :=
  s.run fun d => d.mctp 0 fun d =>
    if trayTypes.contains type || type = 0xFF then (d, 0, leBytes 1 1 ++ [0xF1, 0xF3, 0xF1, 0x00]) else (d, 0x80, [])

/-- GET_MESSAGE_TYPE_SUPPORT. -/
def execGetMessageTypeSupport (s : State) : Host.Outcome State Fault Refusal :=
  s.run fun d => d.mctp 0 fun d => (d, 0, leBytes 1 (trayTypes.length - 1) ++ (trayTypes.drop 1).map (BitVec.ofNat 8))

/-- GET_VENDOR_DEFINED_MESSAGE_SUPPORT: the one vendor ID, PCI_VENDOR_ID. -/
def execGetVendorDefinedMessageSupport (selector : Nat) (s : State) : Host.Outcome State Fault Refusal :=
  s.run fun d => d.mctp 0 fun d =>
    if selector = 0 then (d, 0, leBytes 1 0xFF ++ leBytes 1 0 ++ (leBytes 2 (d.oget O.PCI_VENDOR_ID)).reverse ++ leBytes 2 0) else (d, 2, [])

/-- SENSOR_SAMPLE (R1000). -/
def execSensorSample (r : TraySample) (s : State) : Host.Outcome State Fault Refusal :=
  s.runIf (r.flow.length = 16 && r.outlet.length = 16 && r.power.length = 16 && r.inlet.length = 2 && r.current.length = 2 &&
    r.speed.length = 2) fun d => d.traySample r

/-- ROPE_READING (R1001). -/
def execRopeReading (rope : Nat) (r : RopeReading) (s : State) : Host.Outcome State Fault Refusal :=
  s.runIf (rope < 4) fun d => d.ropeRead rope r

/-- VALVE_CLOSE_DELAY (R1002). -/
def execValveCloseDelay (slot : Nat) (s : State) : Host.Outcome State Fault Refusal :=
  s.runIf (slot < 16) fun d =>
    if d.tray.down || !(d.slot slot).closing then d else d.onSlot slot fun s => { s with valve := false, closing := false }

/-- PUMP_LOOP (R1004). -/
def execPumpLoop (s : State) : Host.Outcome State Fault Refusal := s.run Dev.pumpLoop

/-- POWER_LIMIT_RETRY (R1000): `ok` tells whether a device that is not the modelled one takes the write. -/
def execPowerLimitRetry (slot : Nat) (ok : Bool) (s : State) : Host.Outcome State Fault Refusal :=
  s.runIf (slot < 16) fun d => d.limitRetry slot ok

/-- CONTROLLER_RESTART (R1014). -/
def execControllerRestart (s : State) : Host.Outcome State Fault Refusal := s.run Dev.trayRestart

/-- DEVICE_ATTEST (R996). -/
def execDeviceAttest (slot d1 d2 d4 : Nat) (s : State) : Host.Outcome State Fault Refusal :=
  s.runIf (slot < 16) fun d => d.deviceAttest slot d1 d2 d4

/-- NOTIFY_TARGET_SETUP (R999). -/
def execNotifyTargetSetup (slot : Nat) (s : State) : Host.Outcome State Fault Refusal := s.runIf (slot < 16) fun d => d.notifySetup slot

/-- TRAY_UTC_WRITE (R1008). -/
def execTrayUtcWrite (s : State) : Host.Outcome State Fault Refusal :=
  s.run fun d => if d.tray.down then d else slotNums.foldl Dev.utcWrite d

/-- TRAY_HEARTBEAT (R1017). -/
def execTrayHeartbeat (s : State) : Host.Outcome State Fault Refusal := s.run Dev.trayHeartbeat

/-- SLOT_NO_RESPONSE (R1006). -/
def execSlotNoResponse (slot : Nat) (s : State) : Host.Outcome State Fault Refusal := s.runIf (slot < 16) fun d => d.slotSilent slot

/-- CONTROLLER_SUPPLY_LOSS (R1015). -/
def execControllerSupplyLoss (s : State) : Host.Outcome State Fault Refusal := s.run Dev.traySupplyLoss

/-- RELAY_TIMEOUT_EXPIRY (R997). -/
def execRelayTimeoutExpiry (slot : Nat) (s : State) : Host.Outcome State Fault Refusal := s.runIf (slot < 16) fun d => d.relayTimeout slot

end Sys2Proof.Machine
end

