-- ==== Sys2Proof/Machine/Dispatch.lean ====
section
/-! DEFINITION. Machine/Dispatch.lean: the meaning of every command, one arm each. -/

namespace Sys2Proof.Machine

/-- The effect of a command on the device; the queue of waiting commands is left as it is. -/
def exec (i : Instr) (s : State) : Host.Outcome State Fault Refusal :=
  match i with
  | .iadd c e => Sys2Proof.Machine.execIadd c e s
  | .isub c e => Sys2Proof.Machine.execIsub c e s
  | .imul c e => Sys2Proof.Machine.execImul c e s
  | .imulhi c e => Sys2Proof.Machine.execImulhi c e s
  | .imad c e => Sys2Proof.Machine.execImad c e s
  | .andCmd c e => Sys2Proof.Machine.execAndCmd c e s
  | .orCmd c e => Sys2Proof.Machine.execOrCmd c e s
  | .xor c e => Sys2Proof.Machine.execXor c e s
  | .shl c e => Sys2Proof.Machine.execShl c e s
  | .shr c e => Sys2Proof.Machine.execShr c e s
  | .sar c e => Sys2Proof.Machine.execSar c e s
  | .imin c e => Sys2Proof.Machine.execImin c e s
  | .imax c e => Sys2Proof.Machine.execImax c e s
  | .popc c e => Sys2Proof.Machine.execPopc c e s
  | .sel c e => Sys2Proof.Machine.execSel c e s
  | .fadd c e => Sys2Proof.Machine.execFadd c e s
  | .fmul c e => Sys2Proof.Machine.execFmul c e s
  | .ffma c e => Sys2Proof.Machine.execFfma c e s
  | .fmin c e => Sys2Proof.Machine.execFmin c e s
  | .fmax c e => Sys2Proof.Machine.execFmax c e s
  | .fdiv c e => Sys2Proof.Machine.execFdiv c e s
  | .fsqrt c e => Sys2Proof.Machine.execFsqrt c e s
  | .dadd c e => Sys2Proof.Machine.execDadd c e s
  | .dmul c e => Sys2Proof.Machine.execDmul c e s
  | .dfma c e => Sys2Proof.Machine.execDfma c e s
  | .dmin c e => Sys2Proof.Machine.execDmin c e s
  | .dmax c e => Sys2Proof.Machine.execDmax c e s
  | .ddiv c e => Sys2Proof.Machine.execDdiv c e s
  | .dsqrt c e => Sys2Proof.Machine.execDsqrt c e s
  | .cvt c e => Sys2Proof.Machine.execCvt c e s
  | .isetp c e => Sys2Proof.Machine.execIsetp c e s
  | .fsetp c e => Sys2Proof.Machine.execFsetp c e s
  | .dsetp c e => Sys2Proof.Machine.execDsetp c e s
  | .plop c e => Sys2Proof.Machine.execPlop c e s
  | .vote c e => Sys2Proof.Machine.execVote c e s
  | .bra c e => Sys2Proof.Machine.execBra c e s
  | .brx c e => Sys2Proof.Machine.execBrx c e s
  | .call c e => Sys2Proof.Machine.execCall c e s
  | .ret c e => Sys2Proof.Machine.execRet c e s
  | .exitCmd c e => Sys2Proof.Machine.execExitCmd c e s
  | .nop c e => Sys2Proof.Machine.execNop c e s
  | .ldL c e => Sys2Proof.Machine.execLdL c e s
  | .stL c e => Sys2Proof.Machine.execStL c e s
  | .ldC c e => Sys2Proof.Machine.execLdC c e s
  | .stC c e => Sys2Proof.Machine.execStC c e s
  | .ldG c e => Sys2Proof.Machine.execLdG c e s
  | .stG c e => Sys2Proof.Machine.execStG c e s
  | .cwait c e => Sys2Proof.Machine.execCwait c e s
  | .atomL c e => Sys2Proof.Machine.execAtomL c e s
  | .atomC c e => Sys2Proof.Machine.execAtomC c e s
  | .atomG c e => Sys2Proof.Machine.execAtomG c e s
  | .fence c e => Sys2Proof.Machine.execFence c e s
  | .acopy c e => Sys2Proof.Machine.execAcopy c e s
  | .actInit c e => Sys2Proof.Machine.execActInit c e s
  | .arrive c e => Sys2Proof.Machine.execArrive c e s
  | .arriveExpect c e => Sys2Proof.Machine.execArriveExpect c e s
  | .actWait c e => Sys2Proof.Machine.execActWait c e s
  | .arriveC c e => Sys2Proof.Machine.execArriveC c e s
  | .actRead c e => Sys2Proof.Machine.execActRead c e s
  | .barSync c e => Sys2Proof.Machine.execBarSync c e s
  | .barArrive c e => Sys2Proof.Machine.execBarArrive c e s
  | .gbar c e => Sys2Proof.Machine.execGbar c e s
  | .mma c e => Sys2Proof.Machine.execMma c e s
  | .mwait c e => Sys2Proof.Machine.execMwait c e s
  | .mflags c e => Sys2Proof.Machine.execMflags c e s
  | .srRead c e => Sys2Proof.Machine.execSrRead c e s
  | .srWrite c e => Sys2Proof.Machine.execSrWrite c e s
  | .mov c e => Sys2Proof.Machine.execMov c e s
  | .trap c e => Sys2Proof.Machine.execTrap c e s
  | .assert c e => Sys2Proof.Machine.execAssert c e s
  | .mark c e => Sys2Proof.Machine.execMark c e s
  | .vperm c e => Sys2Proof.Machine.execVperm c e s
  | .taskStart core => Sys2Proof.Machine.execTaskStart core s
  | .storeBufferDrain core x => Sys2Proof.Machine.execStoreBufferDrain core x s
  | .loadReissue c => Sys2Proof.Machine.execLoadReissue c s
  | .deadlockDetectorFire core => Sys2Proof.Machine.execDeadlockDetectorFire core s
  | .taskAbort core cause detail => Sys2Proof.Machine.execTaskAbort core cause detail s
  | .taskComplete core => Sys2Proof.Machine.execTaskComplete core s
  | .mmaDecode core => Sys2Proof.Machine.execMmaDecode core s
  | .mmaGangStart core => Sys2Proof.Machine.execMmaGangStart core s
  | .mmaComplete core e => Sys2Proof.Machine.execMmaComplete core e s
  | .larkRequestIssue core e => Sys2Proof.Machine.execLarkRequestIssue core e s
  | .blockLanded core ctx => Sys2Proof.Machine.execBlockLanded core ctx s
  | .acopyCompletion core idx => Sys2Proof.Machine.execAcopyCompletion core idx s
  | .lda core ctx => Sys2Proof.Machine.execLda core ctx s
  | .mova core ctx => Sys2Proof.Machine.execMova core ctx s
  | .adda core ctx => Sys2Proof.Machine.execAdda core ctx s
  | .addap core ctx => Sys2Proof.Machine.execAddap core ctx s
  | .loopCmd core ctx => Sys2Proof.Machine.execLoopCmd core ctx s
  | .endl core ctx => Sys2Proof.Machine.execEndl core ctx s
  | .emit core ctx => Sys2Proof.Machine.execEmit core ctx s
  | .endProg core ctx => Sys2Proof.Machine.execEndProg core ctx s
  | .starlingDelivery die slot => Sys2Proof.Machine.execStarlingDelivery die slot s
  | .l2Lookup r e => Sys2Proof.Machine.execL2Lookup r e s
  | .l2Fill line => Sys2Proof.Machine.execL2Fill line s
  | .crossingRetry dir => Sys2Proof.Machine.execCrossingRetry dir s
  | .crossingFailure dir => Sys2Proof.Machine.execCrossingFailure dir s
  | .maintGo path => Sys2Proof.Machine.execMaintGo path s
  | .maintDone => Sys2Proof.Machine.execMaintDone s
  | .l2SpareSteering slice array column => Sys2Proof.Machine.execL2SpareSteering slice array column s
  | .pageWalk eng owner va access e => Sys2Proof.Machine.execPageWalk eng owner va access e s
  | .faultBatchClose => Sys2Proof.Machine.execFaultBatchClose s
  | .atsCompletion fn a => Sys2Proof.Machine.execAtsCompletion fn a s
  | .atsInvalidateRequest fn addr size tag => Sys2Proof.Machine.execAtsInvalidateRequest fn addr size tag s
  | .prgResponse fn prg code => Sys2Proof.Machine.execPrgResponse fn prg code s
  | .priTimeoutExpiry fn prg => Sys2Proof.Machine.execPriTimeoutExpiry fn prg s
  | .faultGetWrite path value => Sys2Proof.Machine.execFaultGetWrite path value s
  | .faultRingBaseWrite path value => Sys2Proof.Machine.execFaultRingBaseWrite path value s
  | .doorbell owner q value poison => Sys2Proof.Machine.execDoorbell owner q value poison s
  | .barRead fn bar off size => Sys2Proof.Machine.execBarRead fn bar off size s
  | .pfBar2Access write off data len poison => Sys2Proof.Machine.execPfBar2Access write off data len poison s
  | .vfBar2Write t off data poison => Sys2Proof.Machine.execVfBar2Write t off data poison s
  | .msixTableAccess fn write off size value => Sys2Proof.Machine.execMsixTableAccess fn write off size value s
  | .msixUnmask fn vec => Sys2Proof.Machine.execMsixUnmask fn vec s
  | .flr t => Sys2Proof.Machine.execFlr t s
  | .pfFlr => Sys2Proof.Machine.execPfFlr s
  | .vfEnableClear => Sys2Proof.Machine.execVfEnableClear s
  | .busMasterEnableChange fn on => Sys2Proof.Machine.execBusMasterEnableChange fn on s
  | .d3hotEntry => Sys2Proof.Machine.execD3hotEntry s
  | .d0Return => Sys2Proof.Machine.execD0Return s
  | .hostportStateChange rate width => Sys2Proof.Machine.execHostportStateChange rate width s
  | .hostLinkDown => Sys2Proof.Machine.execHostLinkDown s
  | .hostCompletion tag status data ep e => Sys2Proof.Machine.execHostCompletion tag status data ep e s
  | .configWrite fn reg value => Sys2Proof.Machine.execConfigWrite fn reg value s
  | .precentorTick e => Sys2Proof.Machine.execPrecentorTick e s
  | .task owner q p => Sys2Proof.Machine.execTask owner q p s
  | .edge owner q p => Sys2Proof.Machine.execEdge owner q p s
  | .seal owner q p => Sys2Proof.Machine.execSeal owner q p s
  | .signal owner q p => Sys2Proof.Machine.execSignal owner q p s
  | .wait owner q p => Sys2Proof.Machine.execWait owner q p s
  | .copy owner q p => Sys2Proof.Machine.execCopy owner q p s
  | .reshard owner q p => Sys2Proof.Machine.execReshard owner q p s
  | .collective owner q p => Sys2Proof.Machine.execCollective owner q p s
  | .timestamp owner q p => Sys2Proof.Machine.execTimestamp owner q p s
  | .watch owner q p => Sys2Proof.Machine.execWatch owner q p s
  | .nopPacket owner q p => Sys2Proof.Machine.execNopPacket owner q p s
  | .fencePacket owner q p => Sys2Proof.Machine.execFencePacket owner q p s
  | .descCreate owner q p => Sys2Proof.Machine.execDescCreate owner q p s
  | .descDestroy owner q p => Sys2Proof.Machine.execDescDestroy owner q p s
  | .chapelSet owner q p => Sys2Proof.Machine.execChapelSet owner q p s
  | .horariumLoad owner q p => Sys2Proof.Machine.execHorariumLoad owner q p s
  | .contextKill owner q p => Sys2Proof.Machine.execContextKill owner q p s
  | .windowMap owner q p => Sys2Proof.Machine.execWindowMap owner q p s
  | .windowUnmap owner q p => Sys2Proof.Machine.execWindowUnmap owner q p s
  | .tlbInvalidate owner q p => Sys2Proof.Machine.execTlbInvalidate owner q p s
  | .tenantSetup owner q p => Sys2Proof.Machine.execTenantSetup owner q p s
  | .tenantRelease owner q p => Sys2Proof.Machine.execTenantRelease owner q p s
  | .dictWrite owner q p => Sys2Proof.Machine.execDictWrite owner q p s
  | .faultResume owner q p => Sys2Proof.Machine.execFaultResume owner q p s
  | .queueEnable path => Sys2Proof.Machine.execQueueEnable path s
  | .queueReset path => Sys2Proof.Machine.execQueueReset path s
  | .queueDisable path => Sys2Proof.Machine.execQueueDisable path s
  | .taskTimeout n => Sys2Proof.Machine.execTaskTimeout n s
  | .budgetExpiry n => Sys2Proof.Machine.execBudgetExpiry n s
  | .waitTimeout n => Sys2Proof.Machine.execWaitTimeout n s
  | .queueTimeout owner q => Sys2Proof.Machine.execQueueTimeout owner q s
  | .horariumSwitch => Sys2Proof.Machine.execHorariumSwitch s
  | .slotBoundary => Sys2Proof.Machine.execSlotBoundary s
  | .urgentFloorRequest entry => Sys2Proof.Machine.execUrgentFloorRequest entry s
  | .contextTeardown tenant steps => Sys2Proof.Machine.execContextTeardown tenant steps s
  | .logPop path n => Sys2Proof.Machine.execLogPop path n s
  | .tandemCompare core => Sys2Proof.Machine.execTandemCompare core s
  | .comparatorSelfTest clo missed => Sys2Proof.Machine.execComparatorSelfTest clo missed s
  | .comparatorFault clo => Sys2Proof.Machine.execComparatorFault clo s
  | .keySlotFailure slot => Sys2Proof.Machine.execKeySlotFailure slot s
  | .hbmRead dpa owner err => Sys2Proof.Machine.execHbmRead dpa owner err s
  | .hbmWrite dpa mask data m => Sys2Proof.Machine.execHbmWrite dpa mask data m s
  | .retireAdd path value => Sys2Proof.Machine.execRetireAdd path value s
  | .retireAck path value => Sys2Proof.Machine.execRetireAck path value s
  | .stackTempRead stack temp => Sys2Proof.Machine.execStackTempRead stack temp s
  | .refresh ch bank kind => Sys2Proof.Machine.execRefresh ch bank kind s
  | .strobeRealign ch => Sys2Proof.Machine.execStrobeRealign ch s
  | .patrolScrub ch err => Sys2Proof.Machine.execPatrolScrub ch err s
  | .caParityRetry ch trained => Sys2Proof.Machine.execCaParityRetry ch trained s
  | .enterTest path group => Sys2Proof.Machine.execEnterTest path group s
  | .leaveTest path group => Sys2Proof.Machine.execLeaveTest path group s
  | .tgStart path ch => Sys2Proof.Machine.execTgStart path ch s
  | .tgStop path ch => Sys2Proof.Machine.execTgStop path ch s
  | .tgDone x => Sys2Proof.Machine.execTgDone x s
  | .linkSignalDetect link present => Sys2Proof.Machine.execLinkSignalDetect link present s
  | .linkTraining link ok delay asym => Sys2Proof.Machine.execLinkTraining link ok delay asym s
  | .linkDown link => Sys2Proof.Machine.execLinkDown link s
  | .linkEnableWrite path link value => Sys2Proof.Machine.execLinkEnableWrite path link value s
  | .flitReceive link f e => Sys2Proof.Machine.execFlitReceive link f e s
  | .flitReplay link => Sys2Proof.Machine.execFlitReplay link s
  | .replayTimeout link => Sys2Proof.Machine.execReplayTimeout link s
  | .handshake link h => Sys2Proof.Machine.execHandshake link h s
  | .presetRequest link lane preset token => Sys2Proof.Machine.execPresetRequest link lane preset token s
  | .presetAck link lane preset token refused => Sys2Proof.Machine.execPresetAck link lane preset token refused s
  | .timeFlitSend link sub => Sys2Proof.Machine.execTimeFlitSend link sub s
  | .timeFlitReceive link sub f => Sys2Proof.Machine.execTimeFlitReceive link sub f s
  | .timeSet path value => Sys2Proof.Machine.execTimeSet path value s
  | .packetRoute link p e => Sys2Proof.Machine.execPacketRoute link p e s
  | .errorPacketReceive p => Sys2Proof.Machine.execErrorPacketReceive p s
  | .equalizationLoop link r => Sys2Proof.Machine.execEqualizationLoop link r s
  | .enter p => Sys2Proof.Machine.execEnter p s
  | .release p => Sys2Proof.Machine.execRelease p s
  | .abortCmd p => Sys2Proof.Machine.execAbortCmd p s
  | .pull p => Sys2Proof.Machine.execPull p s
  | .data p => Sys2Proof.Machine.execData p s
  | .up p => Sys2Proof.Machine.execUp p s
  | .down p => Sys2Proof.Machine.execDown p s
  | .write p => Sys2Proof.Machine.execWrite p s
  | .ack p => Sys2Proof.Machine.execAck p s
  | .barrierPass op => Sys2Proof.Machine.execBarrierPass op s
  | .enterResend op => Sys2Proof.Machine.execEnterResend op s
  | .opTimeoutExpiry op => Sys2Proof.Machine.execOpTimeoutExpiry op s
  | .dpReadBurst port value e => Sys2Proof.Machine.execDpReadBurst port value e s
  | .dpWriteBurst port value => Sys2Proof.Machine.execDpWriteBurst port value s
  | .dpAbort port value => Sys2Proof.Machine.execDpAbort port value s
  | .dpDataRead port => Sys2Proof.Machine.execDpDataRead port s
  | .dpDataWrite port value => Sys2Proof.Machine.execDpDataWrite port value s
  | .dpBurstDone port => Sys2Proof.Machine.execDpBurstDone port s
  | .dictObjectWrite path index sub off byte data => Sys2Proof.Machine.execDictObjectWrite path index sub off byte data s
  | .cantorRead i3c m => Sys2Proof.Machine.execCantorRead i3c m s
  | .cantorWrite i3c m => Sys2Proof.Machine.execCantorWrite i3c m s
  | .cantorReadBurst i3c m => Sys2Proof.Machine.execCantorReadBurst i3c m s
  | .notify n => Sys2Proof.Machine.execNotify n s
  | .cantorResponse i3c m => Sys2Proof.Machine.execCantorResponse i3c m s
  | .i3cRelay i3c m => Sys2Proof.Machine.execI3cRelay i3c m s
  | .cantorTx path m => Sys2Proof.Machine.execCantorTx path m s
  | .cantorRxPop path => Sys2Proof.Machine.execCantorRxPop path s
  | .cantorTimeoutExpiry count => Sys2Proof.Machine.execCantorTimeoutExpiry count s
  | .timebaseSwitch => Sys2Proof.Machine.execTimebaseSwitch s
  | .timebaseFailure => Sys2Proof.Machine.execTimebaseFailure s
  | .pdOn path d => Sys2Proof.Machine.execPdOn path d s
  | .pdOff path d => Sys2Proof.Machine.execPdOff path d s
  | .pdLow path d => Sys2Proof.Machine.execPdLow path d s
  | .domainWake d ok t => Sys2Proof.Machine.execDomainWake d ok t s
  | .wakeRetry d => Sys2Proof.Machine.execWakeRetry d s
  | .voltageLoop oct margin => Sys2Proof.Machine.execVoltageLoop oct margin s
  | .clockLoop oct => Sys2Proof.Machine.execClockLoop oct s
  | .droopStretch oct drop clocks => Sys2Proof.Machine.execDroopStretch oct drop clocks s
  | .droopThreshold oct => Sys2Proof.Machine.execDroopThreshold oct s
  | .thresholdLoop ch lane dir => Sys2Proof.Machine.execThresholdLoop ch lane dir s
  | .placementLoop oct => Sys2Proof.Machine.execPlacementLoop oct s
  | .currentLimit oct amps => Sys2Proof.Machine.execCurrentLimit oct amps s
  | .powerEstimate d activity => Sys2Proof.Machine.execPowerEstimate d activity s
  | .recalibration d measured => Sys2Proof.Machine.execRecalibration d measured s
  | .quiesce d => Sys2Proof.Machine.execQuiesce d s
  | .estimatorStale d => Sys2Proof.Machine.execEstimatorStale d s
  | .thermalSensorRead t => Sys2Proof.Machine.execThermalSensorRead t s
  | .powerFault d => Sys2Proof.Machine.execPowerFault d s
  | .powerOn => Sys2Proof.Machine.execPowerOn s
  | .resetNAssert => Sys2Proof.Machine.execResetNAssert s
  | .perstEdge => Sys2Proof.Machine.execPerstEdge s
  | .resetRequestWarm path => Sys2Proof.Machine.execResetRequestWarm path s
  | .resetRequestCold path => Sys2Proof.Machine.execResetRequestCold path s
  | .resetRelease b => Sys2Proof.Machine.execResetRelease b s
  | .bootWatchdogExpiry => Sys2Proof.Machine.execBootWatchdogExpiry s
  | .flashRead path => Sys2Proof.Machine.execFlashRead path s
  | .flashProgram path => Sys2Proof.Machine.execFlashProgram path s
  | .flashErase path => Sys2Proof.Machine.execFlashErase path s
  | .flashDone ok => Sys2Proof.Machine.execFlashDone ok s
  | .bootPreference path slot => Sys2Proof.Machine.execBootPreference path slot s
  | .bootConfirm path value => Sys2Proof.Machine.execBootConfirm path value s
  | .keyRevoke path value => Sys2Proof.Machine.execKeyRevoke path value s
  | .getVersion r => Sys2Proof.Machine.execGetVersion r s
  | .getCapabilities r => Sys2Proof.Machine.execGetCapabilities r s
  | .negotiateAlgorithms r => Sys2Proof.Machine.execNegotiateAlgorithms r s
  | .getDigests r => Sys2Proof.Machine.execGetDigests r s
  | .getCertificate r => Sys2Proof.Machine.execGetCertificate r s
  | .challenge r => Sys2Proof.Machine.execChallenge r s
  | .getMeasurements r => Sys2Proof.Machine.execGetMeasurements r s
  | .keyExchange r => Sys2Proof.Machine.execKeyExchange r s
  | .finish r => Sys2Proof.Machine.execFinish r s
  | .heartbeat r => Sys2Proof.Machine.execHeartbeat r s
  | .keyUpdate r => Sys2Proof.Machine.execKeyUpdate r s
  | .endSession r => Sys2Proof.Machine.execEndSession r s
  | .setSystemKey r => Sys2Proof.Machine.execSetSystemKey r s
  | .zeroizeSystemKey r => Sys2Proof.Machine.execZeroizeSystemKey r s
  | .getEndpointId tray => Sys2Proof.Machine.execGetEndpointId tray s
  | .cntLatch path => Sys2Proof.Machine.execCntLatch path s
  | .sampler => Sys2Proof.Machine.execSampler s
  | .dropsRecord => Sys2Proof.Machine.execDropsRecord s
  | .tokenRefill => Sys2Proof.Machine.execTokenRefill s
  | .watchCapture => Sys2Proof.Machine.execWatchCapture s
  | .snapRequest path value => Sys2Proof.Machine.execSnapRequest path value s
  | .snapshotWrite e => Sys2Proof.Machine.execSnapshotWrite e s
  | .clrRingBaseWrite path value => Sys2Proof.Machine.execClrRingBaseWrite path value s
  | .status => Sys2Proof.Machine.execStatus s
  | .relay slot m answer => Sys2Proof.Machine.execRelay slot m answer s
  | .slotPowerOn slot pgood => Sys2Proof.Machine.execSlotPowerOn slot pgood s
  | .slotPowerOff slot => Sys2Proof.Machine.execSlotPowerOff slot s
  | .valve slot value => Sys2Proof.Machine.execValve slot value s
  | .paramGet id => Sys2Proof.Machine.execParamGet id s
  | .paramSet id value => Sys2Proof.Machine.execParamSet id value s
  | .utcSet value => Sys2Proof.Machine.execUtcSet value s
  | .logRead start => Sys2Proof.Machine.execLogRead start s
  | .leakAck rope => Sys2Proof.Machine.execLeakAck rope s
  | .keyGenerate => Sys2Proof.Machine.execKeyGenerate s
  | .cloneAllow serial => Sys2Proof.Machine.execCloneAllow serial s
  | .getPdr handle => Sys2Proof.Machine.execGetPdr handle s
  | .getSensorReading id => Sys2Proof.Machine.execGetSensorReading id s
  | .getStateSensorReadings id => Sys2Proof.Machine.execGetStateSensorReadings id s
  | .setStateEffecterStates id value pgood => Sys2Proof.Machine.execSetStateEffecterStates id value pgood s
  | .getStateEffecterStates id => Sys2Proof.Machine.execGetStateEffecterStates id s
  | .setEventReceiver eid => Sys2Proof.Machine.execSetEventReceiver eid s
  | .platformEventMessage => Sys2Proof.Machine.execPlatformEventMessage s
  | .pldmFirmwareUpdate u => Sys2Proof.Machine.execPldmFirmwareUpdate u s
  | .setEndpointId eid => Sys2Proof.Machine.execSetEndpointId eid s
  | .getMctpVersionSupport type => Sys2Proof.Machine.execGetMctpVersionSupport type s
  | .getMessageTypeSupport => Sys2Proof.Machine.execGetMessageTypeSupport s
  | .getVendorDefinedMessageSupport selector => Sys2Proof.Machine.execGetVendorDefinedMessageSupport selector s
  | .sensorSample r => Sys2Proof.Machine.execSensorSample r s
  | .ropeReading rope r => Sys2Proof.Machine.execRopeReading rope r s
  | .valveCloseDelay slot => Sys2Proof.Machine.execValveCloseDelay slot s
  | .pumpLoop => Sys2Proof.Machine.execPumpLoop s
  | .powerLimitRetry slot ok => Sys2Proof.Machine.execPowerLimitRetry slot ok s
  | .controllerRestart => Sys2Proof.Machine.execControllerRestart s
  | .deviceAttest slot d1 d2 d4 => Sys2Proof.Machine.execDeviceAttest slot d1 d2 d4 s
  | .notifyTargetSetup slot => Sys2Proof.Machine.execNotifyTargetSetup slot s
  | .trayUtcWrite => Sys2Proof.Machine.execTrayUtcWrite s
  | .trayHeartbeat => Sys2Proof.Machine.execTrayHeartbeat s
  | .slotNoResponse slot => Sys2Proof.Machine.execSlotNoResponse slot s
  | .deviceUtcSet path value => Sys2Proof.Machine.execDeviceUtcSet path value s
  | .lifeCommit path => Sys2Proof.Machine.execLifeCommit path s
  | .hourlyCommit => Sys2Proof.Machine.execHourlyCommit s
  | .lifetimeSecond => Sys2Proof.Machine.execLifetimeSecond s
  | .cryptCommitRetry key ok => Sys2Proof.Machine.execCryptCommitRetry key ok s
  | .bypass => Sys2Proof.Machine.execBypass s
  | .idcode => Sys2Proof.Machine.execIdcode s
  | .samplePreload data => Sys2Proof.Machine.execSamplePreload data s
  | .extest => Sys2Proof.Machine.execExtest s
  | .extestPulse => Sys2Proof.Machine.execExtestPulse s
  | .extestTrain => Sys2Proof.Machine.execExtestTrain s
  | .clamp => Sys2Proof.Machine.execClamp s
  | .highz => Sys2Proof.Machine.execHighz s
  | .perstDeassert strap => Sys2Proof.Machine.execPerstDeassert strap s
  | .hostLinkUp rate width => Sys2Proof.Machine.execHostLinkUp rate width s
  | .dpRegisterWrite port reg value => Sys2Proof.Machine.execDpRegisterWrite port reg value s
  | .bar0DiscardedWrite fn off size poison => Sys2Proof.Machine.execBar0DiscardedWrite fn off size poison s
  | .powerLoss => Sys2Proof.Machine.execPowerLoss s
  | .controllerSupplyLoss => Sys2Proof.Machine.execControllerSupplyLoss s
  | .spareLossOfLock => Sys2Proof.Machine.execSpareLossOfLock s
  | .cryptObjectCommit key ok => Sys2Proof.Machine.execCryptObjectCommit key ok s
  | .vrPgRise d => Sys2Proof.Machine.execVrPgRise d s
  | .relayTimeoutExpiry slot => Sys2Proof.Machine.execRelayTimeoutExpiry slot s

end Sys2Proof.Machine
end

