-- ==== Sys2Proof/Certificates/Slice0/NaveClaims.lean ====
section
/-! DEFINITION. Certificates/Slice0/NaveClaims.lean: what the statements about the instructions of a core say: when an instruction issues,
its operands, and what a result writes. -/

namespace Sys2Proof.Claims

open Sys2Proof.Machine

/-! ### When an instruction issues -/

/-- Command `e` of choir `c`, an instruction of opcode `opc` whose word uses what `sp` says, issues and acts (R35, R36, R39, R118 to R120,
R143): the choir is the one from which its stall issues, `x.w` is the word at its PC, some voice executes it, the word is legal and
names registers of the allocation, and no voice consumes poison. `d` is the device once the core clock of the command has begun, the
word is fetched and the instruction counted; the effect on it is followed by the end of the command's clock, `Dev.clockEnd`. -/
structure Issues (s : State) (c : ChoirRef) (e : HwErr) (opc : Nat) (sp : Nat → Spec) (d : Dev) (x : Ctx) : Prop where
  core : c.core < 256
  slot : c.slot < 64
  ready : (s.dev.clockBegin c).ready c = true
  word : ∃ d0, Dev.fetch (((s.dev.clockBegin c).onChoir c.core c.slot (Choir.settle 40)).coreErr c.core c.slot e) c.core c.slot =
    (d0, .word x.w) ∧ d = d0.issued c.core c.slot
  core_eq : x.n = c.core
  slot_eq : x.slot = c.slot
  err_eq : x.e = e
  choir : x.h = (d.core c.core).choir c.slot
  voices : x.ex = x.h.mask &&&
    (if bit x.w 11 then x.h.pred (bits x.w 8 3) ^^^ (2 ^ 32 - 1) else x.h.pred (bits x.w 8 3))
  some : x.ex ≠ 0
  opcode : iOpc x.w = opc
  legal : insLegal (sp x.w) x.w = true
  range : insRange (sp x.w) x.w (((d.core c.core).task.map (·.regs)).getD 0) = true
  clean : ∀ v ∈ voicesOf x.ex, eatsPoison (sp x.w) x.h x.w v = false
  free : x.h.wait = .none
  idle : x.h.load = none
  held : (d.core c.core).task.isSome = true

/-- The command answers with the device that its effect leaves, its core clock ended. -/
def acts (i : Instr) (s : State) (c : ChoirRef) (d' : Dev) : Prop := exec i s = .next { s with dev := d'.clockEnd c }

/-- The voices an instruction acts for: those that execute, or one for the choir under DU. -/
def acting (x : Ctx) : List Nat := if iDu x.w then [0] else voicesOf x.ex

/-! ### Operands (Table 3.2, R115) -/

/-- `n` registers of 32 bits from `i`, the lowest first. -/
def partsOf (g : Nat → Nat) (i : Nat) : Nat → Nat
  | 0 => 0
  | n + 1 => g i + partsOf g (i + 1) n * 2 ^ 32

/-- Operand A of voice `v`, of `n` registers. -/
def srcA (x : Ctx) (n v : Nat) : Nat :=
  partsOf (fun r => if iAu x.w then (x.h.uget r).1 else (x.h.vget r v).1) (iSa x.w) n

/-- Operand B of voice `v`, of `n` registers; the immediate is sign-extended to their width. -/
def srcB (x : Ctx) (n v : Nat) : Nat :=
  if iBi x.w then
    if 2 ^ 31 ≤ iImm x.w then iImm x.w + (2 ^ (32 * (n - 1)) - 1) * 2 ^ 32 else iImm x.w
  else partsOf (fun r => if iBu x.w then (x.h.uget r).1 else (x.h.vget r v).1) (iSb x.w) n

/-- Operand C of voice `v`, of `n` registers. -/
def srcC (x : Ctx) (n v : Nat) : Nat := partsOf (fun r => (x.h.vget r v).1) (iSc x.w) n

/-! ### What a result writes -/

/-- A choir but for its registers, predicates, flags and PC is as it was. -/
def sameFlow (h h' : Choir) : Prop :=
  h'.mask = h.mask ∧ h'.rpc = h.rpc ∧ h'.dstack = h.dstack ∧ h'.rstack = h.rstack ∧ h'.fpctl = h.fpctl ∧ h'.wait = h.wait ∧
    h'.load = h.load

/-- The voice registers, uniform registers and predicates of two choirs are the same. -/
def sameV (h h' : Choir) : Prop := ∀ r v, h'.vget r v = h.vget r v
def sameU (h h' : Choir) : Prop := ∀ r, h'.uget r = h.uget r
def sameP (h h' : Choir) : Prop := ∀ i, h'.pred i = h.pred i

/-- From `d` to `d'` only the choir of `x` changes: `n` registers at DST hold `val v` and its poison in every executing voice `v`, or
in the uniform file (value 0) under DU; `fl` is added to SR_FLAGS, and the PC is the next instruction's; no other register, no
predicate and nothing else of the choir changes. -/
def Writes (d : Dev) (x : Ctx) (n : Nat) (val : Nat → Nat × Bool) (fl : Nat) (d' : Dev) : Prop :=
  ∃ h', d' = d.onChoir x.n x.slot (fun _ => h') ∧ h'.pc = x.h.pc + 16 ∧ h'.flags = x.h.flags ||| fl ∧ sameFlow x.h h' ∧
    sameP x.h h' ∧
    if iDu x.w then
      sameV x.h h' ∧ partsOf (fun r => (h'.uget r).1) (iDst x.w) n = (val 0).1 ∧
      (∀ i < n, (h'.uget (iDst x.w + i)).2 = (val 0).2) ∧
      ∀ r, r < iDst x.w ∨ iDst x.w + n ≤ r → h'.uget r = x.h.uget r
    else
      sameU x.h h' ∧
      (∀ v ∈ voicesOf x.ex, partsOf (fun r => (h'.vget r v).1) (iDst x.w) n = (val v).1 ∧
        ∀ i < n, (h'.vget (iDst x.w + i) v).2 = (val v).2) ∧
      ∀ r, ∀ v < 32, v ∉ voicesOf x.ex ∨ r < iDst x.w ∨ iDst x.w + n ≤ r → h'.vget r v = x.h.vget r v

/-- From `d` to `d'` only the choir of `x` changes: predicate DST of each executing voice `v` is `val v`, but P0 stays true (R31); `fl` is
added to SR_FLAGS, and the PC is the next instruction's. -/
def WritesPred (d : Dev) (x : Ctx) (val : Nat → Bool) (fl : Nat) (d' : Dev) : Prop :=
  ∃ h', d' = d.onChoir x.n x.slot (fun _ => h') ∧ h'.pc = x.h.pc + 16 ∧ h'.flags = x.h.flags ||| fl ∧ sameFlow x.h h' ∧
    sameV x.h h' ∧ sameU x.h h' ∧
    ∀ i, ∀ v < 32, bit (h'.pred i) v =
      (if i = 0 then true else if i = iDst x.w ∧ v ∈ voicesOf x.ex then val v else bit (x.h.pred i) v)

/-- From `d` to `d'` only the choir of `x` changes, and of it only what `f` changes. -/
def Moves (d : Dev) (x : Ctx) (f : Choir → Choir) (d' : Dev) : Prop := d' = d.onChoir x.n x.slot (fun _ => f x.h)

/-- The flags of every executing voice, or of the uniform instruction, together (R240). -/
def orVoices (x : Ctx) (f : Nat → Nat) : Nat :=
  (if iDu x.w then [0] else voicesOf x.ex).foldl (fun a v => a ||| f v) 0

/-! ### Integer instructions (Table 3.4) -/

/-- Registers of an operand under W64. -/
def intParts (x : Ctx) : Nat := if bit (iMod x.w) 0 then 2 else 1

/-- SIGNED. -/
def intSigned (x : Ctx) : Bool := bit (iMod x.w) 1

/-- An integer instruction writes a function of its operands as words of their width; it touches no flag. -/
def IntResult (cmd : ChoirRef → HwErr → Instr) (opc : Nat) (sp : Nat → Spec)
    (f : (n : Nat) → Ctx → BitVec n → BitVec n → BitVec n → BitVec n) : Prop :=
  ∀ s c e d x, Issues s c e opc sp d x → ∃ d', acts (cmd c e) s c d' ∧
    Writes d x (intParts x) (fun v =>
      ((f (32 * intParts x) x (BitVec.ofNat _ (srcA x (intParts x) v)) (BitVec.ofNat _ (srcB x (intParts x) v))
        (BitVec.ofNat _ (srcC x (intParts x) v))).toNat, false)) 0 d'

/-- The high half of a product. -/
def highHalf (n : Nat) (signed : Bool) (a b : BitVec n) : BitVec n :=
  if signed then ((a.signExtend (2 * n) * b.signExtend (2 * n)) >>> n).setWidth n
  else ((a.setWidth (2 * n) * b.setWidth (2 * n)) >>> n).setWidth n

/-- `a` comes before `b` or equals it. -/
def before (n : Nat) (signed : Bool) (a b : BitVec n) : Bool := if signed then a.sle b else a.ule b

/-! ### Floating-point instructions (Tables 3.4 and 3.5) -/

/-- The rounding direction an RND names (R230): 0 nearest even, 1 toward zero, 2 toward +∞, 3 toward −∞. -/
def fpRm (x : Ctx) (rnd : Nat) : Nat := if rnd = 0 then x.h.fpctl % 4 else rnd - 1

/-- SR_FPCTL.FTZ16. -/
def fpFtz (x : Ctx) : Bool := bit x.h.fpctl 2

/-- Registers, format and operands of a floating-point instruction: FP64 on pairs, or the format TYPE names in the low bits of a register.
An immediate of an FP64 instruction is an FP32 value widened exactly (R115). -/
def fpParts (dbl : Bool) : Nat := if dbl then 2 else 1
def fpFmt (dbl : Bool) (x : Ctx) : Nat := if dbl then 4 else 5 + bits (iMod x.w) 4 2
def fpA (dbl : Bool) (x : Ctx) (v : Nat) : Nat := srcA x (fpParts dbl) v % 2 ^ fmtWidth (fpFmt dbl x)
def fpB (dbl : Bool) (x : Ctx) (v : Nat) : Nat :=
  (if dbl && iBi x.w then widen32 (iImm x.w) else srcB x (fpParts dbl) v) % 2 ^ fmtWidth (fpFmt dbl x)
def fpC (dbl : Bool) (x : Ctx) (v : Nat) : Nat := srcC x (fpParts dbl) v % 2 ^ fmtWidth (fpFmt dbl x)

/-- What an arithmetic instruction uses of its word. -/
def fpSpec (dbl : Bool) (k : FpShape) (w : Nat) : Spec := if dbl then specD k w else specF k w

/-- The error of a failed residue check (R261): ERR_ARITH_CHECK at NOTE severity of the task's owner. -/
def arithErr (d : Dev) (n : Nat) : Err :=
  let t := (d.core n).task
  { cause := 0x2A, eng := n, owner := (t.map (·.owner)).getD 0x1FF, queue := (t.map (·.queue)).getD 0,
    graph := (t.map (·.graph)).getD 0, node := (t.map (·.node)).getD 0 }

/-- The voices whose product fails its residue check (`mul`; error `arith`, which names them). -/
def unsound (mul : Bool) (e : HwErr) (x : Ctx) : List Nat :=
  match e with
  | .arith m => if mul then (acting x).filter fun v => bit m v else []
  | _ => []

/-- The device once the failed residue check of each of these voices is counted and logged (R261). -/
def checked (vs : List Nat) (n : Nat) (d : Dev) : Dev :=
  vs.foldl (fun d _ => (d.oinc O.ARITH_CHECK_EVENTS).raise (arithErr d n)) d

/-- A floating-point instruction writes the result of `f` in every executing voice and merges its flags into SR_FLAGS (R240). When the
residue check of a product fails in a voice, its result carries poison and the event is counted and logged (R261). -/
def FpResult (cmd : ChoirRef → HwErr → Instr) (opc : Nat) (dbl mul : Bool) (k : FpShape)
    (f : Nat → Nat → Bool → Nat → Nat → Nat → FRes) : Prop :=
  ∀ s c e d x, Issues s c e opc (fpSpec dbl k) d x →
    let r := fun v => f (fpFmt dbl x) (fpRm x (bits (iMod x.w) 0 3)) (fpFtz x && !dbl) (fpA dbl x v)
      (if k = .one then 0 else fpB dbl x v) (if k = .three then fpC dbl x v else 0)
    ∃ d1, Writes d x (fpParts dbl) (fun v => ((r v).bits, (unsound mul e x).contains v)) (orVoices x fun v => (r v).flags) d1 ∧
      acts (cmd c e) s c (checked (unsound mul e x) x.n d1)

/-! ### Predicates (R124) -/

/-- An instruction writes predicate DST of the executing voices and merges flags. -/
def PredResult (cmd : ChoirRef → HwErr → Instr) (opc : Nat) (sp : Nat → Spec) (val : Ctx → Nat → Bool × Nat) : Prop :=
  ∀ s c e d x, Issues s c e opc sp d x → ∃ d', acts (cmd c e) s c d' ∧
    WritesPred d x (fun v => (val x v).1) ((voicesOf x.ex).foldl (fun a v => a ||| (val x v).2) 0) d'

/-- Combine with P[SC], as MOD[7:6] says. -/
def withC (x : Ctx) (v : Nat) (r : Bool) : Bool :=
  let p := bit (x.h.pred (iSc x.w)) v
  if bits (iMod x.w) 6 2 = 1 then r && p else if bits (iMod x.w) 6 2 = 2 then r || p else r

/-- A comparison of words: 0 EQ, 1 NE, 2 LT, 3 LE, 4 GT, 5 GE. -/
def wordCmp (n c : Nat) (signed : Bool) (a b : BitVec n) : Bool :=
  match c with
  | 0 => a == b
  | 1 => a != b
  | 2 => !before n signed b a
  | 3 => before n signed a b
  | 4 => !before n signed a b
  | _ => before n signed b a

/-- Registers of an ISETP operand under its W64. -/
def setpParts (x : Ctx) : Nat := if bit (iMod x.w) 5 then 2 else 1

/-- The voices that execute and for which predicate SA is true. -/
def voting (x : Ctx) : List Nat := (voicesOf x.ex).filter fun v => bit (x.h.pred (iSa x.w)) v

/-- Whether any of `n` registers is poisoned. -/
def dirtyOf (g : Nat → Bool) (i n : Nat) : Bool := (List.range n).any fun k => g (i + k)

/-- Operand A or B with its poison, of `n` registers. -/
def srcAP (x : Ctx) (n v : Nat) : Nat × Bool :=
  (srcA x n v, dirtyOf (fun r => if iAu x.w then (x.h.uget r).2 else (x.h.vget r v).2) (iSa x.w) n)
def srcBP (x : Ctx) (n v : Nat) : Nat × Bool :=
  (srcB x n v, !iBi x.w && dirtyOf (fun r => if iBu x.w then (x.h.uget r).2 else (x.h.vget r v).2) (iSb x.w) n)

/-- The voice whose operand A voice `v` of a VPERM takes (R149): the voice B names, the voice B places further round the choir, the voice
whose number differs from `v` in the bits of B, or the voice B places away, `v` itself when there is none. -/
def permFrom (mode v b : Nat) : Nat :=
  match mode with
  | 0 => b % 32
  | 1 => (v + b) % 32
  | 2 => v ^^^ (b % 32)
  | _ => if 0 ≤ (v : Int) + (BitVec.ofNat 32 b).toInt ∧ (v : Int) + (BitVec.ofNat 32 b).toInt < 32
      then ((v : Int) + (BitVec.ofNat 32 b).toInt).toNat else v

/-! ### Values of floating-point patterns -/

/-- The real number a pattern of a format encodes, if it is finite (Table 5.1). -/
noncomputable def fpReal (f x : Nat) : Option ℝ :=
  match fpDecode f x with
  | .fin n m e => some ((if n then -1 else 1) * (m : ℝ) * (2 : ℝ) ^ e)
  | _ => none

/-- `r` is the finite value of format `f` that the exact result `q` rounds to in direction `rm` (R229, R230): the nearest, a tie going to
the even fraction; or the nearest on the side the direction names. -/
def RoundsTo (f rm : Nat) (q : ℝ) (r : Nat) : Prop :=
  ∃ z, fpReal f r = some z ∧
    match rm with
    | 0 => ∀ y w, y < 2 ^ fmtWidth f → fpReal f y = some w →
        |z - q| ≤ |w - q| ∧ (|w - q| = |z - q| → w = z ∨ r % 2 = 0)
    | 1 => |z| ≤ |q| ∧ 0 ≤ z * q ∧ ∀ y w, y < 2 ^ fmtWidth f → fpReal f y = some w → |w| ≤ |q| → |w| ≤ |z|
    | 2 => q ≤ z ∧ ∀ y w, y < 2 ^ fmtWidth f → fpReal f y = some w → q ≤ w → z ≤ w
    | _ => z ≤ q ∧ ∀ y w, y < 2 ^ fmtWidth f → fpReal f y = some w → w ≤ q → w ≤ z

/-- The largest finite value of a format. -/
noncomputable def fpLargest (f : Nat) : ℝ := (fpReal f (fmtMax f)).getD 0

/-- The result of an operation whose exact result is `q`, a nonzero number of the format's range: correctly rounded, with NX exactly when
it differs from `q`, and UF only with NX (R229, R235, Table 5.4). -/
def Rounded (f rm : Nat) (q : ℝ) (r : FRes) : Prop :=
  RoundsTo f rm q r.bits ∧ (bit r.flags 0 = true ↔ fpReal f r.bits ≠ some q) ∧ (bit r.flags 1 = true → bit r.flags 0 = true) ∧
    r.flags < 4

/-- The extended real a pattern encodes; none for a NaN. -/
noncomputable def fpExt (f x : Nat) : Option EReal :=
  match fpDecode f x with
  | .fin n m e => some (((if n then -1 else 1) * (m : ℝ) * (2 : ℝ) ^ e : ℝ) : EReal)
  | .inf n => some (if n then ⊥ else ⊤)
  | .nan _ => none

/-- The pattern is a NaN; a signaling NaN. -/
def nanBits (f x : Nat) : Bool := (fpDecode f x).isNan
def sigBits (f x : Nat) : Bool := (fpDecode f x).isSig

/-- The sign bit of a pattern. -/
def negBits (f x : Nat) : Bool := bit x (fmtWidth f - 1)

/-- A comparison of two values that are no NaN: 0 EQ, 1 NE, 2 LT, 3 LE, 4 GT, 5 GE, 6 UNORD, 7 ORD. -/
def valueCmp (c : Nat) (a b : EReal) : Prop :=
  match c with
  | 0 => a = b
  | 1 => a ≠ b
  | 2 => a < b
  | 3 => a ≤ b
  | 4 => b < a
  | 5 => b ≤ a
  | 6 => False
  | _ => True

/-- The integer a real rounds to in a direction. -/
def IntRounds (rm : Nat) (q : ℝ) (z : Int) : Prop :=
  match rm with
  | 0 => |(z : ℝ) - q| ≤ 1 / 2 ∧ (|(z : ℝ) - q| = 1 / 2 → z % 2 = 0)
  | 1 => if 0 ≤ q then z = ⌊q⌋ else z = ⌈q⌉
  | 2 => z = ⌈q⌉
  | _ => z = ⌊q⌋

/-- An integer taken into an integer format: itself, or the nearer end of the range with NV. -/
def clampInto (f : Nat) (z : Int) : Int × Bool :=
  if z < (intRange f).1 then ((intRange f).1, true) else if (intRange f).2 < z then ((intRange f).2, true) else (z, false)

/-! ### Control flow, special registers and exceptions -/

/-- PC + 16 · sext(imm), modulo 2^64 (R152). -/
def relTo (pc imm : Nat) : Nat := (BitVec.ofNat 64 pc + (BitVec.ofNat 32 imm).signExtend 64 * 16).toNat

/-- The bits of `m` that are not in `ex`. -/
def without (m ex : Nat) : Nat := m &&& (ex ^^^ (2 ^ 32 - 1))

/-- An instruction changes its choir as `f` says where `ok` holds, and nothing else. -/
def ChoirResult (cmd : ChoirRef → HwErr → Instr) (opc : Nat) (sp : Nat → Spec) (ok : Ctx → Prop) (f : Ctx → Choir → Choir) : Prop :=
  ∀ s c e d x, Issues s c e opc sp d x → ok x →
    acts (cmd c e) s c (d.onChoir x.n x.slot (fun _ => f x x.h))

/-- Core `n` stops issue and keeps the exception `y`, its task's first; nothing else changes but that an open core clock notes it (R101,
R142 to R147). -/
def CoreFails (d : Dev) (n : Nat) (y : Exc) (d' : Dev) : Prop :=
  d'.core n = { d.core n with exc := some y, state := 2 } ∧ (∀ m, m ≠ n → d'.core m = d.core m) ∧ { d' with nave := d.nave } = d ∧
    (d.clockOf n = none → d'.nave.clocks = d.nave.clocks)

/-- An instruction raises cause `cause` for the voices `mask` says, with an information code, on a core without an exception. What the
exceptions of one core clock come to is stated apart. -/
def RaisesExc (d : Dev) (x : Ctx) (cause mask trap addr : Nat) (d' : Dev) : Prop :=
  (d.core x.n).exc = none → (d.core x.n).task.isSome = true →
    CoreFails d x.n ⟨cause, 0, x.h.pc, x.slot, mask, trap, addr, []⟩ d'

/-- The value of special register `i` for voice `v` of task `t` (Table 3.7); SR_TCLOCK, number 0x16, apart. -/
def srValueOf (d : Dev) (x : Ctx) (t : TaskRun) (i v : Nat) : Nat :=
  match i with
  | 0x00 => v
  | 0x01 => x.h.mask
  | 0x02 => x.slot
  | 0x03 => x.slot % 4
  | 0x04 => t.choirs
  | 0x05 => t.regs
  | 0x06 => x.n
  | 0x07 => x.n / 4
  | 0x08 => x.n / 16
  | 0x09 => x.n / 64
  | 0x0A => x.n / 32
  | 0x0B => x.n / 128
  | 0x0C => t.gang
  | 0x0D => x.n % t.gang
  | 0x0E => bits t.body 112 16
  | 0x0F => bits t.body 128 16
  | 0x10 => bits t.body 144 16
  | 0x11 => if t.owner = 256 then 0 else t.owner
  | 0x12 => t.graph
  | 0x13 => t.node
  | 0x14 => d.oget O.CHIP_ID % 4096
  | 0x15 => d.time
  | 0x17 => x.h.flags
  | 0x18 => x.h.fpctl
  | _ => if t.tandem = 0 then 0 else 1

/-- Registers of special register `i`. -/
def srWidth (i : Nat) : Nat := if i = 0x15 ∨ i = 0x16 then 2 else 1

/-! ### Memory instructions (Table 3.6, R127, R128) -/

/-- Bytes, registers, order, scope of an access. -/
def accBytes (x : Ctx) : Nat := 2 ^ bits (iMod x.w) 0 3
def accParts (x : Ctx) : Nat := if accBytes x ≤ 4 then 1 else accBytes x / 4
def accOrder (x : Ctx) : Nat := bits (iMod x.w) 4 3
def accScope (x : Ctx) : Nat := bits (iMod x.w) 7 3

/-- LM or cloister address, and global address, of voice `v`. -/
def lmAddrOf (x : Ctx) (v : Nat) : Nat := (srcA x 1 v + iImm x.w) % 2 ^ 32
def globAddrOf (x : Ctx) (v : Nat) : Nat := (BitVec.ofNat 64 (srcA x 2 v) + (BitVec.ofNat 32 (iImm x.w)).signExtend 64).toNat

/-- The core and LM offset of voice `v`'s access: own LM, or by cloister address (R63). -/
def lmPlace (cl : Bool) (x : Ctx) (v : Nat) : Nat × Nat :=
  if cl then (x.n / 4 * 4 + lmAddrOf x v / 2 ^ 19, lmAddrOf x v % 2 ^ 19) else (x.n, lmAddrOf x v)

/-- Every access is aligned, within the space, and to a core of the gang (R47, R65, R127); the task runs on one core, not a tandem pair. -/
def lmFair (cl : Bool) (d : Dev) (x : Ctx) (vs : List Nat) : Prop :=
  ((d.core x.n).task.map (·.tandem)) = some 0 ∧
  ∀ v ∈ vs, lmAddrOf x v % accBytes x = 0 ∧ lmAddrOf x v < (if cl then 0x200000 else 0x80000) ∧
    ((lmPlace cl x v).1 = x.n ∨ (lmPlace cl x v).1 ∈ d.gangOf x.n)

/-- The device once the passes of an LM access beyond the first are counted and the release its order asks for is done (R49, R279). -/
def lmBegun (cl : Bool) (d : Dev) (x : Ctx) (vs : List Nat) (load : Bool) : Dev :=
  (d.countPasses x.n (vs.map fun v => ((lmPlace cl x v).1, (lmPlace cl x v).2, accBytes x))).orderBefore x.n x.slot (accOrder x) (accScope x) load

/-- The byte at address `a` of the LM of core `m`. -/
def lmByte (d : Dev) (m a : Nat) : Byte := dget 0 (d.core m).lm a

/-- A choir of core `m` waited by CWAIT on a doubleword that is poisoned now, whose exception that is (R659). -/
def poisonedWait (d d' : Dev) (m : Nat) : Prop :=
  ∃ slot core a op v w, ((d.core m).choir slot).wait = .cwait core a op v w ∧ ((d'.core core).lmRead a 8).2 = true

/-- From `d` to `d'` no more than LM, its poison, the last writers and the choirs of cores change, but that a CWAIT which finds poison is
an exception of its core. -/
def onlyLm (d d' : Dev) : Prop :=
  { d' with nave := d.nave } = d ∧ { d'.nave with cores := d.nave.cores } = d.nave ∧
  ∀ m, { d'.core m with lm := [], lmp := [], writers := [], choirs := [], exc := none, state := 0 } =
      { d.core m with lm := [], lmp := [], writers := [], choirs := [], exc := none, state := 0 } ∧
    (poisonedWait d d' m ∨ ((d'.core m).exc = (d.core m).exc ∧ (d'.core m).state = (d.core m).state))

/-- A choir of the cloister of core `n` that waited by CWAIT on a doubleword without poison goes on exactly when the doubleword satisfies
its comparison (R80, R89). -/
def cwaitsLook (d d' : Dev) (n : Nat) : Prop :=
  ∀ m slot core a op v w, m / 4 = n / 4 → ((d.core m).choir slot).wait = .cwait core a op v w →
    ((d'.core core).lmRead a 8).2 = false →
    (d'.core m).choir slot = if cwaitHolds op ((d'.core core).lmRead a 8).1 v then { (d.core m).choir slot with wait := .none }
      else (d.core m).choir slot

/-- A loaded value under SEXT (R128). -/
def extended (x : Ctx) (v : Nat) : Nat :=
  if bit (iMod x.w) 3 then ((BitVec.ofNat (8 * accBytes x) v).signExtend 32).toNat else v

/-- What an atomic operation leaves in memory (R130): `op` is AOP, `n` the bytes. -/
def atomResult (op n old b c : Nat) : Nat :=
  let o := BitVec.ofNat (8 * n) old
  let x := BitVec.ofNat (8 * n) b
  match op with
  | 0 => (o + x).toNat
  | 1 => if x.slt o then b else old
  | 2 => if o.slt x then b else old
  | 3 => if x.ult o then b else old
  | 4 => if o.ult x then b else old
  | 5 => (o &&& x).toNat
  | 6 => (o ||| x).toNat
  | 7 => (o ^^^ x).toNat
  | 8 => b
  | 9 => if o = x then c else old
  | _ => (fpAdd (if n = 4 then 5 else 4) 0 false old b).bits

/-- Operand B of an atomic: the immediate of an FP64 FADD is an FP32 value widened exactly (R115). -/
def atomB (x : Ctx) (v : Nat) : Nat :=
  if bits (iMod x.w) 12 4 = 10 ∧ accBytes x = 8 ∧ iBi x.w = true then widen32 (iImm x.w) else srcB x (accParts x) v

/-- The voices' atomics on LM one at a time in ascending voice (R51): the LM contents of each core before, the LM contents after, and
the old value each voice finds. -/
def atomSteps (cl : Bool) (x : Ctx) : List Nat → (Nat → List Host.Cell) → (Nat → List Host.Cell) × List (Nat × Nat)
  | [], lm => (lm, [])
  | v :: vs, lm =>
    let p := lmPlace cl x v
    let old := readLE (lm p.1) p.2 (accBytes x)
    let new := atomResult (bits (iMod x.w) 12 4) (accBytes x) old (atomB x v) (srcC x (accParts x) v)
    let r := atomSteps cl x vs fun m =>
      if m = p.1 then putMasked (lm m) p.2 (accBytes x) (2 ^ accBytes x - 1) new else lm m
    (r.1, (v, old) :: r.2)

/-- An LD.L or LD.C writes what it reads. -/
def LmLoadResult (cmd : ChoirRef → HwErr → Instr) (opc : Nat) (cl : Bool) : Prop :=
  ∀ s c e d x, Issues s c e opc (specLoad false) d x → lmFair cl d x (acting x) →
    ∃ d1, Writes (lmBegun cl d x (acting x) true) x (accParts x) (fun v =>
        let r := (d.core (lmPlace cl x v).1).lmRead (lmPlace cl x v).2 (accBytes x)
        (extended x r.1 % 2 ^ (32 * accParts x), r.2)) 0 d1 ∧
      acts (cmd c e) s c (d1.orderAfter x.n (accOrder x) (accScope x) false)

/-- An ST.L or ST.C writes the bytes of its voices, the highest voice winning each byte, and no other byte of any LM; outside an open core
clock the CWAITs of the cloister then look at their doublewords. -/
def LmStoreResult (cmd : ChoirRef → HwErr → Instr) (opc : Nat) (cl : Bool) : Prop :=
  ∀ s c e d x, Issues s c e opc (specStore false) d x → lmFair cl d x (voicesOf x.ex) →
    let b := lmBegun cl d x (voicesOf x.ex) false
    ((b.core x.n).task.map (·.tandem)) = some 0 →
    ∃ d', acts (cmd c e) s c d' ∧
      onlyLm b d' ∧
      (∀ m a, lmByte d' m a =
        match ((voicesOf x.ex).filter fun v => (lmPlace cl x v).1 = m && decide ((lmPlace cl x v).2 ≤ a) &&
            decide (a < (lmPlace cl x v).2 + accBytes x)).getLast? with
        | some v => BitVec.ofNat 8 (srcB x (accParts x) v / 256 ^ (a - (lmPlace cl x v).2))
        | none => lmByte b m a) ∧
      (∀ m, memWf (b.core m).lm = true → memWf (d'.core m).lm = true) ∧
      (((b.core x.n).choir x.slot).wait = .none →
        (d'.core x.n).choir x.slot = { (b.core x.n).choir x.slot with pc := ((b.core x.n).choir x.slot).pc + 16 } ∧
        (b.clockOf x.n = none → cwaitsLook b d' x.n))

/-- An ATOM.L or ATOM.C without NORET, on LM without poison: LM holds what the operations leave, each voice the old value it found. -/
def LmAtomResult (cmd : ChoirRef → HwErr → Instr) (opc : Nat) (cl : Bool) : Prop :=
  ∀ s c e d x, Issues s c e opc (specAtom false) d x → lmFair cl d x (acting x) → bit (iMod x.w) 10 = false →
    (∀ m, (d.core m).lmp = [] ∧ memWf (d.core m).lm = true) → accOrder x = 0 →
    ∃ d1 d', onlyLm (lmBegun cl d x (acting x) false) d1 ∧ acts (cmd c e) s c d' ∧
      (∀ m, (d1.core m).lm = (atomSteps cl x (acting x) fun m => (d.core m).lm).1 m) ∧
      Writes d1 x (accParts x)
        (fun v => ((((atomSteps cl x (acting x) fun m => (d.core m).lm).2.find? fun r => r.1 = v).elim 0 (·.2)), false)) 0 d'

/-! ### Global memory -/

/-- The addresses of the voices, aligned; they translate for `access` to device memory, leaving device `d1` and translations `rs`; the task
runs on one core, not a tandem pair (R47, R54). -/
def globFair (d : Dev) (x : Ctx) (vs : List Nat) (access : Nat) (t : TaskRun) (d1 : Dev) (rs : List (Nat × Nat × TRes)) : Prop :=
  (d.core x.n).task = some t ∧ t.tandem = 0 ∧ (∀ v ∈ vs, globAddrOf x v % accBytes x = 0) ∧
  d.transVoices x.n t.owner access (vs.map fun v => (v, globAddrOf x v)) = (d1, rs) ∧
  (∀ r ∈ rs, ∃ i w a, r.2.2 = .dev i w a)

/-- The DPA voice `v` accesses. -/
def dpaOf (rs : List (Nat × Nat × TRes)) (v : Nat) : Nat := ((rs.find? fun r => r.1 = v).elim 0 fun r => r.2.2.phys.2)

/-- What a load of `n` bytes at DPA `p` finds in the choir's own store-buffer entries, else in the core's L1 line (R60, R313). -/
def nearBytes (c : Core) (slot p n : Nat) : Option (Nat × Bool) :=
  match c.sbLook slot false p n with
  | .whole b po => some (b, po)
  | .part => none
  | .none =>
    match mget c.l1 (p / 128) with
    | some l =>
      let need := (2 ^ n - 1) * 2 ^ (p % 128)
      if l.valid &&& need = need then some (bits l.data (8 * (p % 128)) (8 * n), decide (l.poison &&& sectorsOf need ≠ 0)) else none
    | none => none

/-- The L2 line of a DPA is present, of the same owner and readable: no miss is outstanding on it and no request waits, its key slot is
sound and the crossing has not failed. -/
def l2Present (d : Dev) (owner key a : Nat) (l : L2Line) : Prop :=
  mget d.l2.lines (a / 128) = some l ∧ l.owner = owner ∧ d.l2.mshrs.any (fun m => m.line = a / 128) = false ∧
  d.l2.held = [] ∧ d.logs.badSlots.contains key = false ∧ d.l2.crossFailed = false

/-! ### Arrival counters and barriers -/

/-- The counter an instruction names. -/
def actOf (x : Ctx) : Nat := iImm2 x.w % 64

/-- The four fields of a counter (Table 2.5). -/
def actFields (a : Act) : Nat × Nat × Int × Nat := (a.expect, a.pending, a.bytes, a.phase)

/-- A counter after an arrival with `b` bytes expected (R69, R71). -/
def arrived (a : Act) (b : Nat) : Nat × Nat × Int × Nat :=
  if a.pending = 1 ∧ a.bytes + b = 0 ∧ a.expect ≠ 0 then (a.expect, a.expect, 0, 1 - a.phase)
  else (a.expect, a.pending - 1, a.bytes + b, a.phase)

/-- An arrival does not overflow the counter (R75). -/
def mayArrive (a : Act) (b : Nat) : Prop := a.pending ≠ 0 ∧ -2 ^ 30 ≤ a.bytes + b ∧ a.bytes + b < 2 ^ 30

/-- From `d` to `d'` counter `i` of core `m` becomes `f`, its waiters whose phase has passed go on, the choir of `x` goes to its next
instruction, and no other counter and nothing else of any core but waits and what a wait writes changes. -/
def actBecomes (d : Dev) (x : Ctx) (m i : Nat) (f : Nat × Nat × Int × Nat) (d' : Dev) : Prop :=
  let h := (d.core x.n).choir x.slot
  actFields ((d'.core m).act i) = f ∧ (∀ k j, k ≠ m ∨ j ≠ i → (d'.core k).act j = (d.core k).act j) ∧
  (h.wait = .none → (d'.core x.n).choir x.slot = { h with pc := h.pc + 16 }) ∧
  (∀ slot p, m ≠ x.n ∨ slot ≠ x.slot → ((d.core m).choir slot).wait = .act i p →
    (d'.core m).choir slot = if f.2.2.2 ≠ p then { (d.core m).choir slot with wait := .none } else (d.core m).choir slot) ∧
  { d' with nave := d.nave } = d ∧ { d'.nave with cores := d.nave.cores } = d.nave ∧
  ∀ k, { d'.core k with acts := [], choirs := [], exc := none, state := 0 } =
      { d.core k with acts := [], choirs := [], exc := none, state := 0 } ∧
    (poisonedWait d d' k ∨ ((d'.core k).exc = (d.core k).exc ∧ (d'.core k).state = (d.core k).state))

/-- The device once a counter update of the instruction is kept for the end of the open core clock `k` (R73), the choir at its next
instruction. -/
def updateKept (d : Dev) (x : Ctx) (k : Clock) (m rank : Nat) (op : ActOp) : Dev :=
  (d.setClock x.n (some { k with upds := k.upds ++ [⟨m, actOf x, rank, op, x.n, ⟨0x22, 0, x.h.pc, x.slot, x.ex, 0, 0, []⟩⟩] })).onChoir
    x.n x.slot fun h => { h with pc := h.pc + 16 }

/-- The device once the choir's stores have drained, as an arrival's release at core scope asks (R289). -/
def storesOut (d : Dev) (x : Ctx) : Dev := d.release x.n x.slot 2

/-- The barrier, and the count, an instruction names. -/
def barOf (x : Ctx) : Nat := iImm x.w % 16
def barCount (x : Ctx) : Nat := bits (iImm x.w) 8 7

/-- The arrivals and the count in force of a barrier of a core. -/
def barState (c : Core) (i : Nat) : Nat × Nat := let b := dget Bar.zero c.bars i; (b.n, b.k)

/-- A BAR.SYNC (`block`) or BAR.ARRIVE (R77, R78), after the release of its choir's stores (R289). -/
def BarResult (cmd : ChoirRef → HwErr → Instr) (opc : Nat) (block : Bool) : Prop :=
  ∀ s c e d x t, Issues s c e opc (fun _ => { imm := 0x7F0F }) d x → (d.core x.n).task = some t →
    let d0 := storesOut d x
    let b := barState (d0.core x.n) (barOf x)
    let h := (d0.core x.n).choir x.slot
    let k := barCount x
    let bad := k = 0 ∨ t.choirs < k ∨ ((barState (d.core x.n) (barOf x)).2 ≠ 0 ∧ (barState (d.core x.n) (barOf x)).2 ≠ k)
    (bad → ∃ d', acts (cmd c e) s c d' ∧ RaisesExc d x 0x23 x.ex 0 0 d') ∧
    (¬ bad → h.wait = .none → ∃ d', acts (cmd c e) s c d' ∧
      barState (d'.core x.n) (barOf x) = (if k ≤ b.1 + 1 then (0, 0) else (b.1 + 1, k)) ∧
      (∀ j, j ≠ barOf x → barState (d'.core x.n) j = barState (d0.core x.n) j) ∧
      (d'.core x.n).choir x.slot = { h with pc := h.pc + 16, wait := if block ∧ b.1 + 1 < k then .bar (barOf x) else .none } ∧
      (∀ slot, slot ≠ x.slot → (d'.core x.n).choir slot =
        if k ≤ b.1 + 1 ∧ ((d0.core x.n).choir slot).wait = .bar (barOf x) then { (d0.core x.n).choir slot with wait := .none }
        else (d0.core x.n).choir slot) ∧
      (∀ m, m ≠ x.n → d'.core m = d0.core m) ∧ { d' with nave := d0.nave } = d0 ∧
      { d'.core x.n with bars := [], choirs := [] } = { d0.core x.n with bars := [], choirs := [] })

/-! ### The matrix unit -/

/-- The matrix instructions queued, with the places of the queue that hold no descriptor yet. -/
def firstUndecoded (c : Core) : Nat := (c.mmq.takeWhile fun q => q.desc.isSome).length

/-- Element k of row `r` of an FP64 operand in LM (R167, R168): slice `k`, or `k + r` when the feed is skewed, row `r`. -/
def matElem (c : Core) (base step : Nat) (skew : Bool) (r k : Nat) : Nat :=
  (c.lmRead (base + (if skew then k + r else k) * step + 8 * r) 8).1

/-- The scalar loop of R255 for one position, from `c0`: the value and the union of the flags. -/
def scalarLoop (a b : Nat → Nat) (K c0 : Nat) : Nat × Nat :=
  (List.range K).foldl (fun acc k => let r := fpFma 4 0 false (a k) (b k) acc.1; (r.bits, acc.2 ||| r.flags)) (c0, 0)

end Sys2Proof.Claims
end

