-- ==== Sys2Proof/Certificates/Slice0/CoreClaims.lean ====
section
/-! DEFINITION. Certificates/Slice0/CoreClaims.lean: what the statements about tasks on cores, the Lark, Bilxel programs and Starling say. -/

namespace Sys2Proof.Claims

open Sys2Proof.Machine

/-! ### Tasks on cores -/

/-- A value of the uniform registers at kernel entry (Table 3.8). -/
def entryValue (t : TaskRun) (rank slot i : Nat) : Nat :=
  if i < 16 then (if bit (bits t.body 280 16 ||| bits t.body 296 16) i then bits t.body (312 + 12 * i) 12 else 2 ^ 32 - 1)
  else match i with
    | 16 => bits t.body 112 16
    | 17 => bits t.body 128 16
    | 18 => bits t.body 144 16
    | 19 => rank
    | 20 => slot
    | 21 => bits t.body 211 6 + 1
    | 22 => 8 * (bits t.body 217 5 + 1)
    | _ => 0

/-- A choir as a task's start leaves it (R30, R141): every voice active at ENTRY, registers 0 but the uniform ones of Table 3.8. -/
def startsAt (t : TaskRun) (rank slot : Nat) (h : Choir) : Prop :=
  h.pc = 16 * bits t.body 64 48 ∧ h.mask = 2 ^ 32 - 1 ∧ h.rpc = none ∧ h.dstack = [] ∧ h.rstack = [] ∧ h.flags = 0 ∧ h.fpctl = 0 ∧
    h.wait = .none ∧ (∀ r v, h.vget r v = (0, false)) ∧ (∀ i, h.uget i = (entryValue t rank slot i % 2 ^ 32, false)) ∧
    ∀ i, i ≠ 0 → h.pred i = 0

/-- A core without work of its choirs: no choir, no cached line or outstanding miss, no buffered store, no copy or matrix instruction, no
cause. -/
def spent (c : Core) : Prop :=
  c.choirs = [] ∧ c.l1 = [] ∧ c.mshrs = [] ∧ c.sb = [] ∧ c.bars = [] ∧ c.gbar = [] ∧ c.acopies = [] ∧ c.mmq = [] ∧ c.tiles = [] ∧
    c.exc = none

/-- A core without work of its own: its choirs and its streams are gone. -/
def bare (c : Core) : Prop := spent c ∧ c.streams = [] ∧ c.reads = []

/-- The node of a task has received a report of kind `kind` and cause `cause` from core `n` (R590). -/
def reported (d : Dev) (t : TaskRun) (n kind cause : Nat) : Prop :=
  ∃ x, d.node t.order = some x ∧ ∃ r ∈ x.reports, r.kind = kind ∧ r.core = n ∧ r.cause = cause

/-! ### Stream contexts -/

/-- The task on core `n`, its stream context `i`, and nothing that stops it. -/
structure Streams (s : State) (n i : Nat) (t : TaskRun) (st : Stream) : Prop where
  core : n < 256
  ctx : i < 16
  task : (s.dev.core n).task = some t
  started : (s.dev.core n).started = true
  sound : (s.dev.core n).exc = none
  stream : mget (s.dev.core n).streams i = some st

/-- Blocks of a context of core `n` below this number may issue (R377): R for an OUT stream, R plus the blocks ahead for an IN stream. -/
def issueBelow (d : Dev) (n x : Nat) : Nat :=
  let r := ((d.core n).lmRead (bits x 128 32) 8).1
  if bit x 81 then r else r + bits x 84 4 + 1

/-- Block `b` may issue (R377, R399, R401): it has begun, or it is below the limit of its context, or, for a source of Starling, below
that of every receiver. -/
def blockMay (d : Dev) (n i : Nat) (t : TaskRun) (st : Stream) (b : Block) : Prop :=
  b.begun = true ∨ b.off ≠ 0 ∨
    if bit st.record 81 = true ∨ bits st.record 448 64 = 0 then b.num < issueBelow d n st.record
    else ∀ j < 64, bit (bits st.record 448 64) j = true → ∃ r, mget (d.core (t.first + j)).streams i = some r ∧
      b.num < ((d.core (t.first + j)).lmRead (bits r.record 128 32) 8).1 + bits r.record 84 4 + 1

/-- The block that context `i` of core `n` would issue a request of. -/
def issuable (d : Dev) (n i : Nat) (t : TaskRun) (st : Stream) (b : Block) : Prop :=
  mget (d.core n).streams i = some st ∧ st.queue.find? (fun b => !(b.begun && b.todo.isEmpty)) = some b ∧ blockMay d n i t st b

/-- The Lark of core `n` is at work for a task alone on its core, and has nothing to do but issue requests of blocks: every queue is full
or its stream has no more blocks, every program is read, and no copy reads global memory. -/
structure LarkIdles (d : Dev) (n : Nat) (t : TaskRun) : Prop where
  core : n < 256
  task : (d.core n).task = some t
  lone : t.tandem = 0
  started : (d.core n).started = true
  sound : (d.core n).exc = none
  running : d.quiescing (4 + n / 32) = false
  copies : ∀ a ∈ (d.core n).acopies, a.dir ≠ 0
  keys : keysRise (d.core n).streams = true
  full : ∀ y ∈ (d.core n).streams, y.1 < 16 ∧ (y.2.ended = true ∨ 16 ≤ y.2.queue.length) ∧ (bits y.2.record 82 2 = 1 → y.2.ready = true)
  room : d.larkFlight n < 256
  turn : (d.core n).served ≤ 16

/-- The device once the Lark has turned to context `i`. -/
def served (d : Dev) (n i : Nat) : Dev := d.onCore n fun c => { c with served := i, quietFor := 0 }

/-- The context of core `n` once the first request of its block `b` has gone, with the pages it uses and the data that came at once. -/
def requested (st : Stream) (b : Block) (ps : List LarkPage) (ls : List VLine) : Stream :=
  let f := fun (y : Block) => { y with begun := true, pages := ps, todo := y.todo.drop 1, lines := y.lines ++ ls }
  { st with queue := mapIf (fun y => y.num = b.num && y.off = b.off) f st.queue }

/-- Command `cmd` carries out the Bilxel instruction of code `op`: the context becomes what `f` makes of it. -/
def BilxelResult (cmd : Nat → Nat → Instr) (op : Nat) (f : TaskRun → Stream → Nat → Stream) : Prop :=
  ∀ s n i t st w, Streams s n i t st → st.prog[st.bpc]? = some w → bits w 26 6 = op → bits st.record 82 2 = 1 → st.ended = false →
    st.ready = true → exec (cmd n i) s = .next { s with dev := s.dev.setStream n i (f t st w) }

/-- Register A`r` of a context. -/
def bxA (st : Stream) (r : Nat) : Nat := (st.a[r]?).getD 0

/-- A context after A`r` is written with `v`. -/
def bxPut (st : Stream) (r v : Nat) : Stream := { st with a := setAt st.a r (v % 2 ^ 64), bpc := st.bpc + 1 }

/-- Byte `k` of a list of 32-byte pieces. -/
def chunkByte (cs : List Chunk) (k : Nat) : Byte := BitVec.ofNat 8 (((cs[k / 32]?).getD (0, false)).1 / 256 ^ (k % 32))

/-- A copy in the Lark's queue: direction, source, destination, length, counter, choir slot. -/
def copyFields (a : Acopy) : Nat × Nat × Nat × Nat × Nat × Nat := (a.dir, a.src, a.dst, a.len, a.act, a.slot)

/-- The bytes a block spans in its ring (R374). -/
def footprint (x len : Nat) : Nat :=
  if bits x 96 2 = 0 then len else 128 * (bits x 102 10 + 1 + matEdge (bits x 98 4) - 1)

end Sys2Proof.Claims
end

