-- ==== Sys2Proof/Certificates/Slice0/HostClaims.lean ====
section
/-! DEFINITION. Certificates/Slice0/HostClaims.lean: what the statements about commands that are writes of dictionary objects, and about
the caches, translation, the host port and the precentor, say. -/

namespace Sys2Proof.Claims

open Sys2Proof.Machine

/-! ### Writes of dictionary objects -/

/-- An access along path `p` reaches the dictionary engine and may write subindex `sub` of object `i` (R839, R840, R847, R854). -/
def mayWrite (s : State) (p : Path) (i sub : Nat) : Prop :=
  p.ok = true ∧ s.dev.pathUp p = true ∧ s.dev.writeCheck p i sub = 0

/-- The command answers with status `st` after an effect that leaves `d'` with `eff d'`. -/
def answers (c : Instr) (s : State) (st : Nat) (eff : Dev → Prop) : Prop :=
  ∃ d', exec c s = .next { s with dev := d'.emit (.status st) } ∧ eff d'

/-- The command is refused with status `st`: nothing but DICT_REFUSALS changes (R847). -/
def refuses (c : Instr) (s : State) (st : Nat) : Prop :=
  answers c s st fun d' => d' = s.dev.oinc O.DICT_REFUSALS

/-! ### The L2 -/

/-- Only outputs, objects, counters, detectors, the ages of sets and what the crossing counts may differ. -/
def l2Same (d d' : Dev) : Prop :=
  d'.l2.lines = d.l2.lines ∧ d'.mem = d.mem ∧ d'.nave = d.nave ∧ d'.prec = d.prec ∧ d'.tr = d.tr ∧ d'.logs = d.logs

/-- A way of a request's partition that is empty and that no fetch holds. -/
def freeWay (d : Dev) (r : L2Req) (w : Nat) : Prop :=
  w < 16 ∧ bit (d.oget (O.L2_PARTITION r.l2p)) w = true ∧ d.l2.inWay (setOf (r.dpa / 128)) w = none ∧
    d.l2.holds (setOf (r.dpa / 128)) w = false

/-! ### The host port -/

/-- A completion of `n` bytes of value `v` for function `fn`. -/
def completes (fn n v : Nat) : Out := .cpl fn 0 (leBytes n v) false

/-- The objects that tell the state of the host link. -/
def linkShows (d : Dev) (rate width : Nat) : Prop :=
  d.oget O.HOST_LINK_RATE = rate ∧ d.oget O.HOST_LINK_WIDTH = width ∧
    d.oget O.HOSTPORT_STATE = if rate = 6 ∧ 4 ≤ width then 2 else 1

/-! ### Packets -/

/-- A packet with its opcode in place. -/
def packetOf (op : Nat) (p : BitVec 512) : Nat := setBits p.toNat 0 8 op

/-- Queue `q` of an owner takes the packet `P` (R557, R566): it is enabled and holds nothing back, and the packet passes its checks. -/
structure Takes (s : State) (owner q P : Nat) : Prop where
  ownerOk : owner ≤ 256
  queueOk : q < 16
  readyOk : s.dev.acceptable (16 * owner + q) = true
  legal : packetCheck (s.dev.oget O.CHIP_ID) owner P = none

/-- GET of the queue has passed the packet, which is counted (R557). -/
def passed (d d' : Dev) (k : Nat) : Prop :=
  (d'.queue k).get = ((d.queue k).get + 1) % 2 ^ 32 ∧ d'.oget O.PACKETS_ACCEPTED = d.oget O.PACKETS_ACCEPTED + 1

/-- The device when a queue packet's action begins: the packet is passed, and it waits with the next acceptance number (R569). -/
def begun (d : Dev) (k P : Nat) : Dev :=
  let e := (d.packetPassed k (d.queue k).get).oinc O.PACKETS_ACCEPTED
  Dev.onQueue { e with prec := { e.prec with nextOrder := d.prec.nextOrder + 1 } } k fun x =>
    { x with waits := x.waits ++ [QWait.mk (bits P 0 8) (d.queue k).get (bit P 9) (waitArg P) d.prec.nextOrder] }

/-- The wait of that packet. -/
def waitOf (d : Dev) (k P : Nat) : QWait := ⟨bits P 0 8, (d.queue k).get, bit P 9, waitArg P, d.prec.nextOrder⟩

/-- The completion record of a queue packet has been posted (R569, Table 12.8). -/
def recorded (d d' : Dev) (k P cause detail aux : Nat) : Prop :=
  ∃ r, (d'.queue k).fresh = (d.queue k).fresh ++ [r] ∧ r.kind = 3 ∧ r.packet = (d.queue k).get ∧ r.opcode = bits P 0 8 ∧ r.irq = bit P 9 ∧
    r.cause = cause ∧ r.detail = detail ∧ r.aux = aux

/-- A packet that creates a node, with an OPEN graph that takes it: the node joins the pool ACCEPTED with the next acceptance number
(R572, R576). -/
def NodeResult (cmd : Nat → Nat → BitVec 512 → Instr) (op : Nat) : Prop :=
  ∀ s owner q p g, let P := packetOf op p
    let k := 16 * owner + q
    let mine := s.dev.prec.nodes.filter fun x => x.ofGraph owner q (bits P 16 16)
    let b := (s.dev.packetPassed k (s.dev.queue k).get).oinc O.PACKETS_ACCEPTED
    Takes s owner q P → s.dev.graph owner q (bits P 16 16) = some g → g.isSealed = false → g.failed = false →
    mine.any (fun x => x.id = bits P 32 32) = false → mine.length < 65536 → s.dev.poolFull owner = false →
    (∀ h ∈ nodeHandles P, s.dev.descStateOf owner h = 1) →
    (op = 1 → ∃ d1 l, b.readDescs owner (slotHandles (bits P 280 16 ||| bits P 296 16) P) = (d1, .inl l)) →
    (op = 4 → bit P 64 = true → ∀ y, s.dev.nodeIn owner q (bits P 16 16) (bits P 96 32) = some y → y.opc = 1) →
    ∃ d' x, exec (cmd owner q p) s = .next { s with dev := d' } ∧ passed s.dev d' k ∧ d'.prec.nodes = s.dev.prec.nodes ++ [x] ∧
      x.owner = owner ∧ x.queue = q ∧ x.graph = bits P 16 16 ∧ x.id = bits P 32 32 ∧ x.opc = op ∧ x.body = P ∧ x.state = .accepted ∧
      x.preds = [] ∧ x.dispatches = 0 ∧ x.order = s.dev.prec.nextOrder ∧ x.refs = nodeHandles P ∧
      d'.prec.nextOrder = s.dev.prec.nextOrder + 1 ∧ d'.prec.graphs = s.dev.prec.graphs

/-- The node of a reference has its timer fire with `cause`: it has failed with a NODE record, and the expiry is counted. -/
def timedOut (d d' : Dev) (x : Node) (cause : Nat) : Prop :=
  d'.oget O.TIMER_EXPIRIES = d.oget O.TIMER_EXPIRIES + 1 ∧ (∀ y ∈ d'.prec.nodes, y.order = x.order → y.state = .failed) ∧
    (d.ownerLive x.owner = true → ∃ r ∈ (d'.queue (16 * x.owner + x.queue)).fresh, r.kind = 1 ∧ r.node = x.id ∧ r.cause = cause)

end Sys2Proof.Claims
end

