-- ==== Sys2Proof/Certificates/Slice0/MgmtClaims.lean ====
section
/-! DEFINITION. Certificates/Slice0/MgmtClaims.lean: what the statements about the memory controllers, the dictionary and its network, the
links, the fabric operations, and the management of the device and its tray say. -/

namespace Sys2Proof.Claims

open Sys2Proof.Machine

/-! ### The dictionary and its ports -/

/-- Port `n` is `x`; the other ports, memory, the caches and the precentor are as before. -/
def portIs (d d' : Dev) (n : Nat) (x : DPort) : Prop :=
  d'.port n = x ∧ (∀ m, m ≠ n → d'.port m = d.port m) ∧ d'.mem = d.mem ∧ d'.l2 = d.l2 ∧ d'.prec = d.prec ∧ d'.nave = d.nave

/-- A port whose burst has ended with a status (Table 18.6). -/
def ended (x : DPort) (status : Nat) : DPort := { x with busy := false, done := true, status := status, stage := 0 }

/-- A port on which GO starts a burst with what its registers hold (R849). -/
def started (x : DPort) : DPort :=
  { x with goAddr := x.addr, goHi := x.addrHi, goLen := x.length + 1, buf := [], count := 0, status := 0, done := false }

/-- What the checks of a burst of a port find (Table 18.3). -/
def burstStatus (d : Dev) (n : Nat) (x : DPort) : Nat :=
  burstCheck (if x.dir then d.writeCheck (portPath n) x.index else d.readCheck (portPath n) x.index) x.index x.sub x.off x.byte x.goLen

/-! ### The Cantor network -/

/-- A message from the fabric passes steps 1 to 3 of R860: the key is loaded, the tag is right and the replay window takes it. -/
structure Authentic (d : Dev) (m : CantorMsg) (w : Replay) : Prop where
  up : d.engineUp = true
  key : d.keyLoaded = true
  on : d.oget O.CANTOR_ENABLE ≠ 0
  here : d.idValid = true ∧ m.dest = d.oget O.CHIP_ID
  tagOk : m.tag = cantorMac m d.dict.key
  fresh : (match mget d.dict.windows m.src with
    | none => some (Replay.mk m.boot m.count 1)
    | some w => w.accept m.boot m.count) = some w

/-- The device that has taken the message into its replay window. -/
def heard (d : Dev) (m : CantorMsg) (w : Replay) : Dev := { d with dict := { d.dict with windows := mset d.dict.windows m.src w } }

/-! ### Links -/

/-- A link is UP, and no packet waits for it. -/
def quietLink (d : Dev) (l : Nat) : Prop := l < 20 ∧ d.up l = true ∧ (d.link l).waiting = []

/-- The unacknowledged flits of a link are sent again, in order, and counted (R755). -/
def replayed (d d' : Dev) (l : Nat) : Prop :=
  d'.oget (O.REPLAYS l) = d.oget (O.REPLAYS l) + (d.link l).replay.length ∧
    (d'.link l).replay.map (·.2) = (d.link l).replay.map (·.2) ∧ d'.out.length = d.out.length + (d.link l).replay.length

/-! ### Fabric operations -/

/-- A packet of kind `kind` reaches an operation in progress of its owner, in the operation's present attempt (R798, R805). -/
structure Reaches (s : State) (kind : Nat) (p : FPacket) (o : FabOp) (x : Node) : Prop where
  kindOk : (opHdrOf p).kind = kind ∧ 1 ≤ p.cls ∧ p.cls ≤ 3
  live : s.dev.ownerLive p.owner = true
  quiet : s.dev.fab.inbox = []
  found : s.dev.fab.ops.find? (fun o => (opHdrOf p).names p.owner o) = some o
  own : ∀ y ∈ s.dev.fab.ops, y.order = o.order → y = o
  node : s.dev.node o.order = some x
  same : (opHdrOf p).attempt = o.attempt

/-- The operations with `f` applied to the one of number `k`; nothing else of the device differs. -/
def onlyOp (s : State) (k : Nat) (f : FabOp → FabOp) : State := { s with dev := s.dev.onOp k f }

/-! ### Management -/

/-- The device is held in reset with a cause: every queue is empty, no core runs, no error is logged and memory lists nothing. -/
def inReset (d : Dev) (cause : Nat) : Prop :=
  d.boot.inReset = true ∧ d.oget O.RESET_CAUSE = cause ∧ d.mem = Dev.reset.mem ∧ d.nave = Dev.reset.nave ∧ d.prec = Dev.reset.prec ∧
    d.l2 = Dev.reset.l2 ∧ d.tr = Dev.reset.tr ∧ d.logs.logs = [] ∧ d.boot.running = none

/-- The newest output is a response of an MCTP message type and a code. -/
def replied (d : Dev) (type code : Nat) : Prop := ∃ b, d.out.head? = some (.mctp type code b)

/-- The test access port holds an instruction, and the pins take a test function. -/
def tapHolds (s : State) (tap test : Nat) : State :=
  { s with dev := { s.dev with pkg := { s.dev.pkg with tap := tap, test := test } } }

end Sys2Proof.Claims
end

