-- ==== Sys2Proof/WellFormed.lean ====
section
/-! DEFINITION. WellFormed.lean: which commands are well formed: those that name units the device has, and whose operands lie in the ranges
of their fields. Every meaning refuses the others. -/

namespace Sys2Proof

open Sys2Proof.Machine

/-- The command is well formed. -/
def Instr.wf : Instr → Bool
  | .iadd c _ => c.core < 256 && c.slot < 64
  | .isub c _ => c.core < 256 && c.slot < 64
  | .imul c _ => c.core < 256 && c.slot < 64
  | .imulhi c _ => c.core < 256 && c.slot < 64
  | .imad c _ => c.core < 256 && c.slot < 64
  | .andCmd c _ => c.core < 256 && c.slot < 64
  | .orCmd c _ => c.core < 256 && c.slot < 64
  | .xor c _ => c.core < 256 && c.slot < 64
  | .shl c _ => c.core < 256 && c.slot < 64
  | .shr c _ => c.core < 256 && c.slot < 64
  | .sar c _ => c.core < 256 && c.slot < 64
  | .imin c _ => c.core < 256 && c.slot < 64
  | .imax c _ => c.core < 256 && c.slot < 64
  | .popc c _ => c.core < 256 && c.slot < 64
  | .sel c _ => c.core < 256 && c.slot < 64
  | .fadd c _ => c.core < 256 && c.slot < 64
  | .fmul c _ => c.core < 256 && c.slot < 64
  | .ffma c _ => c.core < 256 && c.slot < 64
  | .fmin c _ => c.core < 256 && c.slot < 64
  | .fmax c _ => c.core < 256 && c.slot < 64
  | .fdiv c _ => c.core < 256 && c.slot < 64
  | .fsqrt c _ => c.core < 256 && c.slot < 64
  | .dadd c _ => c.core < 256 && c.slot < 64
  | .dmul c _ => c.core < 256 && c.slot < 64
  | .dfma c _ => c.core < 256 && c.slot < 64
  | .dmin c _ => c.core < 256 && c.slot < 64
  | .dmax c _ => c.core < 256 && c.slot < 64
  | .ddiv c _ => c.core < 256 && c.slot < 64
  | .dsqrt c _ => c.core < 256 && c.slot < 64
  | .cvt c _ => c.core < 256 && c.slot < 64
  | .isetp c _ => c.core < 256 && c.slot < 64
  | .fsetp c _ => c.core < 256 && c.slot < 64
  | .dsetp c _ => c.core < 256 && c.slot < 64
  | .plop c _ => c.core < 256 && c.slot < 64
  | .vote c _ => c.core < 256 && c.slot < 64
  | .bra c _ => c.core < 256 && c.slot < 64
  | .brx c _ => c.core < 256 && c.slot < 64
  | .call c _ => c.core < 256 && c.slot < 64
  | .ret c _ => c.core < 256 && c.slot < 64
  | .exitCmd c _ => c.core < 256 && c.slot < 64
  | .nop c _ => c.core < 256 && c.slot < 64
  | .ldL c _ => c.core < 256 && c.slot < 64
  | .stL c _ => c.core < 256 && c.slot < 64
  | .ldC c _ => c.core < 256 && c.slot < 64
  | .stC c _ => c.core < 256 && c.slot < 64
  | .ldG c _ => c.core < 256 && c.slot < 64
  | .stG c _ => c.core < 256 && c.slot < 64
  | .cwait c _ => c.core < 256 && c.slot < 64
  | .atomL c _ => c.core < 256 && c.slot < 64
  | .atomC c _ => c.core < 256 && c.slot < 64
  | .atomG c _ => c.core < 256 && c.slot < 64
  | .fence c _ => c.core < 256 && c.slot < 64
  | .acopy c _ => c.core < 256 && c.slot < 64
  | .actInit c _ => c.core < 256 && c.slot < 64
  | .arrive c _ => c.core < 256 && c.slot < 64
  | .arriveExpect c _ => c.core < 256 && c.slot < 64
  | .actWait c _ => c.core < 256 && c.slot < 64
  | .arriveC c _ => c.core < 256 && c.slot < 64
  | .actRead c _ => c.core < 256 && c.slot < 64
  | .barSync c _ => c.core < 256 && c.slot < 64
  | .barArrive c _ => c.core < 256 && c.slot < 64
  | .gbar c _ => c.core < 256 && c.slot < 64
  | .mma c _ => c.core < 256 && c.slot < 64
  | .mwait c _ => c.core < 256 && c.slot < 64
  | .mflags c _ => c.core < 256 && c.slot < 64
  | .srRead c _ => c.core < 256 && c.slot < 64
  | .srWrite c _ => c.core < 256 && c.slot < 64
  | .mov c _ => c.core < 256 && c.slot < 64
  | .trap c _ => c.core < 256 && c.slot < 64
  | .assert c _ => c.core < 256 && c.slot < 64
  | .mark c _ => c.core < 256 && c.slot < 64
  | .vperm c _ => c.core < 256 && c.slot < 64
  | .taskStart core => core < 256
  | .storeBufferDrain core x => core < 256 && x.stall < 4
  | .loadReissue c => c.core < 256 && c.slot < 64
  | .deadlockDetectorFire core => core < 256
  | .taskAbort core cause detail => core < 256 && cause < 256 && detail < 256
  | .taskComplete core => core < 256
  | .mmaDecode core => core < 256
  | .mmaGangStart core => core < 256
  | .mmaComplete core _ => core < 256
  | .larkRequestIssue core _ => core < 256
  | .blockLanded core ctx => core < 256 && ctx < 16
  | .acopyCompletion core _ => core < 256
  | .lda core ctx => core < 256 && ctx < 16
  | .mova core ctx => core < 256 && ctx < 16
  | .adda core ctx => core < 256 && ctx < 16
  | .addap core ctx => core < 256 && ctx < 16
  | .loopCmd core ctx => core < 256 && ctx < 16
  | .endl core ctx => core < 256 && ctx < 16
  | .emit core ctx => core < 256 && ctx < 16
  | .endProg core ctx => core < 256 && ctx < 16
  | .starlingDelivery die slot => die < 2 && slot < 8
  | .l2Lookup r _ => r.ok
  | .l2Fill _ => true
  | .crossingRetry dir => dir < 2
  | .crossingFailure dir => dir < 2
  | .maintGo path => path.ok
  | .maintDone => true
  | .l2SpareSteering slice array column => slice < 96 && array < 32 && column < 65536
  | .pageWalk eng owner va access _ => engineOk eng && owner ≤ 256 && va < 2 ^ 64 && access < 4
  | .faultBatchClose => true
  | .atsCompletion fn a => fn ≤ 256 && a.kind ≤ 3 && a.u < 2 ^ 64 && 4096 ≤ a.size && a.size ≤ 2 ^ 30 && a.size &&& (a.size - 1) = 0
  | .atsInvalidateRequest fn _ _ _ => fn ≤ 256
  | .prgResponse fn prg _ => fn ≤ 256 && prg < 512
  | .priTimeoutExpiry fn prg => fn ≤ 256 && prg < 512
  | .faultGetWrite path _ => path.ok
  | .faultRingBaseWrite path _ => path.ok
  | .doorbell owner q value _ => owner ≤ 256 && q < 16 && value < 2 ^ 32
  | .barRead fn bar _ size => fn ≤ 256 && (bar = 0 || bar = 2) && 0 < size && size ≤ 4096
  | .pfBar2Access write0 off data0 len _ => off < 2 ^ 39 && 0 < len && len ≤ 4096 && (!write0 || data0.length = len)
  | .vfBar2Write t off data0 _ => t < 256 && off < 2 ^ 24 && 0 < data0.length && data0.length ≤ 4096
  | .msixTableAccess fn _ off size _ => fn ≤ 256 && 0 < size && size ≤ 4096 && msixBase fn ≤ off && off < pbaBase fn + pbaSize fn
  | .msixUnmask fn vec => fn ≤ 256 && vec < vectorsOf fn
  | .flr t => t < 256
  | .pfFlr => true
  | .vfEnableClear => true
  | .busMasterEnableChange fn _ => fn ≤ 256
  | .d3hotEntry => true
  | .d0Return => true
  | .hostportStateChange _ _ => true
  | .hostLinkDown => true
  | .hostCompletion tag status0 _ _ _ => tag < 16384 && status0 ≤ 3
  | .configWrite fn reg value => fn ≤ 256 && reg < 4096 && value < 2 ^ 32
  | .precentorTick _ => true
  | .task owner q _ => owner ≤ 256 && q < 16
  | .edge owner q _ => owner ≤ 256 && q < 16
  | .seal owner q _ => owner ≤ 256 && q < 16
  | .signal owner q _ => owner ≤ 256 && q < 16
  | .wait owner q _ => owner ≤ 256 && q < 16
  | .copy owner q _ => owner ≤ 256 && q < 16
  | .reshard owner q _ => owner ≤ 256 && q < 16
  | .collective owner q _ => owner ≤ 256 && q < 16
  | .timestamp owner q _ => owner ≤ 256 && q < 16
  | .watch owner q _ => owner ≤ 256 && q < 16
  | .nopPacket owner q _ => owner ≤ 256 && q < 16
  | .fencePacket owner q _ => owner ≤ 256 && q < 16
  | .descCreate owner q _ => owner ≤ 256 && q < 16
  | .descDestroy owner q _ => owner ≤ 256 && q < 16
  | .chapelSet owner q _ => owner ≤ 256 && q < 16
  | .horariumLoad owner q _ => owner ≤ 256 && q < 16
  | .contextKill owner q _ => owner ≤ 256 && q < 16
  | .windowMap owner q _ => owner ≤ 256 && q < 16
  | .windowUnmap owner q _ => owner ≤ 256 && q < 16
  | .tlbInvalidate owner q _ => owner ≤ 256 && q < 16
  | .tenantSetup owner q _ => owner ≤ 256 && q < 16
  | .tenantRelease owner q _ => owner ≤ 256 && q < 16
  | .dictWrite owner q _ => owner ≤ 256 && q < 16
  | .faultResume owner q _ => owner ≤ 256 && q < 16
  | .queueEnable path => path.ok
  | .queueReset path => path.ok
  | .queueDisable path => path.ok
  | .taskTimeout _ => true
  | .budgetExpiry _ => true
  | .waitTimeout _ => true
  | .queueTimeout owner q => owner ≤ 256 && q < 16
  | .horariumSwitch => true
  | .slotBoundary => true
  | .urgentFloorRequest entry => entry < 1024
  | .contextTeardown tenant _ => tenant < 256
  | .logPop path _ => path.ok
  | .tandemCompare core => core < 256
  | .comparatorSelfTest clo _ => clo < 64
  | .comparatorFault clo => clo < 64
  | .keySlotFailure slot => slot ≤ 256
  | .hbmRead _ owner _ => owner ≤ 256 || owner = 0x1FF
  | .hbmWrite _ mask _ _ => mask < 2 ^ 32
  | .retireAdd path _ => path.ok
  | .retireAck path _ => path.ok
  | .stackTempRead stack _ => stack < 8
  | .refresh ch bank kind => ch < 256 && bank < 128 && kind < 4
  | .strobeRealign ch => ch < 256
  | .patrolScrub ch _ => ch < 256
  | .caParityRetry ch _ => ch < 256
  | .enterTest path group => path.ok && group < 32
  | .leaveTest path group => path.ok && group < 32
  | .tgStart path ch => path.ok && ch < 256
  | .tgStop path ch => path.ok && ch < 256
  | .tgDone x => x.ch < 256 && x.errs.all TgErr.ok
  | .linkSignalDetect link _ => link < 20
  | .linkTraining link _ _ _ => link < 20
  | .linkDown link => link < 20
  | .linkEnableWrite path link _ => path.ok && link < 20
  | .flitReceive link _ _ => link < 20
  | .flitReplay link => link < 20
  | .replayTimeout link => link < 20
  | .handshake link h => link < 20 && h.chip < 4096 && h.link < 20
  | .presetRequest link lane preset token => link < 20 && lane < 8 && preset < 256 && token < 256
  | .presetAck link lane preset token _ => link < 20 && lane < 8 && preset < 16 && token < 256
  | .timeFlitSend link sub => link < 20 && sub < 16000
  | .timeFlitReceive link sub _ => link < 20 && sub < 16000
  | .timeSet path _ => path.ok
  | .packetRoute link _ _ => link ≤ 20
  | .errorPacketReceive p => p.cls = 4
  | .equalizationLoop link r => link < 20 && r.margins.length = 8 && r.ber ≤ 0x3F800000 && r.lane < 8 && r.setting ≤ 16
  | .enter p => (opHdrOf p).kind = 1 && 1 ≤ p.cls && p.cls ≤ 3
  | .release p => (opHdrOf p).kind = 2 && 1 ≤ p.cls && p.cls ≤ 3
  | .abortCmd p => (opHdrOf p).kind = 3 && 1 ≤ p.cls && p.cls ≤ 3
  | .pull p => (opHdrOf p).kind = 4 && 1 ≤ p.cls && p.cls ≤ 3
  | .data p => (opHdrOf p).kind = 5 && 1 ≤ p.cls && p.cls ≤ 3
  | .up p => (opHdrOf p).kind = 6 && 1 ≤ p.cls && p.cls ≤ 3
  | .down p => (opHdrOf p).kind = 7 && 1 ≤ p.cls && p.cls ≤ 3
  | .write p => (opHdrOf p).kind = 8 && 1 ≤ p.cls && p.cls ≤ 3
  | .ack p => (opHdrOf p).kind = 9 && 1 ≤ p.cls && p.cls ≤ 3
  | .barrierPass _ => true
  | .enterResend _ => true
  | .opTimeoutExpiry _ => true
  | .dpReadBurst port _ _ => isPort port
  | .dpWriteBurst port _ => isPort port
  | .dpAbort port _ => isPort port
  | .dpDataRead port => isPort port
  | .dpDataWrite port _ => isPort port
  | .dpBurstDone port => isPort port
  | .dictObjectWrite path index sub off byte data0 => path.ok && index < 65536 && sub < 256 && off < 2 ^ 32 && byte < 8 && 0 < data0.length && data0.length ≤ 4096
  | .cantorRead _ m => m.op = 1 && !m.resp
  | .cantorWrite _ m => m.op = 2 && !m.resp
  | .cantorReadBurst _ m => m.op = 3 && !m.resp
  | .notify n => 1 ≤ n.event && n.event ≤ 8 && n.cause < 256 && n.detail < 256 && n.sev < 4 && n.index < 65536 && n.sub < 256
  | .cantorResponse _ m => m.resp
  | .i3cRelay i3c m => i3c || m.destEp = 1
  | .cantorTx path m => path.ok && m.payload.length ≤ 256
  | .cantorRxPop path => path.ok
  | .cantorTimeoutExpiry _ => true
  | .timebaseSwitch => true
  | .timebaseFailure => true
  | .pdOn path x => path.ok && x < 16
  | .pdOff path x => path.ok && x < 16
  | .pdLow path x => path.ok && x < 16
  | .domainWake x _ _ => x < 16
  | .wakeRetry x => x < 16
  | .voltageLoop oct _ => oct < 8
  | .clockLoop oct => oct < 8
  | .droopStretch oct _ _ => oct < 8
  | .droopThreshold oct => oct < 8
  | .thresholdLoop ch lane _ => ch < 256 && lane < 72
  | .placementLoop oct => oct < 8
  | .currentLimit oct _ => oct < 8
  | .powerEstimate x _ => x < 16
  | .recalibration x _ => x < 16
  | .quiesce x => x < 16
  | .estimatorStale x => x < 16
  | .thermalSensorRead t => t.oct.length = 32 && t.uncore.length = 8
  | .powerFault x => x < 16
  | .powerOn => true
  | .resetNAssert => true
  | .perstEdge => true
  | .resetRequestWarm path => path.ok
  | .resetRequestCold path => path.ok
  | .resetRelease _ => true
  | .bootWatchdogExpiry => true
  | .flashRead path => path.ok
  | .flashProgram path => path.ok
  | .flashErase path => path.ok
  | .flashDone _ => true
  | .bootPreference path _ => path.ok
  | .bootConfirm path _ => path.ok
  | .keyRevoke path _ => path.ok
  | .getVersion _ => true
  | .getCapabilities _ => true
  | .negotiateAlgorithms _ => true
  | .getDigests _ => true
  | .getCertificate _ => true
  | .challenge _ => true
  | .getMeasurements _ => true
  | .keyExchange _ => true
  | .finish _ => true
  | .heartbeat _ => true
  | .keyUpdate _ => true
  | .endSession _ => true
  | .setSystemKey _ => true
  | .zeroizeSystemKey _ => true
  | .getEndpointId _ => true
  | .cntLatch path => path.ok
  | .sampler => true
  | .dropsRecord => true
  | .tokenRefill => true
  | .watchCapture => true
  | .snapRequest path _ => path.ok
  | .snapshotWrite _ => true
  | .clrRingBaseWrite path _ => path.ok
  | .status => true
  | .relay _ m _ => m.payload.length ≤ 256
  | .slotPowerOn _ _ => true
  | .slotPowerOff _ => true
  | .valve _ _ => true
  | .paramGet _ => true
  | .paramSet _ _ => true
  | .utcSet value => value < 2 ^ 64
  | .logRead _ => true
  | .leakAck _ => true
  | .keyGenerate => true
  | .cloneAllow serial => serial < 2 ^ 64
  | .getPdr _ => true
  | .getSensorReading _ => true
  | .getStateSensorReadings _ => true
  | .setStateEffecterStates _ _ _ => true
  | .getStateEffecterStates _ => true
  | .setEventReceiver eid => eid < 256
  | .platformEventMessage => true
  | .pldmFirmwareUpdate _ => true
  | .setEndpointId eid => eid < 256
  | .getMctpVersionSupport _ => true
  | .getMessageTypeSupport => true
  | .getVendorDefinedMessageSupport _ => true
  | .sensorSample r => r.flow.length = 16 && r.outlet.length = 16 && r.power.length = 16 && r.inlet.length = 2 && r.current.length = 2 && r.speed.length = 2
  | .ropeReading rope _ => rope < 4
  | .valveCloseDelay slot => slot < 16
  | .pumpLoop => true
  | .powerLimitRetry slot _ => slot < 16
  | .controllerRestart => true
  | .deviceAttest slot _ _ _ => slot < 16
  | .notifyTargetSetup slot => slot < 16
  | .trayUtcWrite => true
  | .trayHeartbeat => true
  | .slotNoResponse slot => slot < 16
  | .deviceUtcSet path _ => path.ok
  | .lifeCommit path => path.ok
  | .hourlyCommit => true
  | .lifetimeSecond => true
  | .cryptCommitRetry _ _ => true
  | .bypass => true
  | .idcode => true
  | .samplePreload _ => true
  | .extest => true
  | .extestPulse => true
  | .extestTrain => true
  | .clamp => true
  | .highz => true
  | .perstDeassert strap => strap < 4
  | .hostLinkUp _ _ => true
  | .dpRegisterWrite port reg _ => isPort port && reg < 4
  | .bar0DiscardedWrite fn _ size _ => fn ≤ 256 && 0 < size && size ≤ 4096
  | .powerLoss => true
  | .controllerSupplyLoss => true
  | .spareLossOfLock => true
  | .cryptObjectCommit _ _ => true
  | .vrPgRise x => 1 ≤ x && x < 16
  | .relayTimeoutExpiry slot => slot < 16

end Sys2Proof
end

