-- ==== Sys2Proof/Certificates/Slice0/TrayClaims.lean ====
section
/-! DEFINITION. Certificates/Slice0/TrayClaims.lean: what the statements about the Clerestory, containment and the tray say. -/

namespace Sys2Proof.Claims

open Sys2Proof.Machine

/-! ### The Clerestory -/

/-- The kernel ring lies in host memory, is set, has no room, and GET is already asked for; the staged records are whole. -/
structure RingWaits (d : Dev) : Prop where
  isSet : d.clrUnset = false
  host : d.oget O.CLR_RING_SPACE = 0
  asked : ∃ x ∈ d.host.reads, x.use = useClrGet ∧ x.arg = 0
  full : ∀ n, 64 ≤ n → ringRoom (d.oget O.CLR_RING_SIZE) d.clr.put d.clr.get n = false
  whole : ∀ r ∈ d.clr.staged, 64 ≤ r.length

/-- A sample is due (R962). -/
def sampleDue (d : Dev) : Prop :=
  d.oget O.SAMPLE_PERIOD ≠ 0 ∧ d.time % (1000 * d.oget O.SAMPLE_PERIOD) = 0 ∧ (d.clr.samples = 0 ∨ d.clr.lastSample ≠ d.time)

/-- The counters stand in the shadow copy, dated (R961). -/
def latched (d d' : Dev) : Prop :=
  d'.oget O.LATCH_TIME = d.time ∧
    ∀ b < 4, ∀ e < 65536, d'.oget (okey (0x9031 + b) 0 e) = dget 0 d.clr.counters (65536 * b + e) % 2 ^ 64

/-- The counters are those of the four blocks, in order. -/
def countersOk (d : Dev) : Prop := keysRise d.clr.counters = true ∧ ∀ e ∈ d.clr.counters, e.1 < 4 * 65536

/-- Bytes that a waiting record of `need` bytes takes of `tokens` (R971). -/
def share (need tokens : Nat) : Nat := if need ≤ tokens then need else tokens / 4096 * 4096

/-- What the ECC finds is an uncorrectable error of the snapshot store (R987). -/
def storeError : HwErr → Prop
  | .none | .corrected .. | .word _ => False
  | _ => True

/-! ### Containment -/

/-- What step `k` of Table 14.7 leaves. -/
def torn (d' : Dev) (t k : Nat) : Prop :=
  match k with
  | 2 => ∀ n r, (d'.core n).task = some r ∨ (d'.core n).next = some r → r.owner ≠ t
  | 4 => (∀ r ∈ d'.tr.waiting, r.owner ≠ t) ∧ ∀ x ∈ d'.tr.tracks, x.rcd.owner ≠ t
  | 5 => (∀ e ∈ d'.tr.atc, e.owner ≠ t) ∧ ∀ w ∈ d'.tr.utlb, ∀ e ∈ w.2, e.owner ≠ t
  | 6 => (∀ w ∈ d'.clr.armed, w.owner ≠ t) ∧ ∀ c ∈ d'.clr.captures, c.watch.owner ≠ t
  | 7 => (∀ x ∈ d'.prec.nodes, x.owner ≠ t) ∧ (∀ g ∈ d'.prec.graphs, g.owner ≠ t) ∧ ∀ h < 4096, d'.descStateOf t h = 0
  | 8 => ∀ q < 16, (d'.queue (16 * t + q)).state = .disabled
  | _ => True

/-! ### The tray -/

/-- The JT-16 runs, and it answers a vendor command with a code and a body, having become `d'`. -/
def vendorSays (c : Instr) (s : State) (cmd code : Nat) (body : List Byte) (d' : Dev) : Prop :=
  exec c s = .next { s with dev := d'.emit (.vendor cmd code body) }

/-- The JT-16 answers an MCTP control or PLDM request with a code and a body, having become `d'`. -/
def mctpSays (c : Instr) (s : State) (type code : Nat) (body : List Byte) (d' : Dev) : Prop :=
  exec c s = .next { s with dev := d'.emit (.mctp type code body) }

/-- What SLOT_POWER ON does to slot `n` (R1003): a slot that is not the modelled device's is powered, or is FAULT. -/
def poweredOn (d' : Dev) (n : Nat) (pgood : Bool) : Prop :=
  (d'.slot n).pwrEn = pgood ∧ (d'.slot n).resetN = !pgood ∧ (d'.slot n).pgood = pgood ∧ (pgood = false → d'.slotState n = 2)

/-- What SLOT_POWER OFF does to slot `n`. -/
def poweredOff (d d' : Dev) (n : Nat) : Prop :=
  (d'.slot n).pwrEn = false ∧ (d'.slot n).resetN = true ∧ (d'.slot n).valve = (d.slot n).valve ∧
    (n = d.tray.home → d'.pkg.powered = false ∧ inReset d' 0)

/-- The bus of a slot that is not the modelled device's is free, and the JT-16 holds the key. -/
structure FreeBus (d : Dev) (n : Nat) : Prop where
  slot : n < 16 ∧ n ≠ d.tray.home
  up : d.tray.down = false
  key : d.tray.key.isSome = true
  idle : (d.slot n).queue = [] ∧ (d.slot n).sent = false

/-- The requests on a slot's bus are TC writes of these objects, the first of them sent. -/
def writesQueued (d' : Dev) (n : Nat) (ws : List (Nat × Nat × Nat)) : Prop :=
  (d'.slot n).sent = true ∧
    (d'.slot n).queue.map (fun q => (q.msg.op, q.msg.index, q.msg.sub, q.msg.payload)) = ws.map fun w => (2, w.1, w.2.1, leBytes 8 w.2.2)

/-- The condition of an alarm row for a unit takes one sample. -/
def condTakes (s : State) (d' : Dev) (row unit : Nat) (enter clear : Bool) (t ms : Nat) : Prop :=
  d'.tray.cond row unit = (s.dev.tray.cond row unit).next enter clear t ms

end Sys2Proof.Claims
end

