-- ==== Sys2Proof/Certificates/Slice0/CoreParts.lean ====
section
/-! DEFINITION. Certificates/Slice0/CoreParts.lean: the parts of the statements about cores, tasks and streams. -/

namespace Sys2Proof.Claims

open Sys2Proof Sys2Proof.Machine

/-! ### The instructions of a core -/

/-- What arithmetic gives for NaN, infinite and zero operands (R238, R239, R241, Table 5.4): a NaN result is canonical, NV for a signaling
operand, an ∞ − ∞, a 0 × ∞, a 0/0, an ∞/∞ and the root of a negative number, DZ for a finite number over zero. -/
def SpecialOperandsGiveTableFlags : Prop :=
  ∀ f rm a b c, 4 ≤ f → f ≤ 7 → rm < 4 →
    let nan : Nat → FRes := fun fl => ⟨fmtNan f, fl⟩
    let nv := fun l => if l.any (sigBits f) then fNV else 0
    let neg := xor (negBits f a) (negBits f b)
    (nanBits f a ∨ nanBits f b →
      fpAdd f rm false a b = nan (nv [a, b]) ∧ fpMul f rm false a b = nan (nv [a, b]) ∧ fpDiv f rm false a b = nan (nv [a, b])) ∧
    (nanBits f a → fpSqrt f rm false a = nan (nv [a])) ∧
    (nanBits f c → ∀ va vb, fpReal f a = some va → fpReal f b = some vb → fpFma f rm false a b c = nan (nv [c])) ∧
    (fpExt f a = some ⊤ → fpExt f b = some ⊥ → fpAdd f rm false a b = nan fNV ∧ fpDiv f rm false a b = nan fNV) ∧
    (fpExt f a = some ⊤ ∨ fpExt f a = some ⊥ → fpReal f b = some 0 → fpMul f rm false a b = nan fNV ∧ fpFma f rm false a b c = nan fNV) ∧
    (fpReal f a = some 0 → fpReal f b = some 0 → fpDiv f rm false a b = nan fNV ∧
      fpAdd f rm false a b = ⟨signBit f (if negBits f a = negBits f b then negBits f a else decide (rm = 3)), 0⟩) ∧
    (∀ va, fpReal f a = some va → va ≠ 0 → fpReal f b = some 0 → fpDiv f rm false a b = ⟨fpInf f neg, fDZ⟩) ∧
    (∀ va, fpReal f a = some va → va < 0 → fpSqrt f rm false a = nan fNV) ∧
    (fpReal f a = some 0 → fpSqrt f rm false a = ⟨signBit f (negBits f a), 0⟩)

/-- Comparisons and the minimum and maximum follow the values of the operands (R242, R243, Table 5.5): −0 equals +0 in a comparison and
comes before it in a minimum; a NaN operand gives the outcomes of Table 5.5, and a minimum or maximum gives the other operand. -/
def ComparisonsFollowValues : Prop :=
  ∀ f a b, 4 ≤ f → f ≤ 7 → a < 2 ^ fmtWidth f → b < 2 ^ fmtWidth f →
    (∀ c va vb, c < 8 → fpExt f a = some va → fpExt f b = some vb →
      ((fpCompare f c false a b).1 = true ↔ valueCmp c va vb) ∧ (fpCompare f c false a b).2 = 0) ∧
    (∀ c, c < 8 → nanBits f a ∨ nanBits f b →
      ((fpCompare f c false a b).1 = true ↔ c = 1 ∨ c = 6) ∧
      (fpCompare f c false a b).2 = if 2 ≤ c ∧ c ≤ 5 ∨ sigBits f a = true ∨ sigBits f b = true then fNV else 0) ∧
    (∀ mx, let r := fpMinMax f mx false a b
      (r.flags = if sigBits f a = true ∨ sigBits f b = true then fNV else 0) ∧
      (nanBits f a → nanBits f b → r.bits = fmtNan f) ∧ (nanBits f a → ¬ nanBits f b → r.bits = b) ∧
      (nanBits f b → ¬ nanBits f a → r.bits = a) ∧
      ∀ va vb, fpExt f a = some va → fpExt f b = some vb → (r.bits = a ∨ r.bits = b) ∧
        fpExt f r.bits = some (if mx then max va vb else min va vb) ∧
        (va = 0 → vb = 0 → (negBits f r.bits = if mx then negBits f a && negBits f b else negBits f a || negBits f b)))

/-- CVT, SEL, MOV and VPERM (Table 3.4, Table 3.5, R149): the converted operand; A where P[SC] is true, else B; A or the immediate; operand
A of the source voice that the mode and B choose. SEL, MOV and VPERM carry poison (R659). -/
def ConvertSelectAndMove : Prop :=
  (∀ s c e d x, Issues s c e 0x30 specCvt d x →
    let m := iMod x.w
    let r := fun v => cvt (bits m 0 4) (bits m 4 4) (fpRm x (bits m 8 3)) (bit x.h.fpctl 3) (fpFtz x)
      (srcA x (if 32 < fmtWidth (bits m 0 4) then 2 else 1) v)
    ∃ d', acts (.cvt c e) s c d' ∧
      Writes d x (if 32 < fmtWidth (bits m 4 4) then 2 else 1) (fun v => ((r v).bits, false)) (orVoices x fun v => (r v).flags) d') ∧
  (∀ s c e d x, Issues s c e 0x0F specSel d x → ∃ d', acts (.sel c e) s c d' ∧
    Writes d x (intParts x) (fun v => if bit (x.h.pred (iSc x.w)) v then srcAP x (intParts x) v else srcBP x (intParts x) v) 0 d') ∧
  (∀ s c e d x, Issues s c e 0xC2 specMov d x → ∃ d', acts (.mov c e) s c d' ∧
    Writes d x 1 (fun v => if iBi x.w then (iImm x.w, false) else srcAP x 1 v) 0 d') ∧
  (∀ s c e d x, Issues s c e 0xE0 specVperm d x → ∃ d', acts (.vperm c e) s c d' ∧
    Writes d x 1 (fun v => ((srcA x 1 (permFrom (iMod x.w) v (srcB x 1 v))),
      (srcAP x 1 (permFrom (iMod x.w) v (srcB x 1 v))).2 || (srcBP x 1 v).2)) 0 d')

/-- ISETP, FSETP and DSETP write a comparison, alone or combined with P[SC], PLOP an operation of two predicates, and VOTE whether any or
all of the executing voices have P[SA], into the predicate of the executing voices; VOTE under DU writes the answer or the mask of
those voices into a uniform register. A write to P0 is ignored (R31, R117, R124, R243). -/
def PredicateInstructionsWrite : Prop :=
  PredResult .isetp 0x40 (specSetp 0) (fun x v => (withC x v (wordCmp (32 * setpParts x) (bits (iMod x.w) 0 4) (bit (iMod x.w) 4)
    (BitVec.ofNat _ (srcA x (setpParts x) v)) (BitVec.ofNat _ (srcB x (setpParts x) v))), 0)) ∧
  PredResult .fsetp 0x41 (specSetp 1) (fun x v =>
    let f := 5 + bits (iMod x.w) 8 2
    let r := fpCompare f (bits (iMod x.w) 0 4) (fpFtz x) (srcA x 1 v % 2 ^ fmtWidth f) (srcB x 1 v % 2 ^ fmtWidth f)
    (withC x v r.1, r.2)) ∧
  PredResult .dsetp 0x42 (specSetp 2) (fun x v =>
    let r := fpCompare 4 (bits (iMod x.w) 0 4) false (srcA x 2 v) (if iBi x.w then widen32 (iImm x.w) else srcB x 2 v)
    (withC x v r.1, r.2)) ∧
  PredResult .plop 0x43 specPlop (fun x v =>
    let a := bit (x.h.pred (iSa x.w)) v
    let b := bit (x.h.pred (iSb x.w)) v
    (match iMod x.w % 4 with | 0 => a && b | 1 => a || b | 2 => xor a b | _ => a && !b, 0)) ∧
  (∀ s c e d x, Issues s c e 0x44 specVote d x →
    let r := if iMod x.w = 0 then decide (voting x ≠ []) else decide (voting x = voicesOf x.ex)
    ∃ d', acts (.vote c e) s c d' ∧
      if iDu x.w then Writes d x 1 (fun _ => (if iMod x.w = 2 then maskOf (voting x) else if r then 1 else 0, false)) 0 d'
      else WritesPred d x (fun _ => r) 0 d')

/-- BRA, BRX, CALL, RET and NOP (R40 to R44, R81, R151, R152): a uniform branch sets the PC and pushes nothing; a divergent one takes the
branch with the voices that execute it and pushes the others with the reconvergence address, the reconvergence entry below; CALL pushes
the return address and RET pops it. Nothing but the choir changes. That the other voices wait at the next instruction when only some
of the choir execute a CALL is the model's choice (assumption 20). -/
def BranchesMoveTheChoir : Prop :=
  ChoirResult .bra 0x50 specBra (fun x => x.ex = x.h.mask) (fun x h => { h with pc := relTo x.h.pc (iImm x.w) }) ∧
  ChoirResult .bra 0x50 specBra (fun x => x.ex ≠ x.h.mask ∧ x.h.dstack.length + 2 ≤ 32) (fun x h =>
    let r := relTo h.pc (iImm2 x.w)
    { h with pc := relTo h.pc (iImm x.w), mask := x.ex, rpc := some r,
             dstack := ⟨h.pc + 16, h.mask ^^^ x.ex, some r⟩ :: ⟨r, h.mask, h.rpc⟩ :: h.dstack }) ∧
  ChoirResult .brx 0x51 specBrx (fun _ => True)
    (fun x h => { h with pc := (x.h.uget (iSa x.w)).1 + (x.h.uget (iSa x.w + 1)).1 * 2 ^ 32 }) ∧
  ChoirResult .call 0x52 specCall (fun x => x.ex = x.h.mask ∧ x.h.rstack.length < 8)
    (fun x h => { h with rstack := (h.pc + 16) :: h.rstack, pc := relTo h.pc (iImm x.w) }) ∧
  ChoirResult .call 0x52 specCall (fun x => x.ex ≠ x.h.mask ∧ x.h.rstack.length < 8 ∧ x.h.dstack.length < 32)
    (fun x h => { h with rstack := (h.pc + 16) :: h.rstack, pc := relTo h.pc (iImm x.w), mask := x.ex, rpc := some (h.pc + 16),
                         dstack := ⟨h.pc + 16, h.mask, h.rpc⟩ :: h.dstack }) ∧
  ChoirResult .ret 0x53 specNone (fun x => x.ex = x.h.mask ∧ x.h.rstack ≠ [])
    (fun _ h => { h with rstack := h.rstack.tail, pc := h.rstack.headD 0 }) ∧
  ChoirResult .nop 0x55 specNone (fun _ => True) (fun _ h => { h with pc := h.pc + 16 })

/-- A push to a full stack, and a RET with an empty return-address stack, raise ERR_STACK_DEPTH (R46, R151). -/
def FullStacksRaiseStackDepth : Prop :=
  ∀ s c e d x,
    (Issues s c e 0x50 specBra d x → x.ex ≠ x.h.mask → 32 < x.h.dstack.length + 2 →
      ∃ d', acts (.bra c e) s c d' ∧ RaisesExc d x 0x20 x.ex 0 0 d') ∧
    (Issues s c e 0x52 specCall d x → 8 ≤ x.h.rstack.length →
      ∃ d', acts (.call c e) s c d' ∧ RaisesExc d x 0x20 x.ex 0 0 d') ∧
    (Issues s c e 0x53 specNone d x → x.h.rstack = [] →
      ∃ d', acts (.ret c e) s c d' ∧ RaisesExc d x 0x20 x.ex 0 0 d')

/-- EXIT (R45): the voices that execute it leave M and every mask of the divergence stack; a path with no voice left pops the next entry
that has one; with no entry left the choir has ended. No choir waits at the gang barrier. -/
def ExitLeavesEveryMask : Prop :=
  ∀ s c e d x, Issues s c e 0x54 specNone d x → (∀ m ∈ d.gangOf x.n, (d.core m).gbar = []) →
    let st := x.h.dstack.map fun y => { y with mask := without y.mask x.ex }
    (without x.h.mask x.ex ≠ 0 → x.h.rpc ≠ some (x.h.pc + 16) →
      acts (.exitCmd c e) s c (d.onChoir x.n x.slot fun _ =>
        { x.h with pc := x.h.pc + 16, mask := without x.h.mask x.ex, dstack := st })) ∧
    (without x.h.mask x.ex = 0 → ∀ y r, st = y :: r → y.mask ≠ 0 → y.rpc ≠ some y.pc →
      acts (.exitCmd c e) s c (d.onChoir x.n x.slot fun _ =>
        { x.h with pc := y.pc, mask := y.mask, rpc := y.rpc, dstack := r })) ∧
    (without x.h.mask x.ex = 0 → x.h.dstack = [] →
      acts (.exitCmd c e) s c (d.onChoir x.n x.slot fun _ => { x.h with pc := x.h.pc + 16, mask := 0 }) ∧
      ({ x.h with pc := x.h.pc + 16, mask := 0 } : Choir).ended = true)

/-- SR.READ writes the special register its immediate names into its destination, once for each executing voice or once for the choir;
SR_TCLOCK gives the octant's count, which has gone on by some amount since it was last read (Table 3.7, R136, R139, R155); the leading
core of a tandem pair hands the values to the trailing core (R140). SR.WRITE writes the defined bits of SR_FLAGS or SR_FPCTL (R137, R138). -/
def SpecialRegistersReadAndWrite : Prop :=
  (∀ s c e d x t, Issues s c e 0xC0 specSrRead d x → (d.core x.n).task = some t → t.tandem ≠ 2 →
    ∃ (val : Nat → Nat) (k : Nat), (∀ v, val v =
        if iImm x.w = 0x16 then (dget 0 d.nave.tclk (x.n / 32) + k) % 2 ^ 64 else srValueOf d x t (iImm x.w) v) ∧
      ∃ d1, Writes (d.respPush x.n x.slot (x.actors.map fun v => (v, val v, false))) x (srWidth (iImm x.w))
          (fun v => (val v % 2 ^ (32 * srWidth (iImm x.w)), false)) 0 d1 ∧
        acts (.srRead c e) s c (if iImm x.w = 0x16 then
          { d1 with free := d1.free + 1,
                    nave := { d1.nave with tclk := dset 0 d.nave.tclk (x.n / 32) (dget 0 d.nave.tclk (x.n / 32) + k) } }
          else d1)) ∧
  ChoirResult .srWrite 0xC1 specSrWrite (fun _ => True) (fun x h =>
    if iImm x.w = 0x17 then { h with flags := (x.h.uget (iSa x.w)).1 % 32, pc := h.pc + 16 }
    else { h with fpctl := (x.h.uget (iSa x.w)).1 % 16, pc := h.pc + 16 })

/-- The exceptions of one core clock meet under R144 (R145, R406), in stall order: one that forbids retry wins, of these the lowest
stall's, and no fault record is written; batch causes alone keep the records of all of them; of the others the lowest stall's wins, the
model's choice (assumption 66). A core that has an exception of an earlier clock keeps it. -/
def ExceptionsOfAClockMeet : Prop :=
  (∀ (a b : List (Nat × Exc)) x, (∀ y ∈ a, y.2.forbids = false) → x.2.forbids = true → resolveExc (a ++ x :: b) = some x.2) ∧
  (∀ x (l : List (Nat × Exc)), (∀ y ∈ x :: l, y.2.batch = true) →
    resolveExc (x :: l) = some { x.2 with recs := x.2.recs ++ l.flatMap fun y => y.2.recs }) ∧
  (∀ x (l : List (Nat × Exc)), (∀ y ∈ x :: l, y.2.forbids = false) → (∃ y ∈ x :: l, y.2.batch = false) → resolveExc (x :: l) = some x.2) ∧
  ∀ (d : Dev) n stall e, (d.core n).task.isSome = true →
    (d.clockOf n = none → (d.core n).exc = none → ((d.coreExcAt n stall e).core n).exc = some e) ∧
    (d.clockOf n = none → (d.core n).exc ≠ none → d.coreExcAt n stall e = d) ∧
    ∀ k, d.clockOf n = some k →
      let mine := if (d.core n).exc.isSome then (k.excs.filter fun x => x.1 = n).map (·.2) else []
      ((d.core n).exc ≠ none → mine = [] → d.coreExcAt n stall e = d) ∧
      (((d.core n).exc = none ∨ mine ≠ []) → mine.Pairwise (fun x y => x.1 ≤ y.1) → ((d.coreExcAt n stall e).core n).state = 2 ∧
        ((d.coreExcAt n stall e).core n).exc =
          resolveExc (mine.filter (fun x => x.1 ≤ stall) ++ (stall, e) :: mine.filter fun x => stall < x.1))

/-- TRAP raises ERR_TRAP with its code, ASSERT does so for the executing voices whose predicate is false and otherwise has no effect, and
MARK sends the PC, the register, the core, slot and task to the trace when TRACE_MASK enables it (R148, R967). -/
def TrapsAssertsAndMarks : Prop :=
  (∀ s c e d x, Issues s c e 0xD0 specTrap d x →
    ∃ d', acts (.trap c e) s c d' ∧ RaisesExc d x 0x27 x.ex (iImm x.w) 0 d') ∧
  (∀ s c e d x, Issues s c e 0xD1 specAssert d x → without x.ex (x.h.pred (iSa x.w)) ≠ 0 →
    ∃ d', acts (.assert c e) s c d' ∧
      RaisesExc d x 0x27 (without x.ex (x.h.pred (iSa x.w))) (iImm x.w) 0 d') ∧
  ChoirResult .assert 0xD1 specAssert (fun x => without x.ex (x.h.pred (iSa x.w)) = 0) (fun _ h => { h with pc := h.pc + 16 }) ∧
  (∀ s c e d x t, Issues s c e 0xD2 specMark d x → (d.core x.n).task = some t →
    let d' := if bit (d.oget O.TRACE_MASK) 0 then
        d.clrForm ⟨2, 0, 64, d.time, [x.h.pc, (x.h.uget (iSa x.w)).1 + x.n * 2 ^ 32 + x.slot * 2 ^ 40 + t.graph * 2 ^ 48,
          t.node + t.owner * 2 ^ 32]⟩
      else d
    acts (.mark c e) s c (d'.onChoir x.n x.slot fun h => { h with pc := h.pc + 16 }))

/-- FENCE that meets no error of L1 (R278 to R283): at voice or choir scope only the PC moves; a release at core scope or wider drains every store-buffer entry of
its choir; an acquire at cloister scope or wider leaves only dirty bytes valid in L1. -/
def FencesDrainAndInvalidate : Prop :=
  ∀ s c e d x, Issues s c e 0x80 specFence d x → (3 ≤ accScope x → e = .none) → ∃ d', acts (.fence c e) s c d' ∧
    (accScope x < 2 → d' = d.onChoir x.n x.slot fun h => { h with pc := h.pc + 16 }) ∧
    (2 ≤ accOrder x → 2 ≤ accScope x → (d.core x.n).sb.length ≤ 4096 → ∀ y ∈ (d'.core x.n).sb, y.slot ≠ x.slot) ∧
    (accOrder x ≠ 2 → 3 ≤ accScope x → ∀ y ∈ (d'.core x.n).l1, y.2.valid = y.2.dirty ∧ y.2.dirty ≠ 0) ∧
    (3 ≤ accScope x → accOrder x = 1 → d'.oget O.WIDE_FENCES = d.oget O.WIDE_FENCES + 1 ∧ d'.l2 = d.l2 ∧ d'.mem = d.mem)

/-- CWAIT (R80, R131): the choir goes on when the doubleword satisfies the comparison, and otherwise waits for it at the next instruction. -/
def CwaitComparesADoubleword : Prop :=
  ∀ s c e d x, Issues s c e 0x66 specCwait d x → lmFair true d x [0] → ((d.core (lmPlace true x 0).1).lmRead (lmPlace true x 0).2 8).2 = false →
    let p := lmPlace true x 0
    let v := ((d.core p.1).lmRead p.2 8).1
    let op := bits (iMod x.w) 12 2
    let holds := match op with | 0 => v = srcB x 2 0 | 1 => v ≠ srcB x 2 0 | 2 => srcB x 2 0 ≤ v | _ => v < srcB x 2 0
    (holds → acts (.cwait c e) s c (d.onChoir x.n x.slot fun h => { h with pc := h.pc + 16 })) ∧
    (¬ holds → ∃ d', acts (.cwait c e) s c d' ∧
      (d'.core x.n).choir x.slot = { x.h with pc := x.h.pc + 16, wait := .cwait p.1 p.2 op (srcB x 2 0) x.ex } ∧
      { d' with nave := d.nave } = d ∧
      ∀ m, { d'.core m with writers := [], choirs := [] } = { d.core m with writers := [], choirs := [] })

/-- ACT_INIT sets EXPECT and PENDING, zeroes BYTES and leaves PHASE; an arrival, which is a release of its choir's stores, takes one from
PENDING and adds its bytes, and completes the phase when nothing is awaited; an overflow raises ERR_ARRIVAL_OVERFLOW and leaves the
counter (R68, R69, R71, R72, R75, R289). In a core clock that goes on, the update is kept for its end (R73). -/
def ArrivalCountersCountPhases : Prop :=
  (∀ s c e d x, Issues s c e 0x91 (fun _ => { imm := 0xFFFF, imm2 := 0x3F }) d x →
    let a := (d.core x.n).act (actOf x)
    (∀ k, d.clockOf x.n = some k → acts (.actInit c e) s c (updateKept d x k x.n (1 + x.slot % 4) (.init (iImm x.w)))) ∧
    (d.clockOf x.n = none → iImm x.w ≠ 0 → ∃ d', acts (.actInit c e) s c d' ∧
      actBecomes d x x.n (actOf x) (iImm x.w, iImm x.w, 0, a.phase) d') ∧
    (d.clockOf x.n = none → iImm x.w = 0 → ∃ d', acts (.actInit c e) s c d' ∧ RaisesExc d x 0x22 x.ex 0 0 d')) ∧
  (∀ s c e d x, Issues s c e 0x92 (fun _ => { imm2 := 0x3F }) d x →
    let d0 := storesOut d x
    let a := (d0.core x.n).act (actOf x)
    (∀ k, d0.clockOf x.n = some k → acts (.arrive c e) s c (updateKept d0 x k x.n (1 + x.slot % 4) (.arrive 0 (2 ^ x.slot) 0))) ∧
    (d0.clockOf x.n = none → mayArrive a 0 → ∃ d', acts (.arrive c e) s c d' ∧ actBecomes d0 x x.n (actOf x) (arrived a 0) d') ∧
    (d0.clockOf x.n = none → ¬ mayArrive a 0 → ∃ d', acts (.arrive c e) s c d' ∧ RaisesExc d0 x 0x22 x.ex 0 0 d')) ∧
  (∀ s c e d x, Issues s c e 0x93 (fun _ => { imm := 0xFFFFFF, imm2 := 0x3F }) d x →
    let d0 := storesOut d x
    let a := (d0.core x.n).act (actOf x)
    (∀ k, d0.clockOf x.n = some k →
      acts (.arriveExpect c e) s c (updateKept d0 x k x.n (1 + x.slot % 4) (.arrive (iImm x.w) (2 ^ x.slot) 0))) ∧
    (d0.clockOf x.n = none → mayArrive a (iImm x.w) → ∃ d', acts (.arriveExpect c e) s c d' ∧
      actBecomes d0 x x.n (actOf x) (arrived a (iImm x.w)) d') ∧
    (d0.clockOf x.n = none → ¬ mayArrive a (iImm x.w) → ∃ d', acts (.arriveExpect c e) s c d' ∧
      RaisesExc d0 x 0x22 x.ex 0 0 d')) ∧
  (∀ s c e d x, Issues s c e 0x95 (fun _ => { imm2 := 0x33F }) d x → (d.core x.n).task.map (·.tandem) = some 0 →
    let m := x.n / 4 * 4 + bits (iImm2 x.w) 8 2
    let d0 := storesOut d x
    let a := (d0.core m).act (actOf x)
    (m = x.n ∨ m ∈ d.gangOf x.n) →
    (∀ k, d0.clockOf x.n = some k → acts (.arriveC c e) s c (updateKept d0 x k m (if m = x.n then 1 + x.slot % 4 else 8 + x.n % 4)
      (if m = x.n then .arrive 0 (2 ^ x.slot) 0 else .arrive 0 0 (2 ^ (x.n % 4))))) ∧
    (d0.clockOf x.n = none → mayArrive a 0 → ∃ d', acts (.arriveC c e) s c d' ∧ actBecomes d0 x m (actOf x) (arrived a 0) d') ∧
    (d0.clockOf x.n = none → ¬ mayArrive a 0 → ∃ d', acts (.arriveC c e) s c d' ∧ RaisesExc d0 x 0x22 x.ex 0 0 d'))

/-- ACT_WAIT goes on at once when the counter's phase differs from p and otherwise waits for that, in a core clock that goes on until its
end at least; ACT_READ gives the state word of Table
2.5 (R72, R156). -/
def ArrivalWaitsAndReads : Prop :=
  (∀ s c e d x, Issues s c e 0x94 specActWait d x →
    let p := srcB x 1 0 % 2
    let w := if d.clocked x.n = true ∨ ((d.core x.n).act (actOf x)).phase = p then Wait.act (actOf x) p else .none
    acts (.actWait c e) s c (d.onChoir x.n x.slot fun _ => { x.h with pc := x.h.pc + 16, wait := w })) ∧
  (∀ s c e d x, Issues s c e 0x96 specActRead d x →
    let a := (d.core x.n).act (actOf x)
    ∃ d', acts (.actRead c e) s c d' ∧
      Writes d x 2 (fun _ => ((a.phase + (BitVec.ofInt 31 a.bytes).toNat * 2 + a.pending * 2 ^ 32 + a.expect * 2 ^ 48) % 2 ^ 64, false)) 0 d')

/-- An open core clock of a cloister ends (R73, R87, R89): its updates have their effect on each counter one at a time, those of the Lark
first, then those of the counter's core in stall order, then those of the other cores in core order; one that overflows leaves the
counter (R75). The choirs that wait for a counter look at it after all of them. -/
def ClocksEndInOrder : Prop :=
  ∀ (d : Dev) n k, d.clockOf n = some k → (∀ u ∈ k.upds, u.rank < 12) →
    let inOrder := (List.range 12).flatMap fun r => k.upds.filter fun u => u.rank = r
    let after := fun m i =>
      (inOrder.filter fun u => u.core = m && u.idx = i).foldl (fun a u => (u.op.run a).getD a) ((d.core m).act i)
    (d.clockClose n).clockOf n = none ∧ (∀ m i, ((d.clockClose n).core m).act i = after m i) ∧
    ∀ m slot i p, m / 4 = n / 4 → ((d.core m).choir slot).wait = .act i p →
      (((d.clockClose n).core m).choir slot).wait = if (after m i).phase = p then .act i p else .none

/-- BAR.SYNC and BAR.ARRIVE (R77, R78): each counts an arrival; the k-th of the phase releases the waiters and starts a new phase; SYNC
waits for it; a count beyond the choirs of the core, or other than the one in force, raises ERR_BARRIER_COUNT. GBAR (R79) waits
until every choir of the gang has arrived or ended. Each is a release of its choir's stores (R289). -/
def BarriersReleaseOnTheLastArrival : Prop :=
  BarResult .barSync 0xA0 true ∧ BarResult .barArrive 0xA1 false ∧
  (∀ s c e d x, Issues s c e 0xA2 specNone d x →
    let d0 := storesOut d x
    let h := (d0.core x.n).choir x.slot
    let arrivedAt := fun (m slot : Nat) => (m = x.n ∧ slot = x.slot) ∨ slot ∈ (d0.core m).gbar ∨ ((d0.core m).choir slot).ended = true
    let all := ∀ m ∈ d0.gangOf x.n, (d0.core m).started = true ∧
      ∀ slot < ((d0.core m).task.map (·.choirs)).getD 0, arrivedAt m slot
    x.n ∈ d0.gangOf x.n → (d0.gangOf x.n).Nodup → h.wait = .none →
    ∃ d', acts (.gbar c e) s c d' ∧ { d' with nave := d0.nave } = d0 ∧
      (all → (∀ m ∈ d0.gangOf x.n, (d'.core m).gbar = [] ∧ ∀ slot, ((d'.core m).choir slot).wait ≠ .gbar) ∧
        (d'.core x.n).choir x.slot = { h with pc := h.pc + 16 }) ∧
      (¬ all → (d'.core x.n).choir x.slot = { h with pc := h.pc + 16, wait := .gbar } ∧ x.slot ∈ (d'.core x.n).gbar ∧
        ∀ m, m ≠ x.n → d'.core m = d0.core m))

/-- MMA queues an instruction under the next token, MWAIT and MFLAGS wait for a token and MFLAGS writes its summary, STALE when it is no
longer held; a token never issued raises ERR_MATRIX_TOKEN (R163, R173, R174, R177, R178). -/
def MatrixTokensAreIssuedInOrder : Prop :=
  (∀ s c e d x, Issues s c e 0xB0 specMma d x → (d.core x.n).mmq.length < 8 → (x.h.uget (iSa x.w)).1 % 64 = 0 →
    (x.h.uget (iSa x.w)).1 < 0x80000 → (d.core x.n).mmIssued + 1 < 2 ^ 32 →
    let k := d.core x.n
    let q := k.mmq ++ [⟨k.mmIssued + 1, x.slot, (x.h.uget (iSa x.w)).1, x.h.fpctl % 4, x.h.pc, x.ex, k.lmRead (x.h.uget (iSa x.w)).1 64, none, none⟩]
    ∃ d', acts (.mma c e) s c d' ∧
      Writes (Dev.oinc (d.setCore x.n { k with mmIssued := k.mmIssued + 1, mmq := q }) O.MMA_ISSUED) x 1
        (fun _ => (k.mmIssued + 1, false)) 0 d') ∧
  (∀ s c e d x, Issues s c e 0xB1 specMwait d x →
    let t := (x.h.uget (iSa x.w)).1
    let h := { x.h with pc := x.h.pc + 16, wait := if t ≤ (d.core x.n).mmDone then Wait.none else .token t }
    (t ≤ (d.core x.n).mmIssued → acts (.mwait c e) s c (d.onChoir x.n x.slot fun _ => h)) ∧
    ((d.core x.n).mmIssued < t → ∃ d', acts (.mwait c e) s c d' ∧ RaisesExc d x 0x29 x.ex 0 t d')) ∧
  (∀ s c e d x, Issues s c e 0xB2 specMma d x →
    let t := (x.h.uget (iSa x.w)).1
    (t ≤ (d.core x.n).mmIssued → t ≤ (d.core x.n).mmDone → ∃ d', acts (.mflags c e) s c d' ∧
      Writes d x 1 (fun _ => ((mget (d.core x.n).mmFlags t).getD (2 ^ 31) % 2 ^ 32, false)) 0 d') ∧
    (t ≤ (d.core x.n).mmIssued → (d.core x.n).mmDone < t →
      let h := { x.h with pc := x.h.pc + 16, wait := Wait.flags t (iDst x.w) }
      acts (.mflags c e) s c (d.onChoir x.n x.slot fun _ => h)) ∧
    ((d.core x.n).mmIssued < t → ∃ d', acts (.mflags c e) s c d' ∧ RaisesExc d x 0x29 x.ex 0 t d'))

/-- The matrix unit (R164, R176, R178, R181, R201, R214 to R217): it decodes the descriptor of its first undecoded instruction as it stood at
issue, or raises ERR_POISON, ERR_LM_RANGE or ERR_MATRIX_DESCRIPTOR; a sub-gang starts when every one of its cores holds an agreeing
instruction at its head that has not started, and otherwise waits; an instruction completes in order, under its token, with its flag summary, the 16 most recent being held. -/
def MatrixUnitDecodesStartsAndCompletes : Prop :=
  (∀ s n t q, n < 256 → (s.dev.core n).task = some t → (s.dev.core n).exc = none → (s.dev.core n).mmq[firstUndecoded (s.dev.core n)]? = some q →
    let c := s.dev.core n
    let r := q.image
    let tag := c.tagBefore (firstUndecoded c) (mdTile r.1)
    let fits := mdIn r.1 ≠ 1 ∨ tag.1 = 0 ∨ tag = (1 + matAcc (mdA r.1), matEdge (mdA r.1))
    let legal := mdLegal (decide (s.dev.oget O.BLOCK8_PERMIT = 1)) t.gang n r.1 = true ∧ fits
    let fails := fun cause => ∃ d', exec (.mmaDecode n) s = .next { s with dev := d' } ∧
      CoreFails s.dev n ⟨cause, 0, q.pc, q.slot, q.voices, 0, q.addr, []⟩ d'
    (r.2 = true → fails 6) ∧
    (r.2 = false → mdRange n r.1 = false → 4 ≤ mdA r.1 → mdA r.1 ≤ 11 → fails 0x26) ∧
    (r.2 = false → (4 ≤ mdA r.1 → mdA r.1 ≤ 11 → mdRange n r.1 = true) → ¬ legal → fails 0x28) ∧
    (r.2 = false → mdRange n r.1 = true → legal → exec (.mmaDecode n) s = .next { s with dev := s.dev.setCore n (
      { c with mmq := setAt c.mmq (firstUndecoded c) { q with desc := some r.1 } }) })) ∧
  (∀ s n q x, n < 256 → (s.dev.core n).mmq.head? = some q → q.desc = some x → mdGang x ≠ 0 → q.res = none →
    let ms := rangeFrom (matFirst n x) (matCores x)
    (∀ m ∈ ms, ∀ p y, (s.dev.core m).mmq.head? = some p → p.desc = some y → mdGang y = mdGang x) →
    ((∃ m ∈ ms, ∀ p, (s.dev.core m).mmq.head? = some p → p.desc = none ∨ p.res.isSome = true) → exec (.mmaGangStart n) s = .next s) ∧
    ((∀ m ∈ ms, (s.dev.core m).exc = none ∧ ∃ p y, (s.dev.core m).mmq.head? = some p ∧ p.desc = some y ∧ p.res = none ∧
        mdAgree p y = mdAgree q x) → n ∈ ms →
      ∃ d', exec (.mmaGangStart n) s = .next { s with dev := d' } ∧ { d' with nave := s.dev.nave } = s.dev ∧
        (∀ m ∈ ms, ∃ p r, (s.dev.core m).mmq.head? = some p ∧
          d'.core m = { s.dev.core m with mmq := setAt (s.dev.core m).mmq 0 { p with res := some r } }) ∧
        ∀ m, m ∉ ms → d'.core m = s.dev.core m)) ∧
  (∀ s n q rest x, n < 256 → (s.dev.core n).mmq = q :: rest → q.desc = some x → (s.dev.core n).exc = none → (mdGang x ≠ 0 → q.res.isSome = true) →
    ∃ d' sum, exec (.mmaComplete n .none) s = .next { s with dev := d' } ∧ (d'.core n).mmq = rest ∧ (d'.core n).mmDone = q.token ∧
      (keysRise (s.dev.core n).mmFlags = true → (∀ f ∈ (s.dev.core n).mmFlags, f.1 < q.token) → mget (d'.core n).mmFlags q.token = some sum) ∧
      (d'.core n).mmFlags.length ≤ 16 ∧ d'.mem = s.dev.mem ∧ d'.l2 = s.dev.l2 ∧ (d'.core n).task = (s.dev.core n).task)

/-! ### Copies, stores that drain, and tasks -/

/-- ACOPY of legal ranges queues one copy for each executing voice in ascending order, and the choir goes on (R70, R132, R133). -/
def AsyncCopiesAreQueued : Prop :=
  ∀ s c e d x t d1 rs, Issues s c e 0x90 specAcopy d x → (d.core x.n).task = some t → t.tandem < 2 →
    let dir := bits (iMod x.w) 12 2
    let len := iImm x.w
    let src := fun v => srcA x (if dir = 0 then 2 else 1) v
    let dst := fun v => srcB x (if dir = 1 then 2 else 1) v
    len % 32 = 0 → 32 ≤ len → len ≤ 65536 →
    (∀ v ∈ voicesOf x.ex, src v % 32 = 0 ∧ dst v % 32 = 0 ∧ (dir ≠ 0 → src v + len ≤ 0x80000) ∧ (dir = 0 → dst v + len ≤ 0x80000) ∧
      (dir = 2 → dst v < 0x200000 ∧ dst v % 0x80000 + len ≤ 0x80000 ∧
        (x.n / 4 * 4 + dst v / 0x80000 = x.n ∨ x.n / 4 * 4 + dst v / 0x80000 ∈ d.gangOf x.n))) →
    d.acopyTrans x.n t.owner (if dir = 1 then 1 else 0) len
      (if dir = 2 then [] else (voicesOf x.ex).map fun v => (v, if dir = 0 then src v else dst v)) = (d1, rs) →
    sortVoices t (larkEng x.n) (if dir = 1 then 1 else 0) rs = .ok →
    ∃ d', exec (.acopy c e) s = .next { s with dev := d' } ∧
      (d'.core x.n).acopies.map copyFields = (d.core x.n).acopies.map copyFields ++ (voicesOf x.ex).map (fun v =>
        (dir, src v, dst v, len, if bit (iImm2 x.w) 7 then iImm2 x.w % 64 else 64, x.slot)) ∧
      (d'.core x.n).choir x.slot = { x.h with pc := x.h.pc + 16 } ∧ (d'.core x.n).lm = (d.core x.n).lm

/-- ACOPY_COMPLETION carries a copy out (R70, R277): LM to LM, LM to device memory, or device memory to LM; the copy leaves the queue and
its counter is credited. -/
def AsyncCopiesMoveData : Prop :=
  ∀ s n idx t a, n < 256 → (s.dev.core n).task = some t → t.tandem = 0 → (s.dev.core n).exc = none →
    (s.dev.core n).acopies[idx]? = some a →
    (a.dir = 2 → a.dst < 0x200000 → a.len % 32 = 0 →
      let m := n / 4 * 4 + a.dst / 0x80000
      ∃ d', exec (.acopyCompletion n idx) s = .next { s with dev := d' } ∧
        (∀ k, lmByte d' m k = if a.dst % 0x80000 ≤ k ∧ k < a.dst % 0x80000 + a.len then lmByte s.dev n (a.src + (k - a.dst % 0x80000))
          else lmByte s.dev m k) ∧
        (∀ m', m' ≠ m → (d'.core m').lm = (s.dev.core m').lm) ∧
        (d'.core n).acopies = (s.dev.core n).acopies.filter (fun b => b.id ≠ a.id) ∧
        (∀ k, s.dev.clockOf n = none → a.act < 64 → ((s.dev.core n).act a.act).landed a.len = some k → (d'.core n).act a.act = k) ∧
        (∀ k, s.dev.clockOf n = some k → a.act < 64 → ∃ k', d'.clockOf n = some k' ∧
          k'.upds.map (fun u => (u.core, u.idx, u.rank, u.op)) = k.upds.map (fun u => (u.core, u.idx, u.rank, u.op)) ++
            [(n, a.act, 0, .landed a.len)])) ∧
    (∀ d1 ps, a.dir = 1 → s.dev.translateAll (larkEng n) t.owner 1 (copyPieces a.dst a.len) = (d1, .inl ps) →
      (∀ p ∈ ps, ∃ i w b, p.1 = .dev i w b ∧ d1.lost b = false) →
      let d2 := ps.foldl (fun d p =>
        match p.1 with
        | .dev _ w b => d.larkWrite n t.owner w b ((((s.dev.core n).lmChunks a.src a.len).drop ((p.2.1 - a.dst) / 32)).take (p.2.2 / 32))
        | _ => d) d1
      exec (.acopyCompletion n idx) s = .next { s with dev := d2.acopyEnd n a }) ∧
    (∀ d1 ps d2 l, a.dir = 0 → a.requested = false →
      s.dev.translateAll (larkEng n) t.owner 0 (copyPieces a.src a.len) = (d1, .inl ps) → (∀ p ∈ ps, ∃ i w b, p.1 = .dev i w b) →
      ps.foldl (fun (acc : Dev × List Chunk × Bool) p =>
        match p.1 with
        | .dev _ w b => let r := acc.1.larkRead n t.owner w b p.2.2; (r.1, acc.2.1 ++ r.2.1, acc.2.2 || r.2.2)
        | _ => acc) (d1, [], false) = (d2, l, false) →
      exec (.acopyCompletion n idx) s = .next { s with dev := d2.acopyLand n a l })

/-- LD.G of bytes in one line that neither the choir's store-buffer entries nor the core's L1 hold (R48, R336, R337): the load waits in
the MSHR of the line, a new one with its fetch in L2 or, as one of at most 8 secondary misses, the one outstanding, or before L1 when the
line's MSHR or all 64 are full. L2_FILL of the line ends the MSHR, and each waiting voice receives its bytes. -/
def LoadsWaitForTheirLines : Prop :=
  (∀ s c e d x t d1 rs a i w0 p, Issues s c e 0x64 (specLoad true) d x → globFair d x (acting x) 0 t d1 rs → accScope x < 3 →
    accOrder x = 0 → bits (iMod x.w) 10 2 ≠ 2 → e = .none → (d1.core x.n).choir x.slot = x.h → ((d1.core x.n).task.map (·.tandem)) = some 0 →
    (∀ v ∈ acting x, dpaOf rs v / 128 = a ∧ (d1.core x.n).sbLook x.slot false (dpaOf rs v) (accBytes x) = .none) →
    rs.head?.map (·.2.2) = some (.dev i w0 p) → mget (d1.core x.n).l1 a = none →
    let r := winReq x.n t.owner w0 p false 0 0 0
    let mshrs := (d1.core x.n).mshrs
    let waits := fun (d3 : Dev) (todo : List L2Req) (ms : List L1Mshr) =>
      acts (.ldG c e) s c d3 ∧ (d3.core x.n).mshrs = ms ∧ d3.mem = d1.mem ∧ d3.l2.lines = d1.l2.lines ∧
      ∃ l, (d3.core x.n).choir x.slot = { x.h with pc := x.h.pc + 16, wait := .load, load := some l } ∧ l.vals = [] ∧ l.todo = todo ∧
        l.lines = (if todo = [] then [a] else [])
    (∀ m, mshrs.find? (fun m => m.req.dpa = 128 * a) = some m →
      (m.slots.length ≤ 8 → ∃ d3, d3.l2 = d1.l2 ∧
        waits d3 [] (mapIf (fun m => m.req.dpa = 128 * a) (fun m => { m with slots := m.slots ++ [x.slot] }) mshrs)) ∧
      (9 ≤ m.slots.length → ∃ d3, d3.l2 = d1.l2 ∧ waits d3 [r] mshrs)) ∧
    (mshrs.find? (fun m => m.req.dpa = 128 * a) = none → 64 ≤ mshrs.length → ∃ d3, d3.l2 = d1.l2 ∧ waits d3 [r] mshrs) ∧
    ∀ w, mshrs.find? (fun m => m.req.dpa = 128 * a) = none → mshrs.length < 64 → d1.quiescing (2 + sliceOf a / 48) = false →
      d1.l2.held = [] → d1.logs.badSlots.contains r.key = false → d1.l2.crossFailed = false → mget d1.l2.lines a = none →
      d1.l2.mshrs.any (fun m => m.line = a) = false → d1.l2NoAlloc r = false → d1.mshrFree r = true → freeWay d1 r w →
      (∀ u < w, ¬ freeWay d1 r u) →
      ∃ d3, waits d3 [] (mshrs ++ [⟨r, [x.slot]⟩]) ∧ d3.l2.mshrs = d1.l2.mshrs ++ [⟨a, some w, r, [(r, true)]⟩]) ∧
  ∀ s a r w n slot l, s.dev.l2.mshrs.find? (fun m => m.line = a) = some ⟨a, some w, r, [(r, true)]⟩ → r.write = false → r.requester = n →
    r.dpa = 128 * a → s.dev.l2.crossFailed = false → s.dev.l2.held = [] → s.dev.l2.resps = [] → s.dev.l2.inWay (setOf a) w = none →
    s.dev.reachable r.dpa = true → (s.dev.core n).mshrs = [⟨r, [slot]⟩] → mget (s.dev.core n).l1 a = none →
    ((s.dev.core n).task.map (·.tandem)) = some 0 → ((s.dev.core n).choir slot).load = some l → (∀ u, u ≠ slot → ((s.dev.core n).choir u).load = none) →
    l.vals = [] → l.todo = [] → l.lines = [a] → l.await = [] → l.order = 0 → l.scope < 3 → l.hint ≠ 2 → l.uni = false →
    l.voices.Pairwise (fun v u => v.1 ≠ u.1) → (∀ v ∈ l.voices, v.1 < 32 ∧ v.2.1 = false ∧ v.2.2.1 / 128 = a) →
    (l.size = 1 ∨ l.size = 2 ∨ l.size = 4 ∨ l.size = 8 ∨ l.size = 16) →
    let img := s.dev.lineImage a (s.dev.keyDraw r.key)
    ∃ d', exec (.l2Fill a) s = .next { s with dev := d' } ∧ (d'.core n).mshrs = [] ∧
      ((d'.core n).choir slot).wait = .none ∧ ((d'.core n).choir slot).load = none ∧
      ∀ v ∈ l.voices, partsOf (fun k => (((d'.core n).choir slot).vget k v.1).1) l.dst (if l.size ≤ 4 then 1 else l.size / 4) =
        extendTo l.sext l.size (bits img.1 (8 * (v.2.2.1 % 128)) (8 * l.size))

/-- STORE_BUFFER_DRAIN takes the oldest entry of a stall: into L1 below cloister scope, through to the home slice at cloister scope or
wider or under NO_L1, as posted writes to the host (R59, R129, R268, R276). -/
def StoreBuffersDrainInOrder : Prop :=
  ∀ s n k, n < 256 → k < 4 →
    ((s.dev.core n).sb.filter (fun e => e.slot % 4 = k) = [] → ∀ x, exec (.storeBufferDrain n ⟨k, x⟩) s = .next s) ∧
    ∀ e es, (s.dev.core n).sb.filter (fun e => e.slot % 4 = k) = e :: es → ((s.dev.core n).task.map (·.tandem)) = some 0 →
      (∀ slot rest sc, ((s.dev.core n).choir slot).wait ≠ .stores rest sc) →
      let c := { s.dev.core n with sb := (s.dev.core n).sb.erase e }
      let d := s.dev.setCore n c
      let line := e.sector / 4
      let sh := e.sector % 4 * 32
      let m := e.mask * 2 ^ sh
      let po := if e.poison then 15 else 0
      (∀ l, e.host = false → e.scope < 3 → mget c.l1 line = some l →
        let r := mergeLine m (e.data * 2 ^ (8 * sh)) po l.data l.poison
        ∃ d', exec (.storeBufferDrain n ⟨k, .none⟩) s = .next { s with dev := d' } ∧ (d'.core n).sb = c.sb ∧
          mget (d'.core n).l1 line = some { l with valid := l.valid ||| m, dirty := l.dirty ||| m, data := r.1, poison := r.2 } ∧
          (∀ j, j ≠ line → mget (d'.core n).l1 j = mget c.l1 j) ∧ d'.l2 = s.dev.l2 ∧ d'.mem = s.dev.mem) ∧
      (e.host = false → 3 ≤ e.scope ∨ e.hint = 2 → mget c.l1 line = none → d.lost (128 * line) = false →
        let r : L2Req := ⟨n, (c.task.map (·.owner)).getD 256, 128 * line, true, m, e.data * 2 ^ (8 * sh), po &&& sectorsOf m,
          e.policy, e.l2p, e.key⟩
        exec (.storeBufferDrain n ⟨k, .none⟩) s = .next { s with dev := (d.l2Access r).1 }) ∧
      (e.host = true → e.mask = 2 ^ 32 - 1 →
        let d' := d.postWrite ((e.vias.headD .ring).plus 0) (32 * e.sector) (leBytes 32 e.data) e.poison
        exec (.storeBufferDrain n ⟨k, .none⟩) s = .next { s with dev := d' })

/-- LOAD_REISSUE makes a load that a partial overlap holds issue again as an LD.G, once every entry of its choir that overlaps its bytes has
drained; it goes on waiting while one stands (R61). -/
def HeldLoadsIssueAgain : Prop :=
  ∀ s c bs, c.core < 256 → c.slot < 64 → ((s.dev.core c.core).choir c.slot).wait = .reissue bs →
    (∀ k, s.dev.clockOf c.core = some k → 4 * c.core + c.slot % 4 ∉ k.issued) →
    let held := ∃ b ∈ bs, ∃ y ∈ (s.dev.core c.core).sb, y.slot = c.slot ∧ y.host = b.1 ∧ y.sector = b.2.1 / 32 ∧
      y.mask &&& ((2 ^ b.2.2 - 1) * 2 ^ (b.2.1 % 32)) ≠ 0
    let s1 := { s with dev := s.dev.onChoir c.core c.slot fun h => { h with wait := .none } }
    (held → exec (.loadReissue c) s = .next { s with dev := (s.dev.clockBegin c).clockEnd c }) ∧
    (¬ held → (s1.dev.clockBegin c).ready c = true → exec (.loadReissue c) s = exec (.ldG c .none) s1)

/-! ### The Lark, Bilxel and Starling -/

/-- Table 8.5 (R388): the Bilxel instructions; registers are 64 bits, a LOOP counter starts at its immediate plus one, ENDL goes back to
the instruction after its LOOP until the counter is 0. -/
def BilxelInstructionsCompute : Prop :=
  BilxelResult .lda 0x01 (fun t st w => bxPut st (bits w 24 2)
    (if bit w 23 then tdBase (dget 0 t.descs (bits w 0 4)) else bits st.record (320 + 64 * bits w 0 4) 64)) ∧
  BilxelResult .mova 0x02 (fun _ st w => bxPut st (bits w 24 2) (bxA st (bits w 20 2))) ∧
  BilxelResult .adda 0x03 (fun _ st w => bxPut st (bits w 24 2)
    (BitVec.ofNat 64 (bxA st (bits w 24 2)) + ((BitVec.ofNat 18 w).signExtend 64 <<< bits w 20 4)).toNat) ∧
  BilxelResult .addap 0x04 (fun _ st w => bxPut st (bits w 24 2) (bxA st (bits w 24 2) + bits st.record (320 + 64 * (w % 2)) 64)) ∧
  BilxelResult .loopCmd 0x05 (fun _ st w => { st with
    c := setAt st.c (bits w 20 3) (w % 65536 + 1), loops := (bits w 20 3, st.bpc + 1) :: st.loops, bpc := st.bpc + 1 }) ∧
  BilxelResult .endl 0x06 (fun _ st w =>
    let v := (st.c[bits w 20 3]?).getD 0 - 1
    let c := setAt st.c (bits w 20 3) v
    if v = 0 then { st with c := c, loops := st.loops.drop 1, bpc := st.bpc + 1 }
    else { st with c := c, bpc := match st.loops with | l :: _ => l.2 | [] => st.bpc + 1 }) ∧
  BilxelResult .endProg 0x3F (fun _ st _ => { st with ended := true })

/-- EMIT (R374, R389, R391, R398): with a place free in the queue and a block that fits its ring, the block enters at the ring cursor,
wrapping to the ring's base, and the register advances by the length; a source of Starling that is no receiver of its own has no
ring; with the queue full nothing happens; a block larger than its ring or not of its panel's size raises ERR_STREAM (0x2E), and one
that ends beyond LM ERR_LM_RANGE (0x26). -/
def EmitQueuesABlock : Prop :=
  ∀ s n i t st w, Streams s n i t st → st.prog[st.bpc]? = some w → bits w 26 6 = 0x07 → bits st.record 82 2 = 1 → st.ended = false →
    st.ready = true →
    let x := st.record
    let len := (bits w 0 11 + 1) * 32
    let f := footprint x len
    let base := bits x 224 32
    let lm := if base + bits x 192 32 < st.cursor + f then base else st.cursor
    let ringed := bits x 448 64 = 0 ∨ ∃ j < 64, bit (bits x 448 64) j = true ∧ t.first + j = n
    let fails := fun cause => ∃ d', exec (.emit n i) s = .next { s with dev := d' } ∧ CoreFails s.dev n ⟨cause, 0, 0, 64, 0, 0, 0, []⟩ d'
    let queues := fun at_ cur => ∃ st' b, exec (.emit n i) s = .next { s with dev := s.dev.setStream n i st' } ∧
      st'.queue = st.queue ++ [b] ∧ b.num = st.next ∧ b.addr = bxA st (bits w 24 2) ∧ b.len = len ∧ b.total = len ∧ b.off = 0 ∧
      b.lm = at_ ∧ b.begun = false ∧ st'.cursor = cur ∧ st'.next = st.next + 1 ∧ st'.bpc = st.bpc + 1 ∧ st'.record = x ∧
      st'.a = if bit w 23 then setAt st.a (bits w 24 2) ((bxA st (bits w 24 2) + len) % 2 ^ 64) else st.a
    (16 ≤ st.queue.length → exec (.emit n i) s = .next { s with dev := s.dev.setStream n i st }) ∧
    (st.queue.length < 16 → ¬ ringed → queues 0 st.cursor) ∧
    (st.queue.length < 16 → ringed → bits x 192 32 < f → fails 0x2E) ∧
    (st.queue.length < 16 → ringed → f ≤ bits x 192 32 → bits x 96 2 ≠ 0 → len ≠ 128 * (bits x 102 10 + 1) → fails 0x2E) ∧
    (st.queue.length < 16 → ringed → f ≤ bits x 192 32 → (bits x 96 2 ≠ 0 → len = 128 * (bits x 102 10 + 1)) → bit x 81 = false →
      0x80000 < lm + f → fails 0x26) ∧
    (st.queue.length < 16 → ringed → f ≤ bits x 192 32 → (bits x 96 2 ≠ 0 → len = 128 * (bits x 102 10 + 1)) →
      (bit x 81 = false → lm + f ≤ 0x80000) → queues lm (lm + f))

/-- LARK_REQUEST_ISSUE (R366, R376 to R379, R384, R385): the Lark serves the first context in ascending order after the one served last
whose next block may issue. The block is translated whole before its first request; a request to device memory reads its lines or
writes its part of the block, one to host memory is sent; a page that fails raises its cause; with no block that may issue, or with
256 requests in flight, nothing happens. -/
def BlocksIssueBelowTheLimit : Prop :=
  (∀ s n e t, LarkIdles s.dev n t → (∀ i st b, ¬ issuable s.dev n i t st b) → exec (.larkRequestIssue n e) s = .next s) ∧
  (∀ s n e t, n < 256 → (s.dev.core n).task = some t → (s.dev.core n).started = true → (s.dev.core n).exc = none → t.tandem ≠ 2 →
    s.dev.larkFeedAll n t = s.dev → 256 ≤ s.dev.larkFlight n → exec (.larkRequestIssue n e) s = .next s) ∧
  ∀ s n i t st b p ps, LarkIdles s.dev n t → issuable s.dev n i t st b →
    (∀ k st' b', issuable s.dev n k t st' b' → (i + 16 - (s.dev.core n).served) % 17 ≤ (k + 16 - (s.dev.core n).served) % 17) →
    b.tile = none → b.addr % 32 = 0 → b.todo.head? = some p → (s.dev.core n).reads = [] →
    let d0 := served s.dev n i
    let out := bit st.record 81
    (∀ d1 c det a recs e, b.begun = false → d0.larkTrans n t (if out then 1 else 0) (rangePages b.addr b.len) = (d1, .inr (.fail c det a recs)) →
      ∃ d', exec (.larkRequestIssue n e) s = .next { s with dev := d' } ∧ CoreFails d1 n ⟨c, det, 0, 64, 0, 0, a, recs⟩ d') ∧
    ∀ d1, (if b.begun then d1 = d0 ∧ ps = b.pages
        else d0.larkTrans n t (if out then 1 else 0) (rangePages b.addr b.len) = (d1, .inl ps)) →
      let g := pageOf ps p.1
      (∀ d2 e, out = true →
        d1.larkPut n t ps (rangeWrites p.1 ((d1.core n).blockChunks st.record b.lm (b.off + (p.1 - b.addr)) p.2)) = (d2, none) →
        exec (.larkRequestIssue n e) s = .next { s with dev := d2.setStream n i (requested st b ps []) }) ∧
      (∀ d2 ls, out = false → g.via.host = false → bits st.record 448 64 = 0 →
        d1.larkFetch n t.owner false g p.1 p.2 = (d2, ls, none) →
        ∃ d', exec (.larkRequestIssue n .none) s = .next { s with dev := d' } ∧ { d' with nave := d2.nave } = d2 ∧
          mget (d'.core n).streams i = some (requested st b ps ls) ∧ (d'.core n).reads = [] ∧ (d'.core n).lm = (d2.core n).lm) ∧
      (∀ e, out = false → g.via.host = true → bits st.record 448 64 = 0 → hostPieces d1.larkRequest 3 p.1 p.2 = [p] →
        ∃ d', exec (.larkRequestIssue n e) s = .next { s with dev := d' } ∧ mget (d'.core n).streams i = some (requested st b ps []) ∧
          (d'.core n).reads = [⟨0, i, some (b.num, b.off), p.1, p.2, none⟩])

/-- BLOCK_LANDED (R378, R380, R392): the oldest block whose requests are complete leaves the queue; an IN block's bytes stand in LM at its
place, in order or skewed; when the landed count rises, LANDED holds it. Blocks that the list has ready then enter the queue. -/
def LandedBlocksAreInLm : Prop :=
  ∀ s n i t st b, Streams s n i t st → bits st.record 448 64 = 0 → st.queue.find? (fun b => (s.dev.core n).whole i b) = some b →
    let x := st.record
    let q := st.queue.erase b
    let c := ((q.map (·.num)).min?).getD st.next
    let f := footprint x b.total
    let S := bits x 102 10 + 1
    let rb := matKd (bits x 98 4) * fmtWidth (bits x 98 4) / 8
    let data := chunkByte (rangeChunks b.addr b.len b.lines)
    let plain := bit x 81 = false ∧ b.tile = none ∧ b.len % 32 = 0 ∧ (bits x 160 32 + 8 ≤ b.lm ∨ b.lm + f ≤ bits x 160 32)
    ∃ d' st', exec (.blockLanded n i) s = .next { s with dev := d' } ∧ mget (d'.core n).streams i = some st' ∧ q <+: st'.queue ∧
      st'.landed = max c st.landed ∧
      (st.landed < c → ∀ k < 8, lmByte d' n (bits x 160 32 + k) = BitVec.ofNat 8 (c / 256 ^ k)) ∧
      (bit x 81 = true → d'.oget O.STREAM_BYTES_OUT = s.dev.oget O.STREAM_BYTES_OUT + b.len) ∧
      (bit x 81 = false → d'.oget O.STREAM_BYTES_IN = s.dev.oget O.STREAM_BYTES_IN + b.len) ∧
      (plain → bits x 96 2 = 0 → b.off + b.len ≤ b.total → ∀ k < b.len, lmByte d' n (b.lm + b.off + k) = data k) ∧
      (plain → bits x 96 2 ≠ 0 → 4 ≤ bits x 98 4 → bits x 98 4 ≤ 11 → b.off % 32 = 0 → b.total = 128 * S → b.off + b.len ≤ b.total →
        ∀ k < b.len, let e := (b.off + k) / rb
          lmByte d' n (b.lm + 128 * (e % S + e / S) + e / S * rb + (b.off + k) % rb) = data k)

/-- STARLING_DELIVERY (R396 to R400): a slot of the ring serves the groups round-robin: up to 128 bytes of the oldest block that has been read
go to the receivers, counted and landed by the receiver's own record; a block delivered whole leaves its source; with nothing to
deliver nothing happens. -/
def StarlingServesGroupsRoundRobin : Prop :=
  ∀ s die j, die < 2 → j < 8 →
    (s.dev.starlingReady die j = [] → exec (.starlingDelivery die j) s = .next s) ∧
    ∀ g n i rest st b t, ((s.dev.starlingReady die j).filter (fun e => dget 0 s.dev.nave.rr die ≤ e.1)) ++
        (s.dev.starlingReady die j) = (g, n, i) :: rest →
      (s.dev.core n).task = some t → mget (s.dev.core n).streams i = some st →
      st.queue.find? (fun b => (s.dev.core n).whole i b) = some b →
      let cs := ((blockData st b).drop (b.sent / 32)).take 4
      let k := 32 * cs.length
      let q := mapIf (fun y => y.num = b.num && y.off = b.off) (fun y => { y with sent := b.sent + k }) st.queue
      ∃ d', exec (.starlingDelivery die j) s = .next { s with dev := d' } ∧ dget 0 d'.nave.rr die = g + 1 ∧
        d'.mem = s.dev.mem ∧ d'.l2 = s.dev.l2 ∧
        (b.sent + k < b.len → mget (d'.core n).streams i = some { st with queue := q }) ∧
        (b.len ≤ b.sent + k → ∃ st', mget (d'.core n).streams i = some st' ∧ st.queue.erase b <+: st'.queue) ∧
        (∀ m r lm cur, b.receivers = [m] → m ≠ n → (s.dev.core m).exc = none → mget (s.dev.core m).streams i = some r →
          (if b.off + b.sent = 0 then r.placeAs b.dest b.total else some (r.segLm, r.cursor)) = some (lm, cur) →
          r.blockOk b.total lm = none →
          d'.oget O.STARLING_DELIVERED_BYTES = s.dev.oget O.STARLING_DELIVERED_BYTES + k ∧
          (bits r.record 96 2 = 0 → b.sent + k < b.len → ∀ a < k, lmByte d' m (lm + b.off + b.sent + a) = chunkByte cs a))

end Sys2Proof.Claims
end

