-- ==== Sys2Proof/Certificates/Slice0/DevParts.lean ====
section
/-! DEFINITION. Certificates/Slice0/DevParts.lean: the parts of the statements about the caches, memory, the network, management and the tray. -/

namespace Sys2Proof.Claims

open Sys2Proof Sys2Proof.Machine

/-! ### The L2 and the crossing -/

/-- L2_LOOKUP (R311, R318, R320, R338, R340, R354, R364): a read that finds its owner's line returns the line and changes no line; a
write that finds it merges its bytes, marks it dirty and writes nothing to memory; a read that finds none, with nothing that keeps it
from installing, takes an MSHR and the lowest free way of its partition; a request for a line of its owner that is being fetched
joins its MSHR; one that may not, or that comes behind one that waits or to a quiesced slice, waits. -/
def LookupsHitMergeOrWait : Prop :=
  ∀ s r, r.ok = true →
    let a := r.dpa / 128
    let d := s.dev
    let held : Dev := { d with l2 := { d.l2 with held := d.l2.held ++ [(r, false)] } }
    (d.quiescing (2 + sliceOf a / 48) = true ∨ d.l2Blocked r = true → exec (.l2Lookup r .none) s = .next { s with dev := held }) ∧
    (d.quiescing (2 + sliceOf a / 48) = false →
      (∀ l, l2Present d r.owner r.key r.dpa l →
        (r.write = false → ∃ d', exec (.l2Lookup r .none) s = .next { s with dev := d' } ∧ l2Same d d' ∧
          d'.out = .memData r.dpa l.data (l.poison ≠ 0) :: d.out ∧ d'.oget O.L2_HITS = d.oget O.L2_HITS + 1) ∧
        (r.write = true → ∃ d', exec (.l2Lookup r .none) s = .next { s with dev := d' } ∧ d'.mem = d.mem ∧ d'.out = d.out ∧
          (let m := mergeLine r.mask r.data r.poison l.data l.poison
           ∀ b, mget d'.l2.lines b = if b = a then some { l with data := m.1, poison := m.2, dirty := true } else mget d.l2.lines b))) ∧
      (d.l2.held = [] → d.logs.badSlots.contains r.key = false → d.l2.crossFailed = false →
        (∀ w, mget d.l2.lines a = none → r.write = false → d.l2.mshrs.any (fun m => m.line = a) = false → d.l2NoAlloc r = false →
          d.mshrFree r = true → freeWay d r w → (∀ u < w, ¬ freeWay d r u) →
          ∃ d', exec (.l2Lookup r .none) s = .next { s with dev := d' } ∧ l2Same d d' ∧ d'.out = d.out ∧
            d'.oget O.L2_MISSES = d.oget O.L2_MISSES + 1 ∧ d'.l2.mshrs = d.l2.mshrs ++ [⟨a, some w, r, [(r, false)]⟩]) ∧
        (∀ m, d.l2.mshrs.find? (fun m => m.line = a) = some m →
          (m.first.owner = r.owner → m.reqs.length ≤ 16 → ∃ d', exec (.l2Lookup r .none) s = .next { s with dev := d' } ∧ l2Same d d' ∧
            d'.out = d.out ∧ d'.oget O.L2_MISSES = d.oget O.L2_MISSES + 1 ∧
            d'.l2.mshrs = mapIf (fun m => m.line = a) (fun m => { m with reqs := m.reqs ++ [(r, false)] }) d.l2.mshrs) ∧
          (m.first.owner ≠ r.owner ∨ 17 ≤ m.reqs.length → exec (.l2Lookup r .none) s = .next { s with dev := held }))))

/-- L2_FILL (R319, R326): the fetched line serves the read that waits for it and is installed, clean, in the way its MSHR holds. -/
def FillsInstallTheLine : Prop :=
  ∀ s a r w, s.dev.l2.mshrs.find? (fun m => m.line = a) = some ⟨a, some w, r, [(r, false)]⟩ → r.write = false →
    s.dev.l2.crossFailed = false → s.dev.l2.held = [] → s.dev.l2.resps = [] → s.dev.l2.inWay (setOf a) w = none →
    let img := s.dev.lineImage a (s.dev.keyDraw r.key)
    ∃ d', exec (.l2Fill a) s = .next { s with dev := d' } ∧ d'.mem = s.dev.mem ∧
      d'.out = .memData r.dpa img.1 (img.2 ≠ 0) :: s.dev.out ∧
      d'.l2.mshrs = s.dev.l2.mshrs.filter (fun m => m.line ≠ a) ∧
      ∀ b, mget d'.l2.lines b = if b = a then some ⟨r.owner, w, false, img.2, img.1, s.dev.keyDraw r.key⟩ else mget s.dev.l2.lines b

/-- CROSSING_RETRY counts failures in a row per direction, the eighth being ERR_CROSSING (R345); CROSSING_FAILURE takes one module of a
direction away, the last being ERR_CROSSING (R362, R363); L2_SPARE_STEERING ends a steering and uses a spare (R361). -/
def CrossingFailuresAndSteering : Prop :=
  (∀ s dir, dir < 2 → s.dev.l2.crossFailed = false →
    let n := dget 0 s.dev.l2.crossFails dir + 1
    ∃ d', exec (.crossingRetry dir) s = .next { s with dev := d' } ∧ d'.oget O.CROSSING_RETRIES = s.dev.oget O.CROSSING_RETRIES + 1 ∧
      dget 0 d'.l2.crossFails dir = (if n = 8 then 0 else n) ∧ d'.l2.crossFailed = decide (n = 8) ∧
      d'.l2.lines = s.dev.l2.lines ∧ d'.mem = s.dev.mem) ∧
  (∀ s dir, dir < 2 → s.dev.l2.crossFailed = true → exec (.crossingRetry dir) s = .next s) ∧
  (∀ s dir, dir < 2 →
    let v := s.dev.oget O.CROSSING_MODULES
    let n := bits v (8 * dir) 8
    (n = 0 → exec (.crossingFailure dir) s = .next s) ∧
    (n ≠ 0 → ∃ d', exec (.crossingFailure dir) s = .next { s with dev := d' } ∧
      d'.oget O.CROSSING_MODULES = setBits v (8 * dir) 8 (n - 1) ∧
      d'.l2.crossFailed = (s.dev.l2.crossFailed || decide (n = 1)) ∧ d'.mem = s.dev.mem)) ∧
  (∀ s sl k col, sl < 96 → k < 32 → col < 65536 →
    (s.dev.l2.steering.contains (sl, k, col) = false → exec (.l2SpareSteering sl k col) s = .next s) ∧
    (s.dev.l2.steering.contains (sl, k, col) = true → ∃ d', exec (.l2SpareSteering sl k col) s = .next { s with dev := d' } ∧
      d'.l2.steering = s.dev.l2.steering.filter (· ≠ (sl, k, col)) ∧ dget 0 d'.l2.spares (64 * sl + k) = dget 0 s.dev.l2.spares (64 * sl + k) + 1 ∧
      d'.oget (O.L2_SPARES_USED sl) = s.dev.oget (O.L2_SPARES_USED sl) + 1 ∧ d'.l2.lines = s.dev.l2.lines ∧ d'.mem = s.dev.mem))

/-- MAINT_GO starts the operation of L2_MAINT, or is refused while one runs (R346, R347); at MAINT_DONE a WRITEBACK leaves the selected
lines of the sets not yet scanned clean, another operation leaves none of them, and no other line changes (Table 7.7, R348). -/
def MaintenanceClearsItsSelection : Prop :=
  (∀ s p, mayWrite s p 0x3220 6 → s.dev.oget (O.PD_STATE 2) = 2 → s.dev.oget (O.PD_STATE 3) = 2 →
    (s.dev.oget O.MAINT_STATUS = 1 → refuses (.maintGo p) s 7) ∧
    (s.dev.oget O.MAINT_STATUS ≠ 1 → answers (.maintGo p) s 0 fun d' => d'.oget O.MAINT_STATUS = 1 ∧
      d'.l2.maint = some ⟨s.dev.oget O.MAINT_OP, s.dev.oget O.MAINT_SELECT, s.dev.oget O.MAINT_OWNER, s.dev.oget O.MAINT_BASE,
        s.dev.oget O.MAINT_LENGTH, 0⟩ ∧ d'.l2.lines = s.dev.l2.lines)) ∧
  (∀ s m, s.dev.l2.maint = some m → keysRise s.dev.l2.lines = true →
    ∃ d', exec .maintDone s = .next { s with dev := d' } ∧ d'.oget O.MAINT_STATUS = 2 ∧ d'.l2.maint = none ∧
      ∀ a, mget d'.l2.lines a = (mget s.dev.l2.lines a).bind fun l =>
        if m.selects l.owner a = false ∨ setOf a % 1024 < m.scan then some l else if m.op = 0 then some { l with dirty := false } else none)

/-! ### The host port's configuration -/

/-- Configuration writes of the AER registers and of NumVFs take what the rules allow (R517), and a host-port error is logged, reported by
its severity unless masked, and its header recorded while fewer than four are (R540). -/
def ErrorsAreReportedToTheHost : Prop :=
  (∀ s fn v, fn ≤ 256 → v < 2 ^ 32 → s.dev.configGate fn = true →
    (∃ d', exec (.configWrite fn 0x108 v) s = .next { s with dev := d' } ∧ d'.func fn = { s.dev.func fn with aerMask := v }) ∧
    (∃ d', exec (.configWrite fn 0x10C v) s = .next { s with dev := d' } ∧ d'.func fn = { s.dev.func fn with aerSev := v }) ∧
    (∃ d', exec (.configWrite fn 0x104 v) s = .next { s with dev := d' } ∧
      ∀ g e, (g, e) ∈ d'.host.aer ↔ (g, e) ∈ s.dev.host.aer ∧ ¬ (g = fn ∧ e < 32 ∧ bit v e = true)) ∧
    (fn = 0 → s.dev.host.vfEnable = true ∨ 256 < v → exec (.configWrite fn 0x310 v) s = .next s) ∧
    (fn = 0 → s.dev.host.vfEnable = false → v ≤ 256 →
      exec (.configWrite fn 0x310 v) s = .next { s with dev := { s.dev with host := { s.dev.host with numVfs := v } } })) ∧
  ∀ (d : Dev) fn e h,
    let f := d.func fn
    let d' := d.aer fn e (some h)
    let room := (d.host.headers.filter fun x => x.fn = fn).length < 4
    (fn, e) ∈ d'.host.aer ∧
    (bit f.aerMask e = true → d'.out = d.out ∧ d'.host.headers = d.host.headers) ∧
    (bit f.aerMask e = false → d'.out = .errMsg fn e (bit f.aerSev e) :: d.out ∧
      (room → d'.host.headers = d.host.headers ++ [{ h with fn := fn, err := e }]) ∧
      (¬ room → d'.host.headers = d.host.headers ∧ (0, 47) ∈ d'.host.aer))

/-! ### Translation and fault batches -/

/-- PAGE_WALK (R463 to R467): with a cached leaf that passes its checks nothing but the order of the caches changes; on a miss the walk's
leaf is installed in the die's STLB and the engine's µTLB. An uncorrectable error of the die's window table is noted and reloads the
table, and accesses of the die wait until it is (R503). -/
def WalkedLeavesAreInstalled : Prop :=
  (∀ s eng owner va access win w, engineOk eng = true → owner ≤ 256 → va < 2 ^ 52 → access < 4 →
     s.dev.windowAt owner va = some (win, w) → w.home ≠ 3 → permits w.r w.w w.x access = true →
     let die := dieOfEngine eng
     s.dev.tr.reloads.contains die = false →
     (∀ d1 e i w' x, s.dev.tlbFind eng die owner win va = (d1, some e) → leafChecks d1 win w e va access = .dev i w' x →
       exec (.pageWalk eng owner va access .none) s = .next { s with dev := d1 }) ∧
     (∀ d1 d2 e i w' x, s.dev.tlbFind eng die owner win va = (d1, none) → d1.walk die owner win va = (d2, .inl e) →
       leafChecks d2 win w e va access = .dev i w' x →
       exec (.pageWalk eng owner va access .none) s = .next { s with dev := (d2.stlbInstall die va e).utlbInstall eng e })) ∧
  ∀ s eng owner va access, engineOk eng = true → owner ≤ 256 → va < 2 ^ 52 → access < 4 →
    let die := dieOfEngine eng
    (s.dev.tr.reloads.contains die = true → exec (.pageWalk eng owner va access .none) s = .next s) ∧
    (s.dev.tr.reloads.contains die = false → ∀ k, ∃ d', exec (.pageWalk eng owner va access (.word k)) s = .next { s with dev := d' } ∧
      d'.tr = { s.dev.tr with reloads := die :: s.dev.tr.reloads } ∧ d'.mem = s.dev.mem ∧ d'.nave = s.dev.nave ∧
      ((s.dev.errLog 256).entries.length < 8 → ∃ y ∈ (d'.errLog 256).entries, y.cause = 5 ∧ y.sev = .note))

/-- FAULT_BATCH_CLOSE (R485, R486, R487) closes a batch 20 µs after its first record: FAULT_LAST_CLOSED takes its number and the next batch
begins; a write of FAULT_GET or FAULT_RING_BASE takes the value the spec allows and is refused otherwise (R482, R504). -/
def FaultBatchesCloseAndDrain : Prop :=
  (∀ s, (s.dev.tr.batchCount = 0 ∨ s.dev.time < s.dev.tr.batchFirst + 20000) → exec .faultBatchClose s = .next s) ∧
  (∀ s, s.dev.tr.batchCount ≠ 0 → s.dev.tr.batchFirst + 20000 ≤ s.dev.time →
    let line := s.dev.oget O.FAULT_RING_BASE + 262144
    ∃ d', exec .faultBatchClose s = .next { s with dev := d' } ∧ d'.oget O.FAULT_LAST_CLOSED = s.dev.tr.batchSeq ∧
      d'.tr.batchCount = 0 ∧ d'.tr.batchSeq = (if s.dev.tr.batchSeq = 2 ^ 32 - 1 then 1 else s.dev.tr.batchSeq + 1) ∧
      (s.dev.oget O.FAULT_RING_SPACE = 0 ∨ (s.dev.reachable line = true ∧ s.dev.reachable (line + 7) = true) →
        d'.oget O.FAULT_BATCHES = s.dev.oget O.FAULT_BATCHES + 1 ∧ d'.prec = s.dev.prec ∧ d'.tr.ringUnset = s.dev.tr.ringUnset)) ∧
  (∀ s p v, mayWrite s p 0x3420 4 → v < 2 ^ 32 →
    let get := s.dev.oget O.FAULT_GET
    let ahead := fun x => (x + 2 ^ 32 - get) % 2 ^ 32
    (ahead v ≤ ahead (s.dev.oget O.FAULT_PUT) → s.dev.tr.waiting = [] →
      answers (.faultGetWrite p v) s 0 fun d' => d'.oget O.FAULT_GET = v ∧ d'.oget O.FAULT_PUT = s.dev.oget O.FAULT_PUT) ∧
    (ahead (s.dev.oget O.FAULT_PUT) < ahead v → refuses (.faultGetWrite p v) s 6)) ∧
  (∀ s p v, mayWrite s p 0x3420 1 → v < 2 ^ 64 → v % 4096 = 0 →
    (s.dev.oget O.FAULT_PUT = s.dev.oget O.FAULT_GET →
      answers (.faultRingBaseWrite p v) s 0 fun d' => d'.oget O.FAULT_RING_BASE = v ∧ d'.tr.ringUnset = false) ∧
    (s.dev.oget O.FAULT_PUT ≠ s.dev.oget O.FAULT_GET → refuses (.faultRingBaseWrite p v) s 7))

/-! ### The memory controllers -/

/-- HBM_READ, HBM_WRITE and PATROL_SCRUB (R704, R709, R711 to R714, R728, R912): an address that no die's memory holds stops the
machine; quiesced controllers take nothing; a read returns the sector with its poison and changes no byte; a write replaces exactly the masked bytes of one sector, poisoned data mark
it, and only a whole write clears its poison; patrol goes on to the next sector and poisons one that cannot be corrected. -/
def MemorySectorsAreReadAndWritten : Prop :=
  (∀ s dpa, s.dev.homeDie dpa = none → (∀ owner err, owner ≤ 256 ∨ owner = 0x1FF → exec (.hbmRead dpa owner err) s = .fault (.noMemory dpa)) ∧
    ∀ mask data m, mask < 2 ^ 32 → exec (.hbmWrite dpa mask data m) s = .fault (.noMemory dpa)) ∧
  (∀ s dpa, (s.dev.homeDie dpa).isSome = true → s.dev.memQuiet dpa = true →
    (∀ owner err, owner ≤ 256 ∨ owner = 0x1FF → exec (.hbmRead dpa owner err) s = .next s) ∧
    ∀ mask data m, mask < 2 ^ 32 → exec (.hbmWrite dpa mask data m) s = .next s) ∧
  (∀ s dpa owner err, (s.dev.homeDie dpa).isSome = true → (owner ≤ 256 ∨ owner = 0x1FF) → s.dev.memQuiet dpa = false →
    s.dev.reachable dpa = true →
    let r := s.dev.sector (dpa / 32) (dget 0 s.dev.mem.keyOf (dpa / 32))
    ∃ d', exec (.hbmRead dpa owner err) s = .next { s with dev := d' } ∧ d'.mem.cells = s.dev.mem.cells ∧
      d'.out.head? = some (.memData (32 * (dpa / 32)) r.1 (r.2 || decide (err = .uncorrectable))) ∧
      ((r.2 = true ∨ err = .clean) → d'.objs = (s.dev.memWake dpa).objs ∧ d'.logs = s.dev.logs)) ∧
  (∀ s dpa mask data po, memWf s.dev.mem.cells = true → (s.dev.homeDie dpa).isSome = true → mask < 2 ^ 32 →
    s.dev.memQuiet dpa = false →
    (s.dev.reachable dpa = false → exec (.hbmWrite dpa mask data ⟨po, .clean⟩) s = .next s) ∧
    (s.dev.reachable dpa = true →
      let k := dpa / 32
      let key := dget 0 s.dev.mem.keyOf k
      let old := s.dev.sector k key
      ∃ d', exec (.hbmWrite dpa mask data ⟨po, .clean⟩) s = .next { s with dev := d' } ∧
        (∀ j, j ≠ k → d'.sector j (dget 0 d'.mem.keyOf j) = s.dev.sector j (dget 0 s.dev.mem.keyOf j)) ∧
        (mask = 0 → d'.sector k key = old) ∧ (mask ≠ 0 → po = true → (d'.sector k key).2 = true) ∧
        (mask = 2 ^ 32 - 1 → po = false → d'.sector k key = (data.toNat, false)) ∧
        (mask ≠ 0 → mask ≠ 2 ^ 32 - 1 → po = false →
          d'.sector k key = if old.2 = true then old else (mergeBytes 32 mask data.toNat old.1, false)))) ∧
  (∀ s ch, ch < 256 →
    (s.dev.oget (O.TG_STATUS ch) = 1 ∨ s.dev.quiescing (memDomain (ch / 128)) = true → ∀ err, exec (.patrolScrub ch err) s = .next s) ∧
    (s.dev.oget (O.TG_STATUS ch) ≠ 1 → s.dev.quiescing (memDomain (ch / 128)) = false →
      let n := dget 0 s.dev.mem.patrolAt ch
      let next := if n + 1 = 2 * s.dev.pcSectors then 0 else n + 1
      exec (.patrolScrub ch .clean) s =
        .next { s with dev := { s.dev with mem := { s.dev.mem with patrolAt := dset 0 s.dev.mem.patrolAt ch next } } } ∧
      ∀ err, ∃ d', exec (.patrolScrub ch err) s = .next { s with dev := d' } ∧ dget 0 d'.mem.patrolAt ch = next ∧
        d'.mem.cells = s.dev.mem.cells ∧ (err = .uncorrectable → dget false d'.mem.poison (s.dev.patrolDpa ch / 32) = true)))

/-- The upkeep of memory (R721, R724 to R726, R729, R730, R738, R740, Table 15.8): refreshes may lag or lead by 8 intervals; the temperature
band of a stack is entered at its bound and left 3 degrees below it; the fourth parity failure in a row ends in a retraining or
takes the group's data away; retired pages are listed once; TEST and the traffic generators follow their controls. -/
def MemoryIsMaintained : Prop :=
  (∀ s ch bank kind, ch < 256 → bank < 128 → kind < 4 →
    let lag := s.dev.mem.lag ch bank
    ∃ d', exec (.refresh ch bank kind) s = .next { s with dev := d' } ∧ { d' with mem := s.dev.mem } = s.dev ∧
      d'.mem.lag ch bank = (if kind = 1 ∧ lag < 16 then lag + 1 else if kind = 2 ∧ 0 < lag then lag - 1
        else if kind = 0 ∧ 8 < lag then lag - 1 else lag) ∧
      dget 0 d'.mem.refreshed ch = dget 0 s.dev.mem.refreshed ch + (if kind = 1 ∧ lag < 16 then 0 else 1)) ∧
  (∀ s ch, ch < 256 → exec (.strobeRealign ch) s =
    .next { s with dev := { s.dev with mem := { s.dev.mem with strobes := mset s.dev.mem.strobes ch s.dev.time } } }) ∧
  (∀ s ch trained, ch < 256 →
    let n := dget 0 s.dev.mem.parityFails ch + 1
    ∃ d', exec (.caParityRetry ch trained) s = .next { s with dev := d' } ∧
      dget 0 d'.mem.parityFails ch = (if n < 4 then n else 0) ∧
      (n < 4 ∨ trained = true → d'.oget O.CA_PARITY_RETRIES = s.dev.oget O.CA_PARITY_RETRIES + 1 ∧ d'.mem.cells = s.dev.mem.cells) ∧
      (4 ≤ n → trained = false → ∀ a, dget 0 d'.mem.cells a = if groupOf a = groupOfChannel ch then 0 else dget 0 s.dev.mem.cells a)) ∧
  (∀ s stack t, stack < 8 → dget 0 s.dev.mem.band stack ≤ 4 →
    let cur := dget 0 s.dev.mem.band stack
    ∃ d', exec (.stackTempRead stack t) s = .next { s with dev := d' } ∧ d'.mem.cells = s.dev.mem.cells ∧
      (let b := dget 0 d'.mem.band stack
       b ≤ 4 ∧ (∀ k ≤ 4, bandLow k ≤ t → k ≤ b) ∧ (b ≤ cur ∨ bandLow b ≤ t) ∧ (b < cur → t < bandLow (b + 1) - 12))) ∧
  (∀ s p v, mayWrite s p 0x6043 0 → v < 2 ^ 64 →
    let page := bits v 16 24
    let cls := bits v 0 8
    let n := s.dev.oget O.RETIRED_COUNT
    let bad := v / 2 ^ 40 ≠ 0 ∨ bits v 8 8 ≠ 0 ∨ cls = 0 ∨ 4 < cls ∨ s.dev.homeDie (page * 65536) = none
    (bad → refuses (.retireAdd p v) s 6) ∧
    (¬ bad → s.dev.retired page = true → answers (.retireAdd p v) s 0 fun d' => d'.objs = s.dev.objs ∧
      d'.mem.pending = s.dev.mem.pending.filter (fun r => r.page ≠ page)) ∧
    (¬ bad → s.dev.retired page = false → (8192 ≤ n → refuses (.retireAdd p v) s 7) ∧
      (n < 8192 → answers (.retireAdd p v) s 0 fun d' => d'.oget O.RETIRED_COUNT = n + 1 ∧ d'.retired page = true ∧
        d'.oget (O.RETIRED_LIST n) = page * 2 ^ 40 + cls * 2 ^ 32 + s.dev.oget O.POWER_ON_SECONDS / 3600 % 2 ^ 32 ∧
        d'.mem.pending = s.dev.mem.pending.filter (fun r => r.page ≠ page) ∧ d'.mem.cells = s.dev.mem.cells))) ∧
  (∀ s p v, mayWrite s p 0x6042 0 → v < 2 ^ 64 →
    (v = 2 ^ 64 - 1 → answers (.retireAck p v) s 0 fun d' => d'.mem.pending = [] ∧ d'.objs = s.dev.objs) ∧
    (v ≠ 2 ^ 64 - 1 → (v / 2 ^ 40 ≠ 0 ∨ bits v 0 16 ≠ 0) → refuses (.retireAck p v) s 6) ∧
    (v / 2 ^ 40 = 0 → bits v 0 16 = 0 → answers (.retireAck p v) s 0 fun d' => d'.objs = s.dev.objs ∧
      d'.mem.pending = s.dev.mem.pending.filter (fun r => r.page ≠ bits v 16 24))) ∧
  (∀ s p g, mayWrite s p 0x6011 0 → g < 32 → s.dev.memPowered (g / 16) = true →
    (s.dev.oget (O.MEM_GROUP_STATE g) = 2 → refuses (.enterTest p g) s 7) ∧
    (s.dev.oget (O.MEM_GROUP_STATE g) ≠ 2 → answers (.enterTest p g) s 0 fun d' =>
      d' = (s.dev.l2Finish fun a => groupOf (128 * a) = g).oset (O.MEM_GROUP_STATE g) 1) ∧
    (s.dev.oget (O.MEM_GROUP_STATE g) ≠ 1 → refuses (.leaveTest p g) s 7) ∧
    (s.dev.oget (O.MEM_GROUP_STATE g) = 1 → answers (.leaveTest p g) s 0 fun d' => d'.oget (O.MEM_GROUP_STATE g) = 0 ∧
      (∀ ch, ch < 256 → groupOfChannel ch = g → d'.oget (O.TG_STATUS ch) ≠ 1) ∧ d'.l2 = s.dev.l2 ∧ d'.prec = s.dev.prec ∧
      ((∀ ch, ch < 256 → groupOfChannel ch = g → s.dev.oget (O.TG_STATUS ch) ≠ 1) → d' = s.dev.oset (O.MEM_GROUP_STATE g) 0))) ∧
  (∀ s p ch, mayWrite s p (0x6100 + ch) 1 → ch < 256 → s.dev.memPowered (ch / 128) = true →
    let st := s.dev.oget (O.TG_STATUS ch)
    let free := s.dev.oget (O.MEM_GROUP_STATE (groupOfChannel ch)) = 1 ∧ (st = 0 ∨ st = 2)
    (free → answers (.tgStart p ch) s 0 fun d' => d'.oget (O.TG_STATUS ch) = 1 ∧ d'.oget (O.TG_ERRORS ch) = 0 ∧
      d'.oget (O.TG_BYTES ch) = 0 ∧ d'.oget (O.TG_FIRST_ERROR ch) = 0 ∧ (∀ i < 72, d'.oget (O.TG_LANE_ERRORS ch i) = 0) ∧ { d' with objs := s.dev.objs } = s.dev) ∧
    (¬ free → answers (.tgStart p ch) s 0 fun d' => d' = s.dev.oset (O.TG_STATUS ch) 3) ∧
    (st ≠ 1 → answers (.tgStop p ch) s 0 fun d' => d' = s.dev.oset (O.TG_STATUS ch) 2) ∧
    (st = 1 → answers (.tgStop p ch) s 0 fun d' => d'.oget (O.TG_STATUS ch) = 2 ∧ d'.l2 = s.dev.l2 ∧ d'.prec = s.dev.prec)) ∧
  (∀ s ch errs, ch < 256 → errs.all TgErr.ok = true →
    (s.dev.oget (O.TG_STATUS ch) ≠ 1 → exec (.tgDone ⟨ch, errs⟩) s = .next s) ∧
    (s.dev.oget (O.TG_STATUS ch) = 1 → ∃ d', exec (.tgDone ⟨ch, errs⟩) s = .next { s with dev := d' } ∧
      d'.oget (O.TG_STATUS ch) = (if s.dev.oget (O.TG_PASSES ch) = 0 then 1 else 2) ∧ d'.l2 = s.dev.l2 ∧ d'.prec = s.dev.prec ∧
      (s.dev.oget (O.TG_MODE ch) = 1 ∨ 3 ≤ s.dev.oget (O.TG_MODE ch) → d'.mem.cells = s.dev.mem.cells)))

/-! ### The dictionary and the Cantor network -/

/-- Requests over the fabric (R856 to R861, R865, R867, R868): an authentic request is taken into the replay window once, served, and
answered; the same message again, or one with a wrong tag, is dropped and counted. -/
def CantorRequestsAreServedOnce : Prop :=
  (∀ (s : State) (m : CantorMsg) (w : Replay), Authentic s.dev m w → m.resp = false → m.destEp = 0 → cantorBad m = false → s.dev.dict.requests = [] →
    let e := (heard s.dev m w).oinc O.CANTOR_RX_MSGS
    let p : Path := if m.origin = 1 then .tc else .fp m.src
    let home := s.dev.tray.home
    (∀ d2 c, m.op = 2 → e.dictWrite p m.index m.sub m.offset m.byte m.payload = (d2, c) → d2.dict.requests = [] →
      exec (.cantorWrite false m) s = .next { s with dev := (d2.sendCantor (cantorAnswer m c [] 0 0)).trayPump home 24 }) ∧
    (∀ d2 c, m.op = 1 ∨ m.op = 3 → e.dictRead p m.index m.sub m.offset m.byte (m.length + 1) = (d2, .error c) →
      exec (if m.op = 1 then .cantorRead false m else .cantorReadBurst false m) s =
        .next { s with dev := (d2.sendCantor (cantorAnswer m c [] 0 0)).trayPump home 24 }) ∧
    (∀ d2 bs, m.op = 1 → e.dictRead p m.index m.sub m.offset m.byte (m.length + 1) = (d2, .ok bs) → 0 < bs.length →
      bs.length ≤ 256 → exec (.cantorRead false m) s = .next { s with dev := (d2.sendCantor (cantorAnswer m 0 bs 0 0)).trayPump home 24 }) ∧
    (∀ d2 bs, m.op = 3 → e.dictRead p m.index m.sub m.offset m.byte (m.length + 1) = (d2, .ok bs) →
      let n := cdiv bs.length 256
      exec (.cantorReadBurst false m) s = .next { s with dev :=
        ((rangeFrom 0 n).foldl (fun (d : Dev) (k : Nat) =>
          d.sendCantor (cantorAnswer m 0 ((bs.drop (256 * k)).take 256) k (n - 1))) d2).trayPump home 24 })) ∧
  (∀ (s : State) (m : CantorMsg) (w : Replay), Authentic s.dev m w → m.resp = false → (m.op = 1 ∨ m.op = 2 ∨ m.op = 3) → s.dev.dict.requests = [] →
    (s.dev.slot s.dev.tray.home).queue = [] →
    let d := heard s.dev m w
    ∃ d', exec (if m.op = 1 then .cantorRead false m else if m.op = 2 then .cantorWrite false m else .cantorReadBurst false m)
        { s with dev := d } = .next { s with dev := d' } ∧
      d'.oget O.CANTOR_DROPS_REPLAY = d.oget O.CANTOR_DROPS_REPLAY + 1 ∧ d'.oget O.CANTOR_RX_MSGS = d.oget O.CANTOR_RX_MSGS ∧
      d'.out = d.out ∧ d'.mem = d.mem ∧ d'.prec = d.prec) ∧
  (∀ (s : State) (m : CantorMsg), s.dev.engineUp = true → s.dev.keyLoaded = true → s.dev.oget O.CANTOR_ENABLE ≠ 0 → s.dev.idValid = true →
    m.dest = s.dev.oget O.CHIP_ID → m.tag ≠ cantorMac m s.dev.dict.key → m.op = 2 → m.resp = false → s.dev.dict.requests = [] →
    (s.dev.slot s.dev.tray.home).queue = [] →
    ∃ d', exec (.cantorWrite false m) s = .next { s with dev := d' } ∧
      d'.oget O.CANTOR_DROPS_AUTH = s.dev.oget O.CANTOR_DROPS_AUTH + 1 ∧ d'.dict.windows = s.dev.dict.windows ∧
      d'.out = s.dev.out ∧ d'.mem = s.dev.mem ∧ d'.prec = s.dev.prec)

/-- The host mailbox, relays, timers and NOTIFY (R861 to R863, R866, R868, R869): a message of CANTOR_TX waits for its response, which
ends the wait; a message for the tray leaves on the I3C port stamped anew, one from it goes on as the chip's; NOTIFY coalesces
within a millisecond. -/
def CantorMessagesComeAndGo : Prop :=
  (∀ s p dest ep op byte len sub index off payload, mayWrite s p 0x1120 1 → dest < 4096 → ep < 3 → 1 ≤ op → op ≤ 4 → byte < 8 →
    len < 4096 → sub < 256 → index < 65536 → off < 2 ^ 32 → (op ≤ 2 → len < 256) →
    payload.length = (if op = 2 then len + 1 else if op = 4 then 32 else 0) →
    let m := { cantorZero with dest := dest, destEp := ep, op := op, byte := byte, length := len, sub := sub, index := index, offset := off,
                               payload := payload }
    (s.dev.oget O.CANTOR_TX_STATUS = 1 → refuses (.cantorTx p m) s 7) ∧
    (s.dev.oget O.CANTOR_TX_STATUS ≠ 1 → answers (.cantorTx p m) s 0 fun d' =>
      d'.oget O.CANTOR_TX_STATUS = (if op = 4 then 2 else 1) ∧ d'.mem = s.dev.mem ∧
      (op ≠ 4 → d'.dict.waits = [⟨if s.dev.dict.count < 2 ^ 32 then s.dev.dict.count else 1, dest,
        s.dev.time + 1000 * s.dev.oget O.CANTOR_TIMEOUT⟩]))) ∧
  (∀ s p, mayWrite s p 0x1120 5 →
    answers (.cantorRxPop p) s 0 fun d' => d' = { s.dev with dict := { s.dev.dict with inbound := s.dev.dict.inbound.drop 1 } }) ∧
  (∀ (s : State) (m : CantorMsg) (w : Replay), Authentic s.dev m w → m.resp = true → m.destEp = 2 → m.part = m.lastPart → s.dev.dict.inbound.length < 16 →
    s.dev.dict.requests = [] → (s.dev.slot s.dev.tray.home).queue = [] →
    ∃ d', exec (.cantorResponse false m) s = .next { s with dev := d' } ∧
      ((∃ x ∈ s.dev.dict.waits, x.count = m.echo ∧ x.dest = m.src) → d'.oget O.CANTOR_TX_STATUS = 2 ∧
        d'.dict.inbound = s.dev.dict.inbound ++ [{ m with tag := 0 }] ∧ ∀ x ∈ d'.dict.waits, x.count ≠ m.echo) ∧
      ((∀ x ∈ s.dev.dict.waits, ¬ (x.count = m.echo ∧ x.dest = m.src)) → d'.dict.inbound = s.dev.dict.inbound ∧
        d'.oget O.CANTOR_DROPS_OTHER = s.dev.oget O.CANTOR_DROPS_OTHER + 1)) ∧
  (∀ (s : State) (m : CantorMsg) (w : Replay), Authentic s.dev m w → m.destEp = 1 → s.dev.tray.down = true → s.dev.dict.requests = [] → s.dev.dict.count < 2 ^ 32 →
    let n := { m with boot := s.dev.oget O.CANTOR_BOOT, count := s.dev.dict.count }
    ∃ d', exec (.i3cRelay false m) s = .next { s with dev := d' } ∧ d'.out = .cantor { n with tag := cantorMac n s.dev.dict.key } :: s.dev.out ∧
      d'.dict.count = s.dev.dict.count + 1 ∧ d'.oget O.CANTOR_TX_MSGS = s.dev.oget O.CANTOR_TX_MSGS + 1) ∧
  (∀ (s : State) (m : CantorMsg) (w : Replay), s.dev.engineUp = true → s.dev.keyLoaded = true → s.dev.oget O.CANTOR_ENABLE ≠ 0 → m.tag = cantorMac m s.dev.dict.key →
    (match mget s.dev.dict.windows 4096 with
      | none => some (Replay.mk m.boot m.count 1)
      | some w => w.accept m.boot m.count) = some w →
    m.dest ≠ s.dev.oget O.CHIP_ID → s.dev.idValid = true → s.dev.dict.requests = [] →
    exec (.i3cRelay true m) s = .next { s with dev :=
      (Dev.sendCantor { s.dev with dict := { s.dev.dict with windows := mset s.dev.dict.windows 4096 w } }
        { m with src := s.dev.oget O.CHIP_ID, srcEp := 1, origin := 1 }).trayPump s.dev.tray.home 24 }) ∧
  (∀ (s : State) c, (∃ x ∈ s.dev.dict.waits, x.count = c ∧ x.deadline ≤ s.dev.time) →
    ∃ d', exec (.cantorTimeoutExpiry c) s = .next { s with dev := d' } ∧ d'.oget O.CANTOR_TX_STATUS = 3 ∧
      d'.dict.waits = s.dev.dict.waits.filter (fun x => x.count ≠ c)) ∧
  (∀ (s : State) c, (∀ x ∈ s.dev.dict.waits, x.count = c → s.dev.time < x.deadline) → exec (.cantorTimeoutExpiry c) s = .next s) ∧
  (∀ (s : State) (n : NotifyArg) i, 1 ≤ n.event → n.event ≤ 8 → n.cause < 256 → n.detail < 256 → n.sev < 4 → n.index < 65536 → n.sub < 256 → i < 8 →
    s.dev.boot.running.isSome = true → (∀ j < 8, j ≠ i → bit (s.dev.oget (O.NOTIFY_TARGET j)) 15 = false) →
    let v := s.dev.oget (O.NOTIFY_TARGET i)
    let k := 8 * n.event + i
    let on := bit v 15 = true ∧ bit v (15 + n.event) = true
    (¬ on → exec (.notify n) s = .next s) ∧
    (∀ t, on → mget s.dev.dict.notified k = some t → s.dev.time < t + 1000000 → ∃ d', exec (.notify n) s = .next { s with dev := d' } ∧
      d'.oget O.NOTIFY_COALESCED = s.dev.oget O.NOTIFY_COALESCED + 1 ∧ dget 0 d'.dict.coalesced k = dget 0 s.dev.dict.coalesced k + 1 ∧
      d'.out = s.dev.out) ∧
    (on → mget s.dev.dict.notified k = none → s.dev.keyLoaded = true → ∃ d', exec (.notify n) s = .next { s with dev := d' } ∧
      mget d'.dict.notified k = some s.dev.time ∧ mget d'.dict.coalesced k = none ∧
      d'.oget O.NOTIFY_SENT = s.dev.oget O.NOTIFY_SENT + 1 ∧ d'.mem = s.dev.mem ∧ d'.prec = s.dev.prec))

/-! ### Links -/

/-- Links train and go down (R746 to R751, R758, R790, Tables 16.3 and 16.4). -/
def LinksTrainAndGoDown : Prop :=
  (∀ s l, l < 20 → s.dev.linkPowered l = true → s.dev.oget (O.LINK_ENABLE l) ≠ 0 →
    (s.dev.oget (O.LINK_STATE l) = 1 → ∃ d', exec (.linkSignalDetect l true) s = .next { s with dev := d' } ∧
      d'.oget (O.LINK_STATE l) = 2 ∧ d'.oget (O.TRAINS l) = s.dev.oget (O.TRAINS l) + 1 ∧ (d'.link l).signal = true ∧
      (d'.link l).partner = none) ∧
    (s.dev.oget (O.LINK_STATE l) = 2 → ∃ d', exec (.linkSignalDetect l false) s = .next { s with dev := d' } ∧
      d'.oget (O.LINK_STATE l) = 1 ∧ (d'.link l).signal = false) ∧
    (s.dev.oget (O.LINK_STATE l) ≠ 1 → exec (.linkSignalDetect l true) s =
      .next { s with dev := s.dev.onLink l fun k => { k with signal := true } })) ∧
  (∀ (s : State) l (h : Handshake), l < 20 → h.chip < 4096 → h.link < 20 →
    (s.dev.oget (O.LINK_STATE l) ≠ 2 → exec (.handshake l h) s = .next s) ∧
    (s.dev.oget (O.LINK_STATE l) = 2 → ∃ d', exec (.handshake l h) s = .next { s with dev := d' } ∧ (d'.link l).partner = some h ∧
      d'.oget (O.PARTNER l) = h.chip + b2n h.valid * 2 ^ 12 + h.link * 2 ^ 16 ∧ ((d'.link l).seen = ((s.dev.link l).seen || h.seen)) ∧
      d'.out.length = s.dev.out.length + (if (s.dev.link l).told && (s.dev.link l).seen then 0 else 1))) ∧
  (∀ s l delay asym h, l < 20 → s.dev.oget (O.LINK_STATE l) = 2 →
    (((s.dev.link l).partner = some h → (s.dev.link l).seen = true → (s.dev.link l).told = true →
      ∃ d', exec (.linkTraining l true delay asym) s = .next { s with dev := d' } ∧ d'.oget (O.LINK_STATE l) = 3 ∧
        d'.oget (O.LINK_DELAY l) = delay % 2 ^ 32)) ∧
    (let fails := s.dev.time :: (s.dev.link l).fails.filter fun t => s.dev.time < t + 1000000000
     (fails.length < 3 → exec (.linkTraining l false delay asym) s = .next { s with dev := s.dev.onLink l fun k =>
       { k with fails := fails, partner := none, seen := false, told := false } }) ∧
     (3 ≤ fails.length → ∃ d', exec (.linkTraining l false delay asym) s = .next { s with dev := d' } ∧ d'.oget (O.LINK_STATE l) = 4))) ∧
  (∀ s l, l < 20 →
    (s.dev.up l = false → s.dev.fab.ops = [] → exec (.linkDown l) s = .next s) ∧
    (s.dev.up l = true → s.dev.fab.ops = [] → ∃ d', exec (.linkDown l) s = .next { s with dev := d' } ∧
      d'.oget (O.DOWNS l) = s.dev.oget (O.DOWNS l) + 1 ∧ d'.mem = s.dev.mem ∧
      d'.oget (O.LINK_STATE l) = if s.dev.linkPowered l = false then 5 else if s.dev.oget (O.LINK_ENABLE l) = 0 then 0
        else if (s.dev.link l).signal then 2 else 1)) ∧
  (∀ s p l, mayWrite s p (0x7100 + l) 1 → l < 20 →
    (s.dev.up l = false → answers (.linkEnableWrite p l 0) s 0 fun d' => d'.oget (O.LINK_ENABLE l) = 0 ∧
      d'.oget (O.LINK_STATE l) = (if s.dev.linkPowered l then 0 else 5) ∧ { d' with objs := s.dev.objs } = s.dev) ∧
    (s.dev.up l = true → answers (.linkEnableWrite p l 0) s 0 fun d' => d'.oget (O.LINK_ENABLE l) = 0 ∧
      d'.oget (O.LINK_STATE l) = if s.dev.linkPowered l then 0 else 5) ∧
    (s.dev.oget (O.LINK_STATE l) = 0 → s.dev.linkPowered l = true → answers (.linkEnableWrite p l 1) s 0 fun d' =>
      d'.oget (O.LINK_ENABLE l) = 1 ∧ d'.oget (O.LINK_STATE l) = if (s.dev.link l).signal then 2 else 1) ∧
    (s.dev.oget (O.LINK_STATE l) ≠ 0 → answers (.linkEnableWrite p l 1) s 0 fun d' => d' = s.dev.oset (O.LINK_ENABLE l) 1))

/-- Flits (R754, R755, R760): a flit lost or broken is not taken and asks for a replay; an intact one in order is taken once; one taken
before is acknowledged again; a replay sends every unacknowledged flit again, in order. -/
def FlitsAreReceivedAndReplayed : Prop :=
  (∀ (s : State) l (f : Flit) e, l < 20 → s.dev.up l = false → s.dev.oget (O.LINK_STATE l) ≠ 2 → s.dev.fab.inbox = [] →
    exec (.flitReceive l f e) s = .next s) ∧
  (∀ (s : State) l (f : Flit) e, quietLink s.dev l → s.dev.fab.inbox = [] → f.lost = false → f.crc ≠ flitCheck f →
    ∃ d', exec (.flitReceive l f e) s = .next { s with dev := d' } ∧ (d'.link l).nak = true ∧ (d'.link l).rxAck = (s.dev.link l).rxAck ∧
      (d'.link l).replay = (s.dev.link l).replay ∧ d'.mem = s.dev.mem) ∧
  (∀ (s : State) l (f : Flit), quietLink s.dev l → s.dev.fab.inbox = [] → f.lost = false → f.crc = flitCheck f → (f.type = 1 ∨ f.type = 2) →
    f.seq < 4096 → f.vc < 8 →
    let k := s.dev.link l
    let ahead := (f.seq + 4096 - k.rxAck) % 4096
    ∃ d', exec (.flitReceive l f .none) s = .next { s with dev := d' } ∧ d'.mem = s.dev.mem ∧
      (f.seq = (k.rxAck + 1) % 4096 → (d'.link l).rxAck = f.seq ∧ (d'.link l).nak = false ∧
        d'.oget (O.RX_FLITS l) = s.dev.oget (O.RX_FLITS l) + 1 ∧ ∃ x ∈ (d'.link l).parts, x.vc = f.vc) ∧
      (f.seq ≠ (k.rxAck + 1) % 4096 → (d'.link l).rxAck = k.rxAck ∧ d'.oget (O.RX_FLITS l) = s.dev.oget (O.RX_FLITS l) ∧
        (d'.link l).parts = k.parts ∧
        (d'.link l).nak = (k.nak || decide (ahead ≤ 2048 ∧ f.seq ≠ k.rxAck)))) ∧
  (∀ s l t f rest, l < 20 → s.dev.up l = true → (s.dev.link l).replay = (t, f) :: rest →
    ((s.dev.link l).replaySeq = f.seq → (s.dev.link l).replayRun < 7) →
    ((s.dev.link l).asked = true → ∃ d', exec (.flitReplay l) s = .next { s with dev := d' } ∧ replayed s.dev d' l ∧
      (d'.link l).asked = false) ∧
    ((s.dev.link l).asked = false → exec (.flitReplay l) s = .next s) ∧
    (t + 2000 ≤ s.dev.time → ∃ d', exec (.replayTimeout l) s = .next { s with dev := d' } ∧ replayed s.dev d' l) ∧
    (s.dev.time < t + 2000 → exec (.replayTimeout l) s = .next s))

/-- The router (R761, R764 to R770, R784): a packet that may go on waits for its link with one more hop, or is sent when it holds the credits and
nothing is before it; a packet that no output takes is dropped and counted. -/
def PacketsAreRoutedOrDropped : Prop :=
  (∀ (s : State) (p : FPacket) l vc, fpBad p = false → (s.dev.idValid = true → p.dest ≠ s.dev.oget O.CHIP_ID) →
    s.dev.forward p = .inl (l, vc) → l < 20 → s.dev.fab.inbox = [] →
    let q : QPacket := ⟨vc, 20, 0, 0, 0, { p with hops := p.hops + 1 }⟩
    ((∀ x ∈ (s.dev.link l).waiting ++ [q], (s.dev.link l).canSend x = false) → ∃ d', exec (.packetRoute 20 p .none) s = .next { s with dev := d' } ∧
      (d'.link l).waiting = (s.dev.link l).waiting ++ [q] ∧ d'.oget O.ROUTE_DROPS = s.dev.oget O.ROUTE_DROPS) ∧
    (s.dev.quiescing (linkDomain l) = false → (s.dev.link l).waiting = [] → (s.dev.link l).canSend q = true → (s.dev.link l).ded.length = 8 → vc < 8 →
      ∃ d', exec (.packetRoute 20 p .none) s = .next { s with dev := d' } ∧ (d'.link l).waiting = [] ∧
        (d'.link l).replay.length = (s.dev.link l).replay.length + p.flits ∧
        at0 (d'.link l).ded vc + (d'.link l).shared + p.flits = at0 (s.dev.link l).ded vc + (s.dev.link l).shared ∧
        d'.out.length = s.dev.out.length + p.flits)) ∧
  (∀ (s : State) (p : FPacket) c r port, fpBad p = false → (s.dev.idValid = true → p.dest ≠ s.dev.oget O.CHIP_ID) →
    s.dev.forward p = .inr (c, r, port) → s.dev.wantsError p = false → s.dev.fab.inbox = [] →
    ∃ d', exec (.packetRoute 20 p .none) s = .next { s with dev := d' } ∧ d'.oget O.ROUTE_DROPS = s.dev.oget O.ROUTE_DROPS + 1 ∧
      d'.out = s.dev.out ∧ d'.mem = s.dev.mem) ∧
  (∀ (s : State) (p : FPacket), p.cls = 4 →
    let hdr := leNat ((p.content.drop 8).take 16)
    let n := leNat ((p.content.drop 24).take 16)
    let named := fun (o : FabOp) => o.owner = p.owner && o.opseq = bits n 32 32 &&
      (if bits n 0 8 = 8 then o.opc = 6 else o.opc ≠ 6 && o.group = bits n 16 16 && o.attempt = bits n 64 8)
    ((bits hdr 40 8 ≠ 1 ∨ s.dev.fab.ops.find? named = none ∨ (bits n 0 8 ≠ 4 ∧ bits n 0 8 ≠ 8)) → exec (.errorPacketReceive p) s = .next s) ∧
    (∀ o, bits hdr 40 8 = 1 → s.dev.fab.ops.find? named = some o → (bits n 0 8 = 4 ∨ bits n 0 8 = 8) →
      ∃ d', exec (.errorPacketReceive p) s = .next { s with dev := d' } ∧ d'.oget O.OPS_FAILED = s.dev.oget O.OPS_FAILED + 1 ∧
        d'.fab.ops = s.dev.fab.ops.filter (fun x => x.order ≠ o.order)))

/-! ### Fabric operations -/

/-- The packets of a fabric operation (R804, R805, R810 to R813, R815, R819, R824): each that reaches an operation in its present attempt has
its effect on it; an ENTER that comes before its operation is kept, one of an operation that is over is not; barriers pass at their release time, and time limits end what
waits too long. -/
def FabricOperationsExchangePackets : Prop :=
  (∀ s p o x, Reaches s 1 p o x → o.phase = 1 → leNat ((opLoad p).take 16) % 2 ^ 120 = o.key →
    let me := 2 * (opHdrOf p).src + leNat ((opLoad p).take 16) / 2 ^ 120 % 2
    me ∉ o.entered → (∃ c ∈ o.kids o.rank, 2 * c ∉ o.entered ++ [me]) →
    exec (.enter p) s = .next (onlyOp s o.order fun o => { o with entered := o.entered ++ [me] })) ∧
  (∀ (s : State) (p : FPacket), (opHdrOf p).kind = 1 → 1 ≤ p.cls → p.cls ≤ 3 → s.dev.ownerLive p.owner = true → s.dev.fab.inbox = [] →
    s.dev.fab.ops.find? (fun o => (opHdrOf p).names p.owner o) = none →
    let last := dget 0 s.dev.fab.opseq (65536 * p.owner + (opHdrOf p).group)
    ((opHdrOf p).opseq ≤ last → exec (.enter p) s = .next s) ∧
    (last < (opHdrOf p).opseq → p ∉ s.dev.fab.early → s.dev.fab.early.length < 1024 → exec (.enter p) s =
      .next { s with dev := { s.dev with fab := { s.dev.fab with early := s.dev.fab.early ++ [p] } } }) ∧
    (last < (opHdrOf p).opseq → 1024 ≤ s.dev.fab.early.length → exec (.enter p) s = .next { s with dev := s.dev.oinc O.EARLY_FULL_DROPS })) ∧
  (∀ s p o x, Reaches s 2 p o x → (o.phase = 1 ∨ o.phase = 3) → o.release = none → o.kids o.rank = [] →
    let t := leNat ((opLoad p).take 8)
    s.dev.time ≤ t → exec (.release p) s = .next (onlyOp s o.order fun o => { o with release := some t })) ∧
  (∀ s p o x, Reaches s 3 p o x → (opHdrOf p).fatal = false → o.rank ≠ 0 → (opHdrOf p).src = reParent (o.entry o.rank) →
    o.kids o.rank = [] → s.dev.fab.early = [] →
    ∃ d', exec (.abortCmd p) s = .next { s with dev := d' } ∧ d'.oget O.ATTEMPTS_ABORTED = s.dev.oget O.ATTEMPTS_ABORTED + 1 ∧
      d'.mem = s.dev.mem ∧ (o.phase = 4 → d'.op o.order = some o) ∧
      (o.phase ≠ 4 → ∃ y, d'.op o.order = some y ∧ y.attempt = (o.attempt + 1) % 256 ∧ y.phase = 1 ∧ y.since = s.dev.time ∧ y.vals = [] ∧
        y.release = none ∧ y.sentAt = some s.dev.time)) ∧
  (∀ s p o x, Reaches s 3 p o x → (opHdrOf p).fatal = true → (opHdrOf p).group ≠ 0 →
    ∃ d', exec (.abortCmd p) s = .next { s with dev := d' } ∧ d'.fab.ops = s.dev.fab.ops.filter (fun y => y.order ≠ o.order) ∧
      d'.oget O.OPS_FAILED = s.dev.oget O.OPS_FAILED + 1) ∧
  (∀ s p o x, Reaches s 4 p o x →
    (o.phase < 2 ∨ o.phase = 4 → exec (.pull p) s = .next (onlyOp s o.order fun o => { o with serve := o.serve ++ [p] })) ∧
    (∀ d1 ls, o.phase = 2 ∨ o.phase = 3 → o.serve = [] → p.src ≠ s.dev.oget O.CHIP_ID →
      let h := opHdrOf p
      let bs := boxBits o.src h.lead h.row h.col h.rows h.cols
      (s.dev.onOp o.order fun o => { o with serve := o.serve ++ [p] }).opRead x o (elementPages (bs.map some)) (linesOf (bs.map some)) =
        (d1, .lines ls) →
      d1.fab.inbox = [] → ∃ d', exec (.pull p) s = .next { s with dev := d' } ∧
        d'.oget O.PULL_BYTES_SERVED = d1.oget O.PULL_BYTES_SERVED + cdiv (tdBits o.src * (h.rows * h.cols)) 8 ∧ d'.mem = d1.mem)) ∧
  (∀ s p o x q d1, Reaches s 5 p o x → o.phase = 2 → o.filled = true → o.todo = [] → o.pulls.length ≠ 1 →
    (let h := opHdrOf p
     o.pulls.find? (fun q => q.src = h.src && q.lead = h.lead && q.srow = h.row && q.scol = h.col && q.rows = h.rows && q.cols = h.cols)) = some q →
    (∃ l, s.dev.storeBox x o q (unpackVals (tdBits o.dst) (q.rows * q.cols) (opLoad p)) = (d1, .lines l)) → d1.op o.order = some o →
    (∀ y ∈ d1.fab.ops, y.opc = 7 → y.phase = 2 → y.order = o.order) →
    d1.fab.inbox = [] →
    ∃ d', exec (.data p) s = .next { s with dev := d' } ∧ d'.mem = d1.mem ∧ d'.l2 = d1.l2 ∧
      d'.oget O.PULL_BYTES_IN = d1.oget O.PULL_BYTES_IN + cdiv (tdBits o.dst * (q.rows * q.cols)) 8 ∧
      d'.op o.order = some { o with pulls := o.pulls.erase q }) ∧
  (∀ s p o x, Reaches s 6 p o x → (o.op ≠ 4 ∨ o.rank = 0) → o.phase ≠ 2 →
    let h := opHdrOf p
    let vs := (unpackVals o.width h.cols (opLoad p)).zipIdx.map fun e => (h.col + e.2, e.1.1, e.1.2)
    exec (.up p) s = .next (onlyOp s o.order fun o => { o with vals := mset o.vals h.src (dget [] o.vals h.src ++ vs) })) ∧
  (∀ s p o x, Reaches s 7 p o x → o.phase ≠ 2 →
    let h := opHdrOf p
    let vs := (unpackVals o.width h.cols (opLoad p)).zipIdx.map fun e => (h.col + e.2, e.1.1, e.1.2)
    exec (.down p) s = .next (onlyOp s o.order fun o => { o with result := o.result ++ vs })) ∧
  (∀ (s : State) (p : FPacket) d1 i w, (opHdrOf p).kind = 8 → 1 ≤ p.cls → p.cls ≤ 3 → s.dev.ownerLive p.owner = true → s.dev.fab.inbox = [] →
    p.src ≠ s.dev.oget O.CHIP_ID →
    let va := leNat ((opLoad p).take 8)
    let die := match s.dev.windowAt p.owner va with
      | some (_, w) => if w.home = 1 then 1 else 0
      | none => 0
    s.dev.vaWrite (0x2000 + die) p.owner va (((opLoad p).drop 8).take (opHdrOf p).cols) false = (d1, .ok i w) → d1.fab.inbox = [] →
    ∃ d', exec (.write p) s = .next { s with dev := d' } ∧ d'.mem = d1.mem ∧ d'.l2 = d1.l2 ∧ d'.tr = d1.tr) ∧
  (∀ (s : State) (p : FPacket) o x, (opHdrOf p).kind = 9 → 1 ≤ p.cls → p.cls ≤ 3 → s.dev.ownerLive p.owner = true → s.dev.fab.inbox = [] →
    s.dev.fab.ops.find? (fun o => o.opc = 6 && o.owner = p.owner && o.opseq = (opHdrOf p).opseq) = some o → s.dev.node o.order = some x →
    s.dev.op o.order = some o → (opHdrOf p).detail = 0 → cpLength x.body ≤ o.next →
    (1 < o.acks → exec (.ack p) s = .next (onlyOp s o.order fun o => { o with acks := o.acks - 1 })) ∧
    (o.acks = 1 → ∃ d', exec (.ack p) s = .next { s with dev := d' } ∧ d'.oget O.OPS_DONE = s.dev.oget O.OPS_DONE + 1 ∧
      d'.fab.ops = s.dev.fab.ops.filter (fun y => y.order ≠ o.order))) ∧
  (∀ (s : State) k o x, s.dev.op k = some o → s.dev.node k = some x → s.dev.fab.inbox = [] →
    ((o.release = none ∨ ∃ t, o.release = some t ∧ s.dev.time < t) → exec (.barrierPass k) s = .next s) ∧
    (∀ t, o.release = some t → t ≤ s.dev.time → (o.phase = 3 ∨ (o.phase = 1 ∧ o.opc = 8 ∧ o.op = 0)) →
      ∃ d', exec (.barrierPass k) s = .next { s with dev := d' } ∧ d'.oget O.OPS_DONE = s.dev.oget O.OPS_DONE + 1 ∧
        d'.fab.ops = s.dev.fab.ops.filter (fun y => y.order ≠ k))) ∧
  (∀ (s : State) k o t, s.dev.op k = some o → o.sentAt = some t →
    (s.dev.time < t + 10000 → exec (.enterResend k) s = .next s) ∧
    (t + 10000 ≤ s.dev.time → (o.phase = 1 ∨ o.phase = 3) → o.release = none → ∃ d', exec (.enterResend k) s = .next { s with dev := d' } ∧
      d'.op k = some { o with sentAt := some s.dev.time } ∧ d'.mem = s.dev.mem)) ∧
  (∀ (s : State) k o, s.dev.op k = some o → o.release = none →
    (s.dev.time < o.since + 1000000 * o.limit → exec (.opTimeoutExpiry k) s = .next s) ∧
    (o.since + 1000000 * o.limit ≤ s.dev.time → (o.phase = 1 ∨ o.phase = 3) →
      ∃ d', exec (.opTimeoutExpiry k) s = .next { s with dev := d' } ∧ d'.oget O.OPS_FAILED = s.dev.oget O.OPS_FAILED + 1 ∧
        d'.oget O.TIMER_EXPIRIES = s.dev.oget O.TIMER_EXPIRIES + 1 ∧ d'.fab.ops = s.dev.fab.ops.filter (fun y => y.order ≠ k)))

/-! ### Power -/

/-- Clocks, voltages and the adaptive loops (R893 to R907): no clock passes the safe ceiling and no rail lies below what its clock needs; rails
move by 5 mV; currents, droops, thresholds and idle octants are answered as their rules say. -/
def ClocksAndRailsStayInBounds : Prop :=
  (∀ s k, k < 8 →
    (s.dev.oget (O.PD_STATE (octDomain k)) ≠ 2 → exec (.clockLoop k) s = .next s) ∧
    (s.dev.oget (O.PD_STATE (octDomain k)) = 2 → ∃ d', exec (.clockLoop k) s = .next { s with dev := d' } ∧
      d'.oget (O.OCT_CLOCK k) ≤ s.dev.safeCeiling k ∧ d'.vsafe k (d'.oget (O.OCT_CLOCK k)) ≤ d'.oget (O.OCT_VOLT k) ∧
      d'.mem = s.dev.mem ∧ d'.nave = s.dev.nave ∧ d'.prec = s.dev.prec)) ∧
  (∀ s k margin, k < 8 → s.dev.oget (O.PD_STATE (octDomain k)) = 2 → mget s.dev.life.pendingRaise k = none →
    s.dev.oget (O.VOLT_FREEZE k) ≠ 1 →
    let v := s.dev.oget (O.OCT_VOLT k)
    let safe := s.dev.vsafe k (s.dev.oget (O.OCT_CLOCK k))
    let boost := s.dev.power.boost.contains k && decide (s.dev.oget O.DROOP_FREEZE = 0)
    ∃ d', exec (.voltageLoop k margin) s = .next { s with dev := d' } ∧ d'.oget (O.OCT_VOLT k) =
      max safe (min (if boost = true ∨ margin < (s.dev.oget O.VOLT_MARGIN : Int) then v + 5
        else if (s.dev.oget O.VOLT_MARGIN : Int) < margin then v - 5 else v) (s.dev.oget O.VOLT_CEILING))) ∧
  (∀ s k drop clocks, k < 8 →
    (s.dev.oget (O.PD_STATE (octDomain k)) ≠ 2 ∨ drop < s.dev.oget O.DROOP_MARGIN → exec (.droopStretch k drop clocks) s = .next s) ∧
    (s.dev.oget (O.PD_STATE (octDomain k)) = 2 → s.dev.oget O.DROOP_MARGIN ≤ drop →
      ∃ d', exec (.droopStretch k drop clocks) s = .next { s with dev := d' } ∧
        d'.oget O.DROOP_STRETCHES = s.dev.oget O.DROOP_STRETCHES + 1 ∧
        dget 0 d'.power.stretched k = dget 0 s.dev.power.stretched k + max 32 clocks)) ∧
  (∀ s k, k < 8 → ∃ d', exec (.droopThreshold k) s = .next { s with dev := d' } ∧ { d' with power := s.dev.power } = s.dev ∧
    dget 0 d'.power.stretched k = 0 ∧ (k ∈ d'.power.boost ↔ k ∈ s.dev.power.boost ∨
      (10 * s.dev.oget (O.OCT_CLOCK k) < dget 0 s.dev.power.stretched k ∧ s.dev.oget O.DROOP_FREEZE = 0))) ∧
  (∀ s ch lane (dir : Int), ch < 256 → lane < 72 → s.dev.oget (O.VREF_FREEZE (ch / 128)) ≠ 1 →
    ((dget [] s.dev.mem.recent ch).filter fun t => s.dev.time < t + 1000000000).length ≤ 64 →
    s.dev.power.clamps.contains (5 * 65536 + 6 * 256 + ch) = false → s.dev.power.clamps.contains (5 * 65536 + 7 * 256 + ch) = false →
    let key := 128 * ch + lane
    let v := min ((dget 64 s.dev.power.vref key : Nat) + max (-1) (min 1 dir)).toNat 127
    ∃ d', exec (.thresholdLoop ch lane dir) s = .next { s with dev := d' } ∧ { d' with power := s.dev.power } = s.dev ∧
      dget 64 d'.power.vref key = max (s.dev.oget (O.VREF_MIN (ch / 128))) (min v (s.dev.oget (O.VREF_MAX (ch / 128))))) ∧
  (∀ s k, k < 8 →
    (s.dev.oget O.PARK_FREEZE = 1 → exec (.placementLoop k) s = .next s) ∧
    (s.dev.oget O.PARK_FREEZE ≠ 1 → s.dev.oget (O.PD_STATE (octDomain k)) = 2 → s.dev.parkAllowed k = true → s.dev.octBusy k = false →
      dget 0 s.dev.power.busyAt k + 1000 * s.dev.oget O.PARK_DELAY ≤ s.dev.time → exec (.placementLoop k) s =
        .next { s with dev := (s.dev.oset (O.PD_STATE (octDomain k)) 3).oset (O.OCT_VOLT k) 500 }) ∧
    (s.dev.oget O.PARK_FREEZE ≠ 1 → s.dev.oget (O.PD_STATE (octDomain k)) = 3 → s.dev.parkAllowed k = false →
      ∃ d', exec (.placementLoop k) s = .next { s with dev := d' } ∧ d'.oget (O.PD_STATE (octDomain k)) = 2 ∧
        d'.vsafe k (d'.oget (O.OCT_CLOCK k)) ≤ d'.oget (O.OCT_VOLT k))) ∧
  (∀ s k amps, k < 8 →
    let c := s.dev.currentCeiling k
    let last := dget 0 s.dev.power.currentAt k
    (180 < amps → k ∉ s.dev.power.overload → ∃ d', exec (.currentLimit k amps) s = .next { s with dev := d' } ∧
      d'.currentCeiling k = min 1250 (max 400 (min c (s.dev.oget (O.OCT_CLOCK k)) - 25)) ∧ k ∈ d'.power.overload ∧
      { d' with power := s.dev.power } = s.dev) ∧
    (amps ≤ 180 → k ∉ s.dev.power.overload → c < 1250 → last + 1000000 ≤ s.dev.time →
      ∃ d', exec (.currentLimit k amps) s = .next { s with dev := d' } ∧ d'.currentCeiling k = min 1250 (max 400 (c + 25)) ∧
        { d' with power := s.dev.power } = s.dev) ∧
    (amps ≤ 180 → k ∉ s.dev.power.overload → (1250 ≤ c ∨ s.dev.time < last + 1000000) →
      exec (.currentLimit k amps) s = .next s))

/-- Power estimation and temperature (R910 to R917, R921, R932): a domain shows its estimated power, corrected at rest, in the package's sum; one
that has not rested for half a second is STALE; sensors show their hottest reading, and one that reads 115 degrees twice trips the
device, failed or not, which cuts its domains; in reset the trip only pulls THERMTRIP_N low. -/
def PowerAndHeatAreEstimated : Prop :=
  (∀ s x a, x < 16 → ∃ d', exec (.powerEstimate x a) s = .next { s with dev := d' } ∧
    d'.oget (O.DOMAIN_POWER x) = min ((a : Int) + dget (0 : Int) s.dev.power.offset x).toNat 65535 ∧
    d'.oget O.PKG_POWER = min d'.pkgPower 65535 ∧ d'.mem = s.dev.mem ∧ d'.prec = s.dev.prec) ∧
  (∀ s x m, x < 16 →
    (x < 2 ∨ s.dev.rests x = false → exec (.recalibration x m) s = .next s) ∧
    (2 ≤ x → s.dev.rests x = true → ∃ d', exec (.recalibration x m) s = .next { s with dev := d' } ∧
      d'.oget (O.DOMAIN_POWER x) = min m 65535 ∧ d'.oget (O.EST_STATE x) = 0 ∧ dget 0 d'.power.calibrated x = s.dev.time)) ∧
  (∀ s x, x < 16 →
    (s.dev.oget O.QUIESCE_ENABLE ≠ 1 ∨ s.dev.quiesceSlot = false ∨ s.dev.quiesceDue x = false → exec (.quiesce x) s = .next s) ∧
    (s.dev.oget O.QUIESCE_ENABLE = 1 → s.dev.quiesceSlot = true → s.dev.quiesceDue x = true → s.dev.power.quietNext = x →
      ∃ d', exec (.quiesce x) s = .next { s with dev := d' } ∧ d'.oget O.QUIESCE_WINDOWS = s.dev.oget O.QUIESCE_WINDOWS + 1 ∧
        mget d'.power.quiesced x = some s.dev.time ∧ d'.power.quietNext = (x + 1) % 16)) ∧
  (∀ s x, x < 16 →
    let due := 2 ≤ x ∧ s.dev.oget (O.PD_STATE x) = 2 ∧ s.dev.oget (O.EST_STATE x) ≠ 1 ∧ 500000000 ≤ s.dev.uncalibrated x
    (¬ due → exec (.estimatorStale x) s = .next s) ∧
    (due → ∃ d', exec (.estimatorStale x) s = .next { s with dev := d' } ∧ d'.oget (O.EST_STATE x) = 1 ∧ d'.mem = s.dev.mem)) ∧
  (∀ (s : State) (t : Temps), t.oct.length = 32 → t.uncore.length = 8 →
    let again := ∃ i ∈ s.dev.power.hot, ∃ r, (t.oct ++ t.uncore)[i]? = some r ∧ 460 ≤ r
    (s.dev.pkg.powered = false → exec (.thermalSensorRead t) s = .next s) ∧
    (s.dev.pkg.powered = true → s.dev.boot.inReset = true → ∃ d', exec (.thermalSensorRead t) s = .next { s with dev := d' } ∧
      d'.objs = s.dev.objs ∧ d'.power.hot = tripsOf t ∧ d'.power.hottest = hottest (t.oct ++ t.uncore) ∧
      (d'.pkg.thermtrip = true ↔ s.dev.pkg.thermtrip = true ∨ again)) ∧
    (s.dev.pkg.powered = true → s.dev.boot.inReset = false → s.dev.boot.held = none →
    ∃ d', exec (.thermalSensorRead t) s = .next { s with dev := d' } ∧
      (∀ k < 8, d'.oget (O.OCT_TEMP k) = ofSigned 16 (hottest ((t.oct.drop (4 * k)).take 4))) ∧
      (∀ i < 2, d'.oget (O.UNCORE_TEMP i) = ofSigned 16 (hottest ((t.uncore.drop (4 * i)).take 4))) ∧
      d'.power.hottest = hottest (t.oct ++ t.uncore) ∧
      (again → d'.oget O.DEVICE_STATUS = 1 ∧ (s.dev.tripped = false → d'.pkg.thermtrip = true ∧
        d'.oget O.TRIP_EVENTS = s.dev.oget O.TRIP_EVENTS + 1 ∧
        ∀ x, 2 ≤ x → x < 16 → d'.oget (O.PD_STATE x) = if s.dev.oget (O.PD_STATE x) = 5 then 5 else 0))))

/-! ### Reset, boot and flash -/

/-- Boot (R934 to R941, R958, Table 20.5): without its reference the device stays in reset; a self-test or crypt that fails ends the boot; no
image that passes its checks leaves RECOVERY; an image that passes, with every domain waking, leads to READY with the kernel's
window and descriptor table; boot objects take their values and keys are revoked from the lowest on. -/
def BootReachesReady : Prop :=
  (∀ s b, s.dev.boot.inReset = false ∨ s.dev.pkg.powered = false ∨ s.dev.boot.stuck = true → exec (.resetRelease b) s = .next s) ∧
  (∀ (s : State) (b : BootInputs), s.dev.boot.inReset = true → s.dev.pkg.powered = true → s.dev.boot.stuck = false →
    (b.ref0 = false → ∃ d', exec (.resetRelease b) s = .next { s with dev := d' } ∧ d'.boot.inReset = true ∧ d'.boot.stuck = true ∧
      d'.oget (O.PD_STATE 0) = 5) ∧
    (b.ref0 = true → b.selfTest = false → ∃ d', exec (.resetRelease b) s = .next { s with dev := d' } ∧ d'.boot.inReset = false ∧
      d'.boot.selfTestFailed = true ∧ d'.boot.running = s.dev.boot.running) ∧
    (b.ref0 = true → b.selfTest = true → b.cryptOk = false → ∃ d', exec (.resetRelease b) s = .next { s with dev := d' } ∧
      d'.boot.stuck = true) ∧
    (b.ref0 = true → b.selfTest = true → b.cryptOk = true → s.dev.oget O.BOOT_PREFERENCE ≤ 1 →
      (∀ i < 2, s.dev.imageCheck i (if i = 0 then b.flashA else b.flashB) ≠ 0) →
      ∃ d', exec (.resetRelease b) s = .next { s with dev := d' } ∧ d'.oget O.BOOT_PHASE = 6 ∧ d'.boot.running = s.dev.boot.running) ∧
    (b.ref0 = true → b.selfTest = true → b.cryptOk = true → s.dev.oget O.BOOT_PREFERENCE ≤ 1 → b.failed = 0 →
      (∀ i < 2, s.dev.imageCheck i (if i = 0 then b.flashA else b.flashB) = 0) →
      (∀ g ∈ s.dev.life.gens, ∀ e ∈ g.values, lifeKey e.1 = true) →
      ∃ d', exec (.resetRelease b) s = .next { s with dev := d' } ∧ d'.oget O.BOOT_PHASE = 4 ∧ d'.boot.inReset = false ∧
        d'.boot.running.isSome = true ∧ d'.oget (O.PD_STATE 1) = 2 ∧ d'.oget (O.PD_STATE 2) = 2 ∧ d'.oget (O.PD_STATE 3) = 2 ∧
        mget d'.prec.descTable 256 = some 0x80000 ∧ d'.oget (O.PT_ROOT 256) = 0 ∧
        (mget d'.tr.wins (64 * 256)).map (fun w => (w.base, w.size, w.home, w.r, w.w, w.x)) = some (0, 2 ^ 40, 2, true, true, false))) ∧
  (∀ s p slot, mayWrite s p 0x1014 0 → slot < 2 → answers (.bootPreference p slot) s 0 fun d' => d'.oget O.BOOT_PREFERENCE = slot ∧
    d'.oget O.BOOT_TRIAL = 1 ∧ d'.oget O.BOOT_TRIES = 0) ∧
  (∀ s p v, mayWrite s p 0x1017 0 → v = 1 ∨ v = 2 →
    (s.dev.oget O.BOOT_TRIAL = 0 → refuses (.bootConfirm p v) s 7) ∧
    (s.dev.oget O.BOOT_TRIAL ≠ 0 → answers (.bootConfirm p v) s 0 fun d' => d'.oget O.BOOT_TRIAL = 0 ∧ d'.oget O.BOOT_TRIES = 0 ∧
      (v = 1 → d'.oget O.MIN_SVN = s.dev.oget O.MIN_SVN) ∧ s.dev.oget O.MIN_SVN ≤ d'.oget O.MIN_SVN ∧
      ∀ i, v = 2 → s.dev.boot.running = some i → s.dev.boot.headerWord i 12 ≤ d'.oget O.MIN_SVN)) ∧
  (∀ s p v i, mayWrite s p 0x101B 0 → 1 ≤ v → v < 16 → s.dev.boot.running = some i →
    ((∀ j < 4, bit v j = true → j < s.dev.boot.keyIndex i) → answers (.keyRevoke p v) s 0 fun d' =>
      d'.oget O.KEY_REVOKED = s.dev.oget O.KEY_REVOKED ||| v) ∧
    ((∃ j < 4, bit v j = true ∧ s.dev.boot.keyIndex i ≤ j) → refuses (.keyRevoke p v) s 7))

/-- The flash (R947, R952): an operation starts on the sector at FLASH_ADDR, never on the running image or beside another one; when it
ends, an erased sector reads ones, a programmed one reads what FLASH_DATA held, and a read fills FLASH_DATA; no other sector
changes. -/
def FlashOperationsRunToTheirEnd : Prop :=
  (∀ s p, mayWrite s p 0x1022 0 →
    let a := s.dev.oget O.FLASH_ADDR
    let bad := 0x1800000 ≤ a ∨ s.dev.boot.running = some (a / 0xC00000) ∨ s.dev.oget O.FLASH_STATUS = 1
    (bad → refuses (.flashRead p) s 7 ∧ refuses (.flashProgram p) s 7 ∧ refuses (.flashErase p) s 7) ∧
    (¬ bad → answers (.flashRead p) s 0 (fun d' => d'.oget O.FLASH_STATUS = 1 ∧ d'.boot.flashOp = 1 ∧ d'.boot.flashAt = a) ∧
      answers (.flashProgram p) s 0 (fun d' => d'.oget O.FLASH_STATUS = 1 ∧ d'.boot.flashOp = 2 ∧ d'.boot.flashAt = a) ∧
      answers (.flashErase p) s 0 (fun d' => d'.oget O.FLASH_STATUS = 1 ∧ d'.boot.flashOp = 3 ∧ d'.boot.flashAt = a))) ∧
  (∀ s ok, s.dev.boot.flashOp = 0 → exec (.flashDone ok) s = .next s) ∧
  (∀ s ok, s.dev.boot.flashOp ≠ 0 →
    let a := s.dev.boot.flashAt
    let op := s.dev.boot.flashOp
    let here := fun x => a ≤ x ∧ x < a + 4096
    ∃ d', exec (.flashDone ok) s = .next { s with dev := d' } ∧ d'.oget O.FLASH_STATUS = (if ok then 2 else 3) ∧ d'.boot.flashOp = 0 ∧
      (∀ x, ¬ here x → d'.boot.flashByte x = s.dev.boot.flashByte x) ∧
      (op = 1 → d'.boot.flash = s.dev.boot.flash ∧
        (ok = true → ∀ i < 4096, d'.oget (O.FLASH_DATA i) = s.dev.boot.flashByte (a + i))) ∧
      (op = 3 → ok = true → ∀ x, here x → d'.boot.flashByte x = 255) ∧
      (op = 2 → ok = true → s.dev.boot.erased a = true → ∀ i < 4096, d'.boot.flashByte (a + i) = s.dev.oget (O.FLASH_DATA i) % 256))

/-! ### The Clerestory -/

/-- Counters, samples, lost records and tokens (R961, R962, R963, R968 to R972, R988): a latch copies every counter at one time; a sample is
formed at each period and lost without a ring or tokens; losses are recorded each millisecond; the bucket fills to 1 MiB and serves
the snapshot store and then the captures; CLR_RING_BASE is written only while the ring is empty,
of which a host ring's GET, read again, tells where it was not when last read: what it reads then is a free value (assumption 90). -/
def CountersAndSamplesAreRecorded : Prop :=
  (∀ s p, mayWrite s p 0x9030 0 → countersOk s.dev → answers (.cntLatch p) s 0 fun d' => latched s.dev d' ∧ { d' with objs := s.dev.objs } = s.dev) ∧
  (∀ s, (¬ sampleDue s.dev → exec .sampler s = .next s) ∧
    (sampleDue s.dev → countersOk s.dev →
      let mask := s.dev.oget O.SAMPLE_MASK
      let len := 64 + (if bit mask 0 then 16384 else 0) + (if bit mask 1 then 6144 else 0) + (if bit mask 2 then 16384 else 0) +
        (if bit mask 3 then 1280 else 0)
      let lost := s.dev.clrUnset = true ∨ s.dev.oget O.CLR_TOKENS < len ∨ 262144 < s.dev.clr.stagedBytes + len
      (lost → ∃ d', exec .sampler s = .next { s with dev := d' } ∧ latched s.dev d' ∧ d'.clr.samples = s.dev.clr.samples + 1 ∧
        d'.oget (O.RECORDS_LOST 0) = s.dev.oget (O.RECORDS_LOST 0) + 1 ∧ d'.clr.staged = s.dev.clr.staged) ∧
      (¬ lost → RingWaits s.dev → ∃ d' r, exec .sampler s = .next { s with dev := d' } ∧ latched s.dev d' ∧
        d'.clr.samples = s.dev.clr.samples + 1 ∧ d'.clr.staged = s.dev.clr.staged ++ [r] ∧ r.kind = 1 ∧ r.length = len ∧
        r.ftime = s.dev.time ∧ d'.oget O.CLR_TOKENS = s.dev.oget O.CLR_TOKENS - len))) ∧
  (∀ s, (s.dev.time % 1000000 ≠ 0 ∨ s.dev.clr.lost = [] ∨ s.dev.clrUnset = true → exec .dropsRecord s = .next s) ∧
    (s.dev.time % 1000000 = 0 → s.dev.clr.lost ≠ [] → RingWaits s.dev →
      let r : ClrRec := ⟨5, 0, 64, s.dev.time, [dget 0 s.dev.clr.lost 1, dget 0 s.dev.clr.lost 2, dget 0 s.dev.clr.lost 3, dget 0 s.dev.clr.lost 4]⟩
      exec .dropsRecord s = .next { s with dev := { s.dev with clr := { s.dev.clr with lost := [], staged := s.dev.clr.staged ++ [r] } } })) ∧
  (∀ s, let t := min 1048576 (s.dev.oget O.CLR_TOKENS + 16400 * s.dev.oget O.CLR_CAP)
    let gs := share ((s.dev.clr.snap.map (·.length)).getD s.dev.clr.snapTokens - s.dev.clr.snapTokens) t
    let need := match s.dev.clr.captures with
      | c :: _ => if c.started then c.len - s.dev.clr.capTokens else 0
      | [] => 0
    let gc := share need (t - gs)
    ∃ d', exec .tokenRefill s = .next { s with dev := d' } ∧ d'.oget O.CLR_TOKENS = t - gs - gc ∧
      d'.clr.snapTokens = s.dev.clr.snapTokens + gs ∧ d'.clr.capTokens = s.dev.clr.capTokens + gc ∧ d'.oget O.CLR_TOKENS ≤ 1048576 ∧
      { d' with objs := s.dev.objs, clr := s.dev.clr } = s.dev) ∧
  (∀ s p v, mayWrite s p 0x9010 1 → v < 2 ^ 64 → s.dev.oget O.CLR_RING_SPACE ≠ 1 →
    let asked := s.dev.clr.put ≠ s.dev.clr.get ∧ s.dev.oget O.CLR_RING_BASE ≠ 0 ∧ s.dev.freeBits 1 = 1
    (s.dev.clr.put ≠ s.dev.clr.get → ¬ asked → refuses (.clrRingBaseWrite p v) s 7) ∧
    (s.dev.clr.put = s.dev.clr.get ∨ asked → answers (.clrRingBaseWrite p v) s 0 fun d' => d'.oget O.CLR_RING_BASE = v ∧ d'.clr.unset = false ∧
      d'.clr.put = s.dev.clr.put ∧ d'.clr.get = s.dev.clr.put))

/-- Snapshots and watches (R974 to R979, R981, R987): a request takes a snapshot of a RUNNING task into the empty store; an error of the store
loses it, and one of a staged record that record; with its tokens and room in the ring it is written; a capture starts with room in its owner's ring, ends without one, and
writes its record in pieces, the common doubleword and PUT last. -/
def SnapshotsAndWatchesAreWritten : Prop :=
  (∀ s p v, mayWrite s p 0x9050 0 → v < 2 ^ 64 →
    let owner := bits v 0 9
    let found := fun q => (s.dev.nodeIn owner q (bits v 16 16) (bits v 32 32)).filter fun x => x.state = .running && x.opc = 1
    (bits v 9 7 ≠ 0 ∨ 256 < owner → refuses (.snapRequest p v) s 6) ∧
    (bits v 9 7 = 0 → owner ≤ 256 → (∀ q < 16, found q = none) → refuses (.snapRequest p v) s 7) ∧
    (∀ q x, bits v 9 7 = 0 → owner ≤ 256 → q < 16 → found q = some x → (∀ r < q, found r = none) → (s.dev.core x.core).task.isSome = true →
      (s.dev.clr.snap = none → answers (.snapRequest p v) s 0 fun d' => { d' with clr := s.dev.clr } = s.dev ∧ d'.clr.snapTokens = 0 ∧
        ∃ r, d'.clr.snap = some r ∧ r.kind = 4 ∧ r.ftime = s.dev.time ∧ r.length % 64 = 0) ∧
      (s.dev.clr.snap.isSome = true → answers (.snapRequest p v) s 0 fun d' => d'.clr.snap = s.dev.clr.snap ∧
        d'.oget (O.RECORDS_LOST 3) = s.dev.oget (O.RECORDS_LOST 3) + 1))) ∧
  (∀ s e, s.dev.clr.snap = none → e = .none ∨ storeError e → exec (.snapshotWrite e) s = .next s) ∧
  (∀ (s : State) i r, s.dev.clr.snap = none → s.dev.clr.staged[i]? = some r → 1 ≤ r.kind → r.kind ≤ 3 →
    ∃ d', exec (.snapshotWrite (.word i)) s = .next { s with dev := d' } ∧ d'.clr.staged = s.dev.clr.staged.eraseIdx i ∧
      d'.oget (O.RECORDS_LOST (r.kind - 1)) = s.dev.oget (O.RECORDS_LOST (r.kind - 1)) + 1 ∧ d'.mem = s.dev.mem) ∧
  (∀ s r, s.dev.clr.snap = some r →
    (∀ e, storeError e → ∃ d', exec (.snapshotWrite e) s = .next { s with dev := d' } ∧ d'.clr.snap = none ∧ d'.clr.staged = s.dev.clr.staged ∧
      d'.oget (O.RECORDS_LOST 3) = s.dev.oget (O.RECORDS_LOST 3) + 1 ∧ d'.mem = s.dev.mem) ∧
    (s.dev.clrUnset = true ∨ s.dev.clr.snapTokens < r.length → exec (.snapshotWrite .none) s = .next s) ∧
    (s.dev.clrUnset = false → r.length ≤ s.dev.clr.snapTokens → s.dev.clr.staged = [] → s.dev.oget O.CLR_RING_SPACE = 0 →
      ringRoom (s.dev.oget O.CLR_RING_SIZE) s.dev.clr.put s.dev.clr.get r.length = true → 0 < r.length →
      ∃ d', exec (.snapshotWrite .none) s = .next { s with dev := d' } ∧ d'.clr.snap = none ∧ d'.oget O.SNAPSHOTS = s.dev.oget O.SNAPSHOTS + 1 ∧
        d'.clr.put = s.dev.clr.put + (ringPlace (s.dev.oget O.CLR_RING_SIZE) s.dev.clr.put r.length).1 + r.length ∧ d'.mem = s.dev.mem)) ∧
  (∀ s, s.dev.clr.captures = [] → exec .watchCapture s = .next s) ∧
  (∀ (s : State) (c : Capture) (rest : List Capture), s.dev.clr.captures = c :: rest → c.started = false →
    let size := (s.dev.watchBuf c.watch.owner).2
    let w := s.dev.wring c.watch.owner
    (size = 0 → ∃ d', exec .watchCapture s = .next { s with dev := d' } ∧ d'.clr.captures = rest ∧
      d'.oget (O.WATCH_OUTCOMES 5) = s.dev.oget (O.WATCH_OUTCOMES 5) + 1 ∧ d'.mem = s.dev.mem) ∧
    (size ≠ 0 → ringRoom size w.put w.get c.bytes = true → exec .watchCapture s = .next { s with dev := { s.dev with clr := { s.dev.clr with
      captures := { c with started := true, start := w.put, len := c.bytes, time := if c.status = 0 then s.dev.time else c.time } :: rest } } })) ∧
  (∀ (s : State) (c : Capture) (rest : List Capture) d1 d2 d3 b1 b2 b3 p1 p2 p3, s.dev.clr.captures = c :: rest → c.started = true → c.torn = false → c.stale = false →
    (s.dev.clr.capTokens < c.len → exec .watchCapture s = .next s) ∧
    (let o := c.watch.owner
     let base := (s.dev.watchBuf o).1
     let size := (s.dev.watchBuf o).2
     let bs := c.header c.status 0 0
     let at_ := base + 64 + c.start % (size - 64)
     c.len ≤ s.dev.clr.capTokens → c.status = 4 ∨ c.status = 5 → c.start % (size - 64) + c.len ≤ size - 64 →
     s.dev.vaWrite 0x4000 o (at_ + 8) (bs.drop 8) false = (d1, .ok b1 p1) → d1.vaWrite 0x4000 o at_ (bs.take 8) false = (d2, .ok b2 p2) →
     d2.vaWrite 0x4000 o base (leBytes 8 (c.start + c.len)) false = (d3, .ok b3 p3) →
     exec .watchCapture s = .next { s with dev :=
       ((d3.setWring o { d3.wring o with put := c.start + c.len }).capPop (c.status - 1)).msix (fnOf o) (if o = 256 then 5 else 18) }))

/-! ### The tray -/

/-- The vendor commands of the tray host (Table 22.3, R994, R997, R998, R1001, R1003, R1009, R1015, R1018): each answers with its code and
has its effect; a JT-16 without supply answers nothing. -/
def TrayHostCommandsAreAnswered : Prop :=
  (∀ s n m a pg v i st r b x, s.dev.tray.down = true → m.payload.length ≤ 256 → x < 2 ^ 64 → b < 2 ^ 64 →
    ∀ c ∈ [Instr.status, .relay n m a, .slotPowerOn n pg, .slotPowerOff n, .valve n v, .paramGet i, .paramSet i v, .utcSet x, .logRead st,
      .leakAck r, .keyGenerate, .cloneAllow b], exec c s = .next s) ∧
  (∀ s, s.dev.tray.down = false →
    (∃ b, vendorSays .status s 1 0 b s.dev ∧ b.length = 256 ∧ (∀ n < 16, (b[32 + n]?).map (·.toNat) = some (s.dev.slotState n)) ∧
      (b.drop 2).take 2 = leBytes 2 s.dev.tray.alarms ∧ (b.drop 4).take 2 = leBytes 2 s.dev.tray.boot) ∧
    (∀ n, 16 ≤ n → ∀ pg v m a, m.payload.length ≤ 256 → vendorSays (.slotPowerOn n pg) s 3 2 [] s.dev ∧
      vendorSays (.slotPowerOff n) s 3 2 [] s.dev ∧ vendorSays (.valve n v) s 4 2 [] s.dev ∧ vendorSays (.relay n m a) s 2 2 [] s.dev) ∧
    (∀ n, n < 16 →
      (∀ v, 1 < v → vendorSays (.valve n v) s 4 4 [] s.dev) ∧
      (∀ v, v ≤ 1 → vendorSays (.valve n v) s 4 0 [] (s.dev.onSlot n fun x => { x with valve := decide (v = 1) })) ∧
      (∀ pg, ((s.dev.slot n).present = false ∨ s.dev.leakHolds n = true → vendorSays (.slotPowerOn n pg) s 3 3 [] s.dev) ∧
        ((s.dev.slot n).present = true → s.dev.leakHolds n = false → ∃ d', vendorSays (.slotPowerOn n pg) s 3 0 [] d' ∧ poweredOn d' n pg)) ∧
      ((s.dev.slot n).present = false → vendorSays (.slotPowerOff n) s 3 3 [] s.dev) ∧
      ((s.dev.slot n).present = true → ∃ d', vendorSays (.slotPowerOff n) s 3 0 [] d' ∧ poweredOff s.dev d' n)) ∧
    (∀ n m a, n < 16 → m.payload.length ≤ 256 →
      (s.dev.tray.key = none ∨ s.dev.slotPowered n = false → vendorSays (.relay n m a) s 2 3 [] s.dev) ∧
      (s.dev.tray.key.isSome = true → s.dev.slotPowered n = true → 17 ≤ (s.dev.slot n).queue.length → vendorSays (.relay n m a) s 2 5 [] s.dev) ∧
      (s.dev.tray.key.isSome = true → s.dev.slotPowered n = true → (s.dev.slot n).queue.length < 17 → (s.dev.slot n).sent = true →
        s.dev.limitHeld n = false → exec (.relay n m none) s = .next { s with dev := s.dev.onSlot n fun x =>
          { x with queue := x.queue ++ [TrayReq.mk m 0] } })) ∧
    (∀ i, (paramRange i = none → vendorSays (.paramGet i) s 5 4 [] s.dev ∧ ∀ v, vendorSays (.paramSet i v) s 6 4 [] s.dev) ∧
      ∀ lo hi, paramRange i = some (lo, hi) → vendorSays (.paramGet i) s 5 0 (leBytes 4 (s.dev.tray.param i)) s.dev ∧
        ∀ v, (v < lo ∨ hi < v ∨ s.dev.tray.paramFits i v = false → vendorSays (.paramSet i v) s 6 4 [] s.dev) ∧
          (lo ≤ v → v ≤ hi → s.dev.tray.paramFits i v = true → ∃ d', vendorSays (.paramSet i v) s 6 0 [] d' ∧
            (∀ j, d'.tray.param j = if j = i then v else s.dev.tray.param j) ∧ { d' with tray := s.dev.tray } = s.dev)) ∧
    (∀ x, x < 2 ^ 64 → vendorSays (.utcSet x) s 7 0 [] { s.dev with tray := { s.dev.tray with clock := x, clockSet := true } }) ∧
    (∀ i, (256 ≤ i → vendorSays (.logRead i) s 8 4 [] s.dev) ∧
      (i < 256 → vendorSays (.logRead i) s 8 0 (((s.dev.tray.log.drop i).take 8).flatMap TrayEvent.bytes) s.dev)) ∧
    (∀ r, (4 ≤ r → vendorSays (.leakAck r) s 9 4 [] s.dev) ∧
      (r < 4 → ∃ d', vendorSays (.leakAck r) s 9 0 [] d' ∧ (∀ q, q ≠ r → d'.tray.rope q = s.dev.tray.rope q) ∧
        (100 ≤ (s.dev.tray.rope r).dryRun → (d'.tray.rope r).latched = []) ∧
        ((s.dev.tray.rope r).dryRun < 100 → (d'.tray.rope r).latched = (s.dev.tray.rope r).latched ∧
          (d'.tray.rope r).acked = (s.dev.tray.rope r).latched))) ∧
    (s.dev.tray.key.isSome = true → vendorSays .keyGenerate s 10 3 [] s.dev) ∧
    (s.dev.tray.key = none → ∃ d' k, vendorSays .keyGenerate s 10 0 [] d' ∧ d'.tray.key = some k ∧ k < 2 ^ 384 ∧
      { d' with tray := s.dev.tray, free := s.dev.free } = s.dev) ∧
    (∀ b, b < 2 ^ 64 → ∃ d', vendorSays (.cloneAllow b) s 11 0 [] d' ∧ (∀ y, y ∈ d'.tray.clones ↔ y = b ∨ y ∈ s.dev.tray.clones)))

/-- The MCTP control and PLDM messages (R991, R992, R1014): each answers with its code and body; the events go to the receiver in order; a
verified image waits for the restart. That codes 0x80 to 0x82 stand for no such ID, no such state and refused is the model's choice. -/
def TrayPldmAndMctpRequestsAreAnswered : Prop :=
  (∀ s, s.dev.tray.down = false →
    (∀ h id, pdrIds[h - 1]? = some id → ∃ b, mctpSays (.getPdr h) s 1 0 b s.dev ∧ (b.drop 4).take 2 = leBytes 2 id ∧
      b.take 4 = leBytes 4 (if h - 1 + 1 < 134 then h - 1 + 2 else 0)) ∧
    (∀ h, 134 < h → mctpSays (.getPdr h) s 1 0x82 [] s.dev) ∧
    (∀ id, (s.dev.numeric id = none → mctpSays (.getSensorReading id) s 1 0x80 [] s.dev) ∧
      ∀ bad v, s.dev.numeric id = some (bad, v) →
        mctpSays (.getSensorReading id) s 1 0 (leBytes 1 (if bad then 4 else 0) ++ leBytes 4 (ofSigned 32 v)) s.dev) ∧
    (∀ n < 16, s.dev.numeric (3 + n) = some ((s.dev.slot n).outletFailed, (s.dev.slot n).outlet) ∧
      s.dev.numeric (19 + n) = some ((s.dev.slot n).flowFailed, ((s.dev.slot n).flow : Int)) ∧
      s.dev.numeric (39 + n) = some ((s.dev.slot n).powerFailed, ((s.dev.slot n).power : Int))) ∧
    (∀ id, (100 ≤ id → id < 132 → mctpSays (.getStateSensorReadings id) s 1 0 (leBytes 1 (s.dev.tray.segState ((id - 100) / 8) ((id - 100) % 8))) s.dev) ∧
      (132 ≤ id → id < 148 → mctpSays (.getStateSensorReadings id) s 1 0 (leBytes 1 (s.dev.slotState (id - 132))) s.dev) ∧
      (id < 100 ∨ 148 ≤ id → mctpSays (.getStateSensorReadings id) s 1 0x80 [] s.dev)) ∧
    (∀ id, (200 ≤ id → id < 216 → mctpSays (.getStateEffecterStates id) s 1 0 (leBytes 1 (b2n (s.dev.slot (id - 200)).pwrEn)) s.dev) ∧
      (216 ≤ id → id < 232 → mctpSays (.getStateEffecterStates id) s 1 0 (leBytes 1 (b2n (s.dev.slot (id - 216)).valve)) s.dev) ∧
      (id < 200 ∨ 232 ≤ id → mctpSays (.getStateEffecterStates id) s 1 0x80 [] s.dev ∧
        ∀ v pg, mctpSays (.setStateEffecterStates id v pg) s 1 0x80 [] s.dev)) ∧
    (∀ n v pg, n < 16 → (1 < v → mctpSays (.setStateEffecterStates (200 + n) v pg) s 1 0x81 [] s.dev) ∧
      (v ≤ 1 → mctpSays (.setStateEffecterStates (216 + n) v pg) s 1 0 []
        (s.dev.onSlot n fun x => { x with valve := decide (v = 1) })) ∧
      ((s.dev.slot n).present = false → v ≤ 1 → mctpSays (.setStateEffecterStates (200 + n) v pg) s 1 0x82 [] s.dev) ∧
      ((s.dev.slot n).present = true → (v = 1 → s.dev.leakHolds n = false → ∃ d', mctpSays (.setStateEffecterStates (200 + n) 1 pg) s 1 0 [] d' ∧
          poweredOn d' n pg) ∧
        ∃ d', mctpSays (.setStateEffecterStates (200 + n) 0 pg) s 1 0 [] d' ∧ poweredOff s.dev d' n)) ∧
    (∀ eid, eid < 256 → mctpSays (.setEventReceiver eid) s 1 0 [] { s.dev with tray := { s.dev.tray with receiver := some eid } }) ∧
    (∀ u : FwUpdate, (u.valid = false → mctpSays (.pldmFirmwareUpdate u) s 1 0x80 [] s.dev) ∧
      (u.valid = true → u.kind = 0 → mctpSays (.pldmFirmwareUpdate u) s 1 0 [] { s.dev with tray := { s.dev.tray with staged := true } }) ∧
      (u.valid = true → u.kind ≠ 0 → ∃ d', mctpSays (.pldmFirmwareUpdate u) s 1 0 [] d' ∧
        ∀ y, y ∈ d'.tray.allow ↔ y = (u.d1, u.d2, u.d4) ∨ y ∈ s.dev.tray.allow)) ∧
    (∀ eid, eid < 256 → (eid < 8 ∨ eid = 255 → mctpSays (.setEndpointId eid) s 0 2 [] s.dev) ∧
      (8 ≤ eid → eid < 255 → mctpSays (.setEndpointId eid) s 0 0 [0, BitVec.ofNat 8 eid, 0] { s.dev with tray := { s.dev.tray with eid := eid } })) ∧
    (∀ t, mctpSays (.getMctpVersionSupport t) s 0 (if t = 0 ∨ t = 1 ∨ t = 5 ∨ t = 6 ∨ t = 0x7E ∨ t = 0xFF then 0 else 0x80)
      (if t = 0 ∨ t = 1 ∨ t = 5 ∨ t = 6 ∨ t = 0x7E ∨ t = 0xFF then [1, 0xF1, 0xF3, 0xF1, 0] else []) s.dev) ∧
    mctpSays .getMessageTypeSupport s 0 0 [4, 1, 5, 6, 0x7E] s.dev ∧
    (∀ k, (k = 0 → mctpSays (.getVendorDefinedMessageSupport k) s 0 0
        ([0xFF, 0] ++ (leBytes 2 (s.dev.oget O.PCI_VENDOR_ID)).reverse ++ [0, 0]) s.dev) ∧
      (k ≠ 0 → mctpSays (.getVendorDefinedMessageSupport k) s 0 2 [] s.dev)) ∧
    (∀ e es r, s.dev.tray.events = e :: es → s.dev.tray.receiver = some r → exec .platformEventMessage s =
      .next { s with dev := Dev.emit { s.dev with tray := { s.dev.tray with events := es } } (.trayEvent e) })) ∧
  (∀ s, s.dev.tray.down = true ∨ s.dev.tray.events = [] ∨ s.dev.tray.receiver = none → exec .platformEventMessage s = .next s) ∧
  (∀ s id v pg u eid, s.dev.tray.down = true → eid < 256 → ∀ c ∈ [Instr.getPdr id, .getSensorReading id, .getStateSensorReadings id,
    .setStateEffecterStates id v pg, .getStateEffecterStates id, .setEventReceiver eid, .pldmFirmwareUpdate u, .setEndpointId eid,
    .getMctpVersionSupport id, .getMessageTypeSupport, .getVendorDefinedMessageSupport id], exec c s = .next s)

end Sys2Proof.Claims
end

