-- ==== Sys2Proof/Certificates/Slice0/Obligations.lean ====
section
/-! DEFINITION. Certificates/Slice0/Obligations.lean: the statements about the machine. -/

open Sys2Proof Sys2Proof.Machine Sys2Proof.Claims

/-! ### The instructions of a core -/

/-- Table 3.4, group 0x0: the integer and logical instructions compute modulo the width of their operands, pair or register, in every
executing voice, or once under DU, and change nothing else (R115 to R118, R121). -/
def Obligations.IntegerInstructionsCompute : Prop :=
  IntResult .iadd 0x01 (specInt false false) (fun _ _ a b _ => a + b) ∧
  IntResult .isub 0x02 (specInt false false) (fun _ _ a b _ => a - b) ∧
  IntResult .imul 0x03 (specInt false false) (fun _ _ a b _ => a * b) ∧
  IntResult .imulhi 0x04 (specInt true false) (fun n x a b _ => highHalf n (intSigned x) a b) ∧
  IntResult .imad 0x05 (specInt false true) (fun _ _ a b c => a * b + c) ∧
  IntResult .andCmd 0x06 (specInt false false) (fun _ _ a b _ => a &&& b) ∧
  IntResult .orCmd 0x07 (specInt false false) (fun _ _ a b _ => a ||| b) ∧
  IntResult .xor 0x08 (specInt false false) (fun _ _ a b _ => a ^^^ b) ∧
  IntResult .shl 0x09 (specInt false false) (fun n _ a b _ => a <<< (b.toNat % n)) ∧
  IntResult .shr 0x0A (specInt false false) (fun n _ a b _ => a >>> (b.toNat % n)) ∧
  IntResult .sar 0x0B (specInt false false) (fun n _ a b _ => a.sshiftRight (b.toNat % n)) ∧
  IntResult .imin 0x0C (specInt true false) (fun n x a b _ => if before n (intSigned x) a b then a else b) ∧
  IntResult .imax 0x0D (specInt true false) (fun n x a b _ => if before n (intSigned x) b a then a else b) ∧
  IntResult .popc 0x0E specPopc (fun n _ a _ _ => BitVec.ofNat n ((List.range n).countP fun i => a.getLsbD i))

/-- Table 3.4, groups 0x1 and 0x2: the floating-point instructions apply their operation to the operands in every executing voice, or once
under DU, merge the flags of the voices into SR_FLAGS (R240), write with poison and log a product whose residue check fails (R261),
and change nothing else. What the operations compute is stated apart. -/
def Obligations.FloatingPointInstructionsCompute : Prop :=
  FpResult .fadd 0x10 false false .two (fun f rm z a b _ => fpAdd f rm z a b) ∧
  FpResult .fmul 0x11 false true .two (fun f rm z a b _ => fpMul f rm z a b) ∧
  FpResult .ffma 0x12 false true .three (fun f rm z a b c => fpFma f rm z a b c) ∧
  FpResult .fmin 0x13 false false .two (fun f _ z a b _ => fpMinMax f false z a b) ∧
  FpResult .fmax 0x14 false false .two (fun f _ z a b _ => fpMinMax f true z a b) ∧
  FpResult .fdiv 0x15 false false .two (fun f rm z a b _ => fpDiv f rm z a b) ∧
  FpResult .fsqrt 0x16 false false .one (fun f rm z a _ _ => fpSqrt f rm z a) ∧
  FpResult .dadd 0x20 true false .two (fun f rm z a b _ => fpAdd f rm z a b) ∧
  FpResult .dmul 0x21 true true .two (fun f rm z a b _ => fpMul f rm z a b) ∧
  FpResult .dfma 0x22 true true .three (fun f rm z a b c => fpFma f rm z a b c) ∧
  FpResult .dmin 0x23 true false .two (fun f _ z a b _ => fpMinMax f false z a b) ∧
  FpResult .dmax 0x24 true false .two (fun f _ z a b _ => fpMinMax f true z a b) ∧
  FpResult .ddiv 0x25 true false .two (fun f rm z a b _ => fpDiv f rm z a b) ∧
  FpResult .dsqrt 0x26 true false .one (fun f rm z a _ _ => fpSqrt f rm z a)

/-- Sums, products and fused products of finite operands of FP64, FP32, FP16 and BF16 are their exact result rounded once in every direction
(R229, R230, R234), for exact results that are not zero and within the range of the format; an exact zero has no flag (R238). -/
def Obligations.SumsAndProductsRoundOnce : Prop :=
  ∀ f rm a b c va vb vc, 4 ≤ f → f ≤ 7 → rm < 4 → fpReal f a = some va → fpReal f b = some vb → fpReal f c = some vc →
    (va + vb ≠ 0 → |va + vb| ≤ fpLargest f → Rounded f rm (va + vb) (fpAdd f rm false a b)) ∧
    (va * vb ≠ 0 → |va * vb| ≤ fpLargest f → Rounded f rm (va * vb) (fpMul f rm false a b)) ∧
    (va * vb + vc ≠ 0 → |va * vb + vc| ≤ fpLargest f → Rounded f rm (va * vb + vc) (fpFma f rm false a b c)) ∧
    (va * vb + vc = 0 → fpReal f (fpFma f rm false a b c).bits = some 0 ∧ (fpFma f rm false a b c).flags = 0)

/-- Quotients and square roots of finite operands are their exact result rounded once (R229, R230, R234). -/
def Obligations.QuotientsAndRootsRoundOnce : Prop :=
  ∀ f rm a b va vb, 4 ≤ f → f ≤ 7 → rm < 4 → fpReal f a = some va → fpReal f b = some vb →
    (va ≠ 0 → vb ≠ 0 → |va / vb| ≤ fpLargest f → Rounded f rm (va / vb) (fpDiv f rm false a b)) ∧
    (0 < va → Rounded f rm (Real.sqrt va) (fpSqrt f rm false a))

/-- NaN, infinite and zero operands give the results and flags of Table 5.4, and comparisons, minimum and maximum follow the values of the
operands and Table 5.5 (R238, R239, R241, R242, R243). -/
def Obligations.SpecialOperandsAndComparisonsFollowTables : Prop :=
  SpecialOperandsGiveTableFlags ∧ ComparisonsFollowValues

/-- CVT between integer formats keeps a value that fits and otherwise gives the nearer end of the range with NV (R247); from floating point
it rounds to an integer first, raises NX when that changes the value, and gives 0 with NV for a NaN (R245); to floating point it rounds
once (R244, R246). -/
def Obligations.ConversionsRoundAndClamp : Prop :=
  ∀ src dst rm x, src < 12 → dst < 12 → rm < 4 → x < 2 ^ fmtWidth src →
    (isIntFmt src → isIntFmt dst →
      cvt src dst rm false false x = ⟨ofSigned (fmtWidth dst) (clampInto dst (intDecode src x)).1,
        if (clampInto dst (intDecode src x)).2 then fNV else 0⟩) ∧
    (¬ isIntFmt src → isIntFmt dst →
      (nanBits src x → cvt src dst rm false false x = ⟨0, fNV⟩) ∧
      ∀ q, fpReal src x = some q → ∃ z, IntRounds rm q z ∧
        cvt src dst rm false false x = ⟨ofSigned (fmtWidth dst) (clampInto dst z).1,
          if (clampInto dst z).2 then fNV else if (z : ℝ) = q then 0 else fNX⟩) ∧
    (isIntFmt src → ¬ isIntFmt dst → |(intDecode src x : ℝ)| ≤ fpLargest dst → intDecode src x ≠ 0 →
      Rounded dst rm (intDecode src x) (cvt src dst rm false false x)) ∧
    (¬ isIntFmt src → ¬ isIntFmt dst → ∀ q, fpReal src x = some q → q ≠ 0 → |q| ≤ fpLargest dst →
      Rounded dst rm q (cvt src dst rm false false x))

/-- CVT, SEL, MOV and VPERM write their operand, and ISETP, FSETP, DSETP, PLOP and VOTE a predicate (R31, R117, R124, R149, R243, R659).
-/
def Obligations.MovesAndPredicatesAreWritten : Prop :=
  ConvertSelectAndMove ∧ PredicateInstructionsWrite

/-- Branches, calls, returns and exits move the choir, and a push to a full stack or a return without an address raises ERR_STACK_DEPTH
(R40 to R46, R81, R151, R152). That the other voices wait when only some of the choir execute a CALL is the model's choice (assumption
20). -/
def Obligations.ChoirsBranchCallAndExit : Prop :=
  BranchesMoveTheChoir ∧ FullStacksRaiseStackDepth ∧ ExitLeavesEveryMask

/-- SRREAD and SRWRITE read and write the special registers, TRAP and ASSERT raise ERR_TRAP, and MARK sends a trace record
(R148, R153, R154, R967); the exceptions of one core clock meet under R144. By how much SR_TCLOCK has gone on since it was last read is a free value, the model's choice (assumption 1). -/
def Obligations.SpecialRegistersTrapsAndMarks : Prop :=
  SpecialRegistersReadAndWrite ∧ TrapsAssertsAndMarks ∧ ExceptionsOfAClockMeet

/-- LD.L, LD.C, ST.L and ST.C on a task of one core (R51, R63 to R65, R127, R128): a load writes the bytes it names, extended, in every
voice; a store writes the bytes of its voices, the highest voice winning, and changes no other byte of any LM, nor anything but LM, the
choirs and what awaits LM. The work of the access's order comes before a store and after a load. -/
def Obligations.LocalMemoryLoadsAndStores : Prop :=
  LmLoadResult .ldL 0x60 false ∧ LmStoreResult .stL 0x61 false ∧ LmLoadResult .ldC 0x62 true ∧ LmStoreResult .stC 0x63 true

/-- ATOM.L and ATOM.C (R51, R130): the voices' operations take effect one at a time in ascending voice, and each voice receives the value
it found. Relaxed order, old value returned, no poisoned word. -/
def Obligations.LocalAtomicsTakeEffectInOrder : Prop :=
  LmAtomResult .atomL 0x70 false ∧ LmAtomResult .atomC 0x71 true

/-- LD.G of a task of one core, at core scope or narrower and not NO_L1 (R48, R60, R128, R313, R336, R337): where the choir's own
store-buffer entries or the core's L1 hold the bytes, each voice receives those of its own entry where one covers them, else of the
line, and nothing else changes but the order of L1 ways and the counters of L1; a load of another line waits for it in an MSHR of L1. -/
def Obligations.GlobalLoadsForwardOrHit : Prop :=
  (∀ s c e d x t d1 rs, Issues s c e 0x64 (specLoad true) d x → globFair d x (acting x) 0 t d1 rs → accScope x < 3 →
     bits (iMod x.w) 10 2 ≠ 2 → e = .none → (∀ v ∈ acting x, (nearBytes (d1.core x.n) x.slot (dpaOf rs v) (accBytes x)).isSome = true) →
     (d1.core x.n).choir x.slot = x.h → ((d1.core x.n).task.map (·.tandem)) = some 0 →
     ∃ d2 d3, acts (.ldG c e) s c d3 ∧
       Writes d2 x (accParts x) (fun v =>
         let r := (nearBytes (d1.core x.n) x.slot (dpaOf rs v) (accBytes x)).getD (0, false)
         (extended x r.1, r.2)) 0 d3 ∧
       { d2 with nave := d1.nave, clr := d1.clr } = d1 ∧
       (∀ m, { d2.core m with l1order := [] } = { d1.core m with l1order := [] })) ∧
  LoadsWaitForTheirLines

/-- ST.G of a task of one core, relaxed, with room in the store buffer of its stall (R51, R56, R57): the choir's entries then hold every
byte stored, the highest voice's where several store one byte of device memory, and nothing but the buffer and the PC changes. -/
def Obligations.GlobalStoresEnterTheBuffer : Prop :=
  ∀ s c e d x t d1 rs, Issues s c e 0x65 (specStore true) d x → globFair d x (voicesOf x.ex) 1 t d1 rs → accOrder x = 0 →
    ((d1.core x.n).task.map (·.tandem)) = some 0 → ((d1.core x.n).choir x.slot).wait = .none →
    ((d1.core x.n).stallEntries (x.slot % 4)).length + ((voicesOf x.ex).map fun v => dpaOf rs v / 32).dedup.length ≤ 16 →
    (∀ v ∈ voicesOf x.ex, dpaOf rs v % accBytes x = 0) →
    ∃ sb', let c' := { d1.core x.n with sb := sb' }
      let h' := { c'.choir x.slot with pc := (c'.choir x.slot).pc + 16 }
      acts (.stG c e) s c (d1.setCore x.n (c'.setChoir x.slot h')) ∧
      ∀ v ∈ voicesOf x.ex, ∀ k < accBytes x,
        (∀ u ∈ voicesOf x.ex, v < u → ¬(dpaOf rs u ≤ dpaOf rs v + k ∧ dpaOf rs v + k < dpaOf rs u + accBytes x)) →
        ∃ po, c'.sbLook x.slot false (dpaOf rs v + k) 1 = .whole (srcB x (accParts x) v / 256 ^ k % 256) po

/-- ATOM.G of one voice of a task of one core, relaxed, that meets no error, on a line that L2 holds without poison and that neither L1 nor
the choir's store buffer holds (R115, R130, R302): the operation takes effect in L2, the bytes around it unchanged, and the voice receives the old value. -/
def Obligations.GlobalAtomicsActInL2 : Prop :=
  ∀ s c e d x t d1 i w a v l, Issues s c e 0x72 (specAtom true) d x →
    globFair d x (acting x) 2 t d1 [(v, globAddrOf x v, .dev i w a)] → acting x = [v] → accOrder x = 0 → bit (iMod x.w) 10 = false → e = .none →
    d.windowAt t.owner (globAddrOf x v) = some (i, w) → w.home ≠ 3 → a % accBytes x = 0 →
    ((d1.core x.n).task.map (·.tandem)) = some 0 → (d1.core x.n).choir x.slot = x.h → mget (d1.core x.n).l1 (a / 128) = none →
    (d1.core x.n).sb.any (fun y => y.slot = x.slot && !y.host && y.sector / 4 = a / 128) = false →
    d1.reachable a = true → l2Present d1 t.owner w.key a l → l.poison = 0 → d1.oget O.STREAM_ENABLE = 0 →
    let o := a % 128
    let old := bits l.data (8 * o) (8 * accBytes x)
    let new := atomResult (bits (iMod x.w) 12 4) (accBytes x) old (atomB x v) (srcC x (accParts x) v)
    ∃ d2 d3 l', acts (.atomG c e) s c d3 ∧ Writes d2 x (accParts x) (fun _ => (old, false)) 0 d3 ∧
      mget d2.l2.lines (a / 128) = some l' ∧ l'.dirty = true ∧ l'.poison = 0 ∧ bits l'.data (8 * o) (8 * accBytes x) = new ∧
      (∀ k < 128, k < o ∨ o + accBytes x ≤ k → bits l'.data (8 * k) 8 = bits l.data (8 * k) 8) ∧
      (∀ b, b ≠ a / 128 → mget d2.l2.lines b = mget d1.l2.lines b) ∧ d2.mem = d1.mem

/-- FENCE drains the store buffer and invalidates clean bytes of L1 by its scope, and CWAIT compares a doubleword of LM and waits (R80,
R131, R278 to R283). -/
def Obligations.FencesAndCwaitOrderAccesses : Prop :=
  FencesDrainAndInvalidate ∧ CwaitComparesADoubleword

/-- Arrival counters count phases, ACT_WAIT and ACT_READ look at them, and the barriers release at their last arrival (R68, R69,
R71 to R73, R75, R77 to R79, R156); the updates of one core clock take effect in the order of R73. That a barrier count of 0 raises ERR_BARRIER_COUNT is the model's reading (assumption 21). -/
def Obligations.CountersAndBarriersCountArrivals : Prop :=
  ArrivalCountersCountPhases ∧ ArrivalWaitsAndReads ∧ BarriersReleaseOnTheLastArrival ∧ ClocksEndInOrder

/-- MMA, MWAIT and MFLAGS issue and await tokens, and the matrix unit decodes, starts and completes its instructions in order (R163, R164,
R173 to R178, R201, R214 to R217). -/
def Obligations.MatrixInstructionsRunInOrder : Prop :=
  MatrixTokensAreIssuedInOrder ∧ MatrixUnitDecodesStartsAndCompletes

/-- In EXACT_FMA mode each position of an FP64 matrix instruction of a lone core equals the scalar loop of DFMA over its row of A and its
row of B from the same accumulator input (R255). -/
def Obligations.MatrixFp64EqualsScalarLoop : Prop :=
  ∀ s n q rest x r j, n < 256 → (s.dev.core n).mmq = q :: rest → q.desc = some x → (s.dev.core n).exc = none → mdGang x = 0 →
    mdA x = 4 → mdB x = 4 → mdBlock x = false → mdScale x = false → mdStore x = false → mdFtz x = false → mdIn x < 2 →
    q.res = none → keysRise (s.dev.core n).mmFlags = true → r < min 16 (mdM x) → j < min 16 (mdN x) →
    let c := s.dev.core n
    let loop := scalarLoop (matElem c (mdWord x 0) (mdWord x 2) (mdSkew x) r) (matElem c (mdWord x 1) (mdWord x 3) (mdSkew x) j) (mdK x)
      (if mdIn x = 1 then dget 0 (c.tile (mdTile x)).vals (64 * r + j) else 0)
    ∃ d' sum, exec (.mmaComplete n .none) s = .next { s with dev := d' } ∧
      dget 0 ((d'.core n).tile (mdTile x)).vals (64 * r + j) = loop.1 ∧
      (mget (d'.core n).mmFlags q.token = some sum → loop.2 ||| (sum &&& 31) = sum &&& 31)

/-! ### Copies, stores that drain, and tasks -/

/-- ACOPY queues copies, and each completion carries one out and credits its counter (R70, R132, R133, R277). -/
def Obligations.AsyncCopiesAreQueuedAndMoveData : Prop :=
  AsyncCopiesAreQueued ∧ AsyncCopiesMoveData

/-- Store buffers drain in order by scope, and a load held by a partial overlap issues again (R59, R61, R268, R276). -/
def Obligations.BuffersDrainAndHeldLoadsReissue : Prop :=
  StoreBuffersDrainInOrder ∧ HeldLoadsIssueAgain

/-- TASK_START of a dispatch that the core has not begun (R30, R32, R76, R141, R194, R291): a task without streams starts; once a core has
started, its choirs stand at ENTRY with the registers of Table 3.8, its counters, barriers and tiles are cleared, no L1 line is valid,
and LM is zero after another owner's task. -/
def Obligations.StartedTasksBeginClean : Prop :=
  ∀ s n t, n < 256 → (s.dev.core n).task = some t → (s.dev.core n).started = false → (s.dev.core n).exc = none →
    (s.dev.core n).state ≠ 4 → (s.dev.core n).boot = 0 → t.tandem = 0 →
    ∃ d', exec (.taskStart n) s = .next { s with dev := d' } ∧ (bits t.body 206 5 = 0 → (d'.core n).started = true) ∧
      ((d'.core n).started = true →
        (d'.core n).task = some t ∧ (∀ slot < t.choirs, startsAt t (n - t.first) slot ((d'.core n).choir slot)) ∧
        (d'.core n).acts = [] ∧ (d'.core n).bars = [] ∧ (d'.core n).tiles = [] ∧ (d'.core n).mmq = [] ∧ (d'.core n).l1 = [] ∧
        (d'.core n).streams.length = bits t.body 206 5 ∧
        ∀ a, (∀ e ∈ (d'.core n).streams, ∀ b, b = bits e.2.record 160 32 ∨ b = bits e.2.record 128 32 → a < b ∨ b + 8 ≤ a) →
          lmByte d' n a = if (s.dev.core n).lastOwner = t.owner then lmByte s.dev n a else 0)

/-- TASK_COMPLETE of a core whose choirs have all ended and whose work has drained, its stores and lines all of reachable channel groups,
leaves it without work of its choirs and reports its part complete; its streams go on until the last core of the task completes. TASK_ABORT of a core with
a cause zeroes LM and frees every core of the task, and reports the cause (R183, R218, R290, R383). -/
def Obligations.TasksEndReported : Prop :=
  (∀ s n t x, n < 256 → (s.dev.core n).task = some t → t.tandem = 0 → s.dev.completable n = true → (s.dev.core n).exc = none →
    s.dev.node t.order = some x → x.state = .running → x.dispatches = t.dispatch →
    (∀ y ∈ (s.dev.core n).sb, y.host = false → s.dev.reachable (128 * (y.sector / 4)) = true) →
    (∀ y ∈ (s.dev.core n).l1, s.dev.reachable (128 * y.1) = true) →
    ∃ d', exec (.taskComplete n) s = .next { s with dev := d' } ∧ spent (d'.core n) ∧ (d'.core n).task = some t ∧
      (n ∈ t.cores → (∀ m ∈ t.cores, m ≠ n → ((s.dev.core m).task.map (·.order)) = some t.order → (s.dev.core m).isDone = true) →
        (d'.core n).streams = []) ∧
      (d'.core n).acts = (s.dev.core n).acts ∧ (d'.core n).lm = (s.dev.core n).lm ∧ reported d' t n 1 0) ∧
  (∀ s n t e x cause detail, n < 256 → cause < 256 → detail < 256 → (s.dev.core n).task = some t → (s.dev.core n).exc = some e →
    e.cause ≠ 0 → e.recs = [] → n ∈ t.cores → s.dev.node t.order = some x → x.state = .running → x.dispatches = t.dispatch →
    ∃ d', exec (.taskAbort n cause detail) s = .next { s with dev := d' } ∧ reported d' t n 2 e.cause ∧
      ∀ m ∈ t.cores, (s.dev.core m).task = some t → bare (d'.core m) ∧ (d'.core m).lm = [] ∧ (d'.core m).task = (s.dev.core m).next)

/-- DEADLOCK_DETECTOR_FIRE on a core that has been quiet for 65,536 core clocks with its whole gang stops every core of the task, core n with
ERR_DEADLOCK (0x09), and counts the event (R93, R95, Table 2.9); while some core of the gang has not it does nothing (R92). -/
def Obligations.DeadlocksAreDetected : Prop :=
  ∀ s n t, n < 256 → (s.dev.core n).task = some t → n ∈ t.cores →
    ((∀ m ∈ t.cores, s.dev.quiet m = true ∧ 65536 ≤ (s.dev.core m).quietFor) →
      ∃ d', exec (.deadlockDetectorFire n) s = .next { s with dev := d' } ∧
        d'.oget O.DEADLOCK_EVENTS = s.dev.oget O.DEADLOCK_EVENTS + 1 ∧ d'.clr.snap.isSome = true ∧
        ((d'.core n).exc.map (·.cause)) = some 9 ∧
        ∀ m ∈ t.cores, (s.dev.core m).task.isSome = true → (d'.core m).exc.isSome = true ∧ (d'.core m).choirs = (s.dev.core m).choirs) ∧
    ((∃ m ∈ t.cores, s.dev.quiet m = false ∨ (s.dev.core m).quietFor < 65536) →
      exec (.deadlockDetectorFire n) s = .next s)

/-! ### The Lark, Bilxel and Starling -/

/-- Bilxel instructions compute on A registers and loop counters, and EMIT queues blocks in their ring (R374, R388, R389, R391). -/
def Obligations.BilxelProgramsEmitBlocks : Prop :=
  BilxelInstructionsCompute ∧ EmitQueuesABlock

/-- The Lark issues blocks below its limit, landed blocks stand in LM, and Starling serves its groups round-robin (R376 to R380, R384,
R396 to R400). -/
def Obligations.BlocksIssueLandAndAreServed : Prop :=
  BlocksIssueBelowTheLimit ∧ LandedBlocksAreInLm ∧ StarlingServesGroupsRoundRobin

/-! ### The L2 and the crossing -/

/-- An L2 lookup hits, merges or waits for a fill, and a fill serves the waiting read and installs its line (R319, R336). -/
def Obligations.CacheLookupsAndFills : Prop :=
  LookupsHitMergeOrWait ∧ FillsInstallTheLine

/-- The crossing counts failures and loses modules, sub-arrays are steered, and L2 maintenance clears what it selects (R345 to
R347, R361 to R363). That eight failures in a row of one direction fail the crossing is the model's reading (assumption 32). -/
def Obligations.CrossingAndMaintenance : Prop :=
  CrossingFailuresAndSteering ∧ MaintenanceClearsItsSelection

/-! ### Translation and fault batches -/

/-- A walk installs its leaf, an error of a window table reloads it, and fault batches close after 20 µs and drain by FAULT_GET (R463 to R467,
R482, R485 to R487, R503, R504). -/
def Obligations.TranslationWalksAndFaultBatches : Prop :=
  WalkedLeavesAreInstalled ∧ FaultBatchesCloseAndDrain

/-- ATS_COMPLETION of a grant that has the right asked for installs it in the ATC for the window that asked, and any other answer is kept for
the access that waits; ATS_INVALIDATE_REQUEST removes every entry of its function that overlaps and answers once no request that used
one is yet to be issued; PRG_RESPONSE and PRI_TIMEOUT_EXPIRY settle the page requests of a closed batch, after which one that waits
for the function's allocation is sent (R465, R477, R478, R490, R491). -/
def Obligations.HostTranslationsComeAndGo : Prop :=
  (∀ s fn a ask, fn ≤ 256 → a.kind ≤ 3 → a.u < 2 ^ 64 → 4096 ≤ a.size → a.size ≤ 2 ^ 30 → a.size &&& (a.size - 1) = 0 →
    s.dev.host.atsSent.find? (fun r => r.1 = fn && r.2.1 = a.u / 4096 && r.2.2.2 = a.write) = some ask →
    ∃ d', exec (.atsCompletion fn a) s = .next { s with dev := d' } ∧ d'.host.atsSent = s.dev.host.atsSent.erase ask ∧ d'.mem = s.dev.mem ∧
      if a.kind = 0 ∧ (if a.write then a.w else a.r) = true then
        d'.host.atsReplies = s.dev.host.atsReplies ∧ ∃ rest, (∀ e ∈ rest, e ∈ s.dev.tr.atc) ∧
        d'.tr.atc = ⟨if fn = 0 then 256 else fn - 1, ask.2.2.1, false, a.u / a.size * a.size, a.size, a.pa / a.size * a.size, a.r, a.w,
          false⟩ :: rest
      else d'.tr.atc = s.dev.tr.atc ∧
        d'.host.atsReplies = s.dev.host.atsReplies ++ [(fn, { a with kind := if a.kind = 0 then 2 else a.kind })]) ∧
  (∀ s fn addr size tag, fn ≤ 256 →
    let uses := fun (v : Via) => v.host = true ∧ v.cached = true ∧ v.fn = fn ∧ addr / 4096 ≤ v.u / 4096 ∧ v.u < addr + size ∧
      v.epoch ≤ s.dev.tr.epoch
    ∃ d', exec (.atsInvalidateRequest fn addr size tag) s = .next { s with dev := d' } ∧
      d'.oget O.ATS_INVALIDATIONS = s.dev.oget O.ATS_INVALIDATIONS + 1 ∧
      (s.dev.host.atsInvs = [] → (s.dev.func fn).inFlr = false → (∀ v ∈ s.dev.unsent, ¬ uses v) →
        d'.out = .invDone fn tag :: s.dev.out ∧ d'.host.atsInvs = []) ∧
      (s.dev.host.atsInvs = [] → (∃ v ∈ s.dev.unsent, uses v) →
        d'.out = s.dev.out ∧ d'.host.atsInvs = [⟨fn, tag, addr, size, s.dev.tr.epoch⟩]) ∧
      ∀ e, e ∈ d'.tr.atc ↔ e ∈ s.dev.tr.atc ∧ ¬ (e.owner = (if fn = 0 then 256 else fn - 1) ∧ e.page < addr + size ∧
        addr < e.page + e.span)) ∧
  (∀ s fn prg code, fn ≤ 256 → prg < 512 → (∀ t ∈ s.dev.tr.tracks, fnOf t.rcd.owner = fn → t.pri ≠ 4) →
    ∃ d', exec (.prgResponse fn prg code) s = .next { s with dev := d' } ∧
    { d' with tr := { d'.tr with tracks := s.dev.tr.tracks } } = s.dev ∧
    d'.tr.tracks = s.dev.tr.tracks.map fun t =>
      if t.pri = 1 ∧ fnOf t.rcd.owner = fn ∧ t.rcd.seq % 512 = prg ∧ t.rcd.seq ≠ s.dev.tr.batchSeq then
        { t with pri := if code = 0 then 2 else 3 } else t) ∧
  (∀ s fn prg code t w, fn ≤ 256 → prg < 512 →
    s.dev.tr.tracks.filter (fun y => fnOf y.rcd.owner = fn && y.pri = 4 && y.rcd.seq ≠ s.dev.tr.batchSeq) = [t] →
    s.dev.window t.rcd.owner t.rcd.window = some w →
    (s.dev.tr.tracks.filter fun y => fnOf y.rcd.owner = fn && y.pri = 1 && (y.rcd.seq % 512 ≠ prg || y.rcd.seq = s.dev.tr.batchSeq)).length <
      (s.dev.func fn).prAlloc →
    ∃ d', exec (.prgResponse fn prg code) s = .next { s with dev := d' } ∧
      d'.out = .page fn ((w.hostBase + (t.rcd.va - w.base)) / 4096 * 4096) (t.rcd.seq % 512)
        (decide (t.rcd.access = 1 ∨ t.rcd.access = 2)) true :: s.dev.out ∧
      d'.oget O.PRI_PAGE_REQUESTS = s.dev.oget O.PRI_PAGE_REQUESTS + 1) ∧
  (∀ s fn prg, fn ≤ 256 → prg < 512 → (∀ t ∈ s.dev.tr.tracks, fnOf t.rcd.owner = fn → t.pri ≠ 4) →
    ∃ d', exec (.priTimeoutExpiry fn prg) s = .next { s with dev := d' } ∧
    { d' with tr := { d'.tr with tracks := s.dev.tr.tracks } } = s.dev ∧
    d'.tr.tracks = s.dev.tr.tracks.map fun t =>
      if t.pri = 1 ∧ fnOf t.rcd.owner = fn ∧ t.rcd.seq % 512 = prg ∧ t.rcd.seq ≠ s.dev.tr.batchSeq ∧
        t.sentAt + 1000000 * s.dev.oget O.PRI_TIMEOUT ≤ s.dev.time then { t with pri := 3 } else t)

/-! ### The host port -/

/-- Accesses of the host that are served (R518 to R524, R530, R547, R1062): a doorbell latches its queue; a BAR0 read completes with the
register; PF BAR2 reads memory of the device; the MSI-X table reads and takes what is written; unmasking clears the mask; a write
that no register takes, a poisoned one among them, is discarded and counted. -/
def Obligations.HostAccessesReachTheirRegisters : Prop :=
  (∀ s owner q v, owner ≤ 256 → q < 16 → v < 2 ^ 32 → s.dev.barGate (fnOf owner) = 0 →
    ∃ d', exec (.doorbell owner q v false) s = .next { s with dev := d' } ∧
      d'.queue (16 * owner + q) = { s.dev.queue (16 * owner + q) with latch := some v } ∧
      (∀ k, k ≠ 16 * owner + q → d'.queue k = s.dev.queue k) ∧ d'.oget O.DOORBELLS = s.dev.oget O.DOORBELLS + 1) ∧
  (∀ s fn, fn ≤ 256 → s.dev.barGate fn = 0 →
    exec (.barRead fn 0 0 4) s = .next { s with dev := s.dev.emit (completes fn 4 (s.dev.port fn).addr) } ∧
    exec (.barRead fn 0 0x10000 4) s = .next { s with dev := s.dev.emit (completes fn 4 0) }) ∧
  (∀ s off n d1 bs po, off < 2 ^ 39 → 0 < n → n ≤ 4096 → s.dev.barGate 0 = 0 → s.dev.bar2Inside off n = true →
    s.dev.bar2Reach off n = true → s.dev.dpaReadAll 258 256 off n = (d1, bs, po) →
    exec (.pfBar2Access false off [] n false) s = .next { s with dev := d1.emit (.cpl 0 0 bs po) }) ∧
  (∀ s off bs ep, off < 2 ^ 39 → 0 < bs.length → bs.length ≤ 4096 → s.dev.barGate 0 = 0 → s.dev.bar2Inside off bs.length = true →
    s.dev.bar2Reach off bs.length = true → ep = false →
    exec (.pfBar2Access true off bs bs.length ep) s = .next { s with dev := s.dev.dpaWriteAll 258 256 off bs ep }) ∧
  (∀ s fn vec off, fn ≤ 256 → vec < (if fn = 0 then 256 else 32) → (off = 0 ∨ off = 4 ∨ off = 8 ∨ off = 12) → s.dev.barGate fn = 0 →
    let at_ := (if fn = 0 then 0x20000 else 0x1000) + 16 * vec + off
    let e := (s.dev.func fn).entry vec
    let word := bits (e.addr + e.data * 2 ^ 64 + b2n e.masked * 2 ^ 96) (8 * off) 32
    exec (.msixTableAccess fn false at_ 4 0) s = .next { s with dev := s.dev.emit (completes fn 4 word) } ∧
    ∀ v, (s.dev.func fn).pba = [] → ∃ d', exec (.msixTableAccess fn true at_ 4 v) s = .next { s with dev := d' } ∧
      (off = 8 → (d'.func fn).entry vec = { msixOf e.word with data := v % 2 ^ 32 }) ∧
      (off = 12 → ((d'.func fn).entry vec).masked = decide (v % 2 = 1)) ∧
      ∀ u, u ≠ vec → (d'.func fn).entry u = (s.dev.func fn).entry u) ∧
  (∀ s fn vec, fn ≤ 256 → vec < (if fn = 0 then 256 else 32) → s.dev.barGate fn = 0 →
    ∃ d', exec (.msixUnmask fn vec) s = .next { s with dev := d' } ∧ ((d'.func fn).entry vec).masked = false ∧
      (s.dev.msixOpen fn = true → (s.dev.func fn).pba = [vec] → (d'.func fn).pba = [] ∧
        ∃ a v, d'.out = .msix fn vec a v :: s.dev.out)) ∧
  (∀ s fn off size ep, fn ≤ 256 → 0 < size → size ≤ 4096 → s.dev.barGate fn = 0 → size ≠ 4 → size ≠ 8 →
    ∃ d', exec (.bar0DiscardedWrite fn off size ep) s = .next { s with dev := d' } ∧
      d'.oget O.BAR_MISUSE = s.dev.oget O.BAR_MISUSE + 1 ∧ d'.prec = s.dev.prec ∧ d'.dict = s.dev.dict ∧ d'.mem = s.dev.mem ∧
      (ep = true → d'.oget O.HOST_POISON_RECEIVED = s.dev.oget O.HOST_POISON_RECEIVED + 1)) ∧
  (∀ s t off bs d1 ps, t < 256 → off < 2 ^ 24 → 0 < bs.length → bs.length ≤ 4096 → s.dev.barGate (t + 1) = 0 →
    off % 2 ^ 20 + bs.length ≤ 64 * (s.dev.queue (16 * t + off / 2 ^ 20)).pqSlots → off % 2 ^ 20 + bs.length ≤ 2 ^ 20 →
    let va := (s.dev.queue (16 * t + off / 2 ^ 20)).pqBase + off % 2 ^ 20
    s.dev.ringPieces t va bs.length = (d1, some ps) → (∀ p ∈ ps, ∃ i w x, p.1 = .dev i w x) →
    let d' := ps.foldl (fun d p =>
      match p.1 with
      | .dev _ w x => d.winWrite 258 t w x ((bs.drop (p.2.1 - va)).take p.2.2) false
      | _ => d) d1
    exec (.vfBar2Write t off bs false) s = .next { s with dev := d' })

/-- Function resets and configuration (R515, R517, R533 to R540, R545): an FLR of a VF without a context resets its function at once, one with a
context starts a teardown; a PF FLR resets the PF and clears VF Enable; clearing VF Enable disables the VFs; Bus Master Enable, D3hot,
the MSI-X control word, the AER registers and NumVFs take what is written, and errors are reported by their severity. -/
def Obligations.FunctionsResetAndConfigure : Prop :=
  (∀ s t, t < 256 → s.dev.configGate (t + 1) = true →
    (s.dev.hasContext t = false → ∃ d', exec (.flr t) s = .next { s with dev := d' } ∧ (d'.func (t + 1)).inFlr = false ∧
      (d'.func (t + 1)).busMaster = false ∧ (d'.func (t + 1)).table = [] ∧ d'.oget O.FLR_EVENTS = s.dev.oget O.FLR_EVENTS + 1) ∧
    (s.dev.hasContext t = true → ∃ d', exec (.flr t) s = .next { s with dev := d' } ∧ (d'.func (t + 1)).inFlr = true ∧
      ((∃ h ∈ d'.logs.queue, h.tenant = t ∧ h.flr = true) ∨ ∃ h ∈ d'.logs.teardowns, h.tenant = t ∧ h.flr = true))) ∧
  (∀ s, s.dev.configGate 0 = true → s.dev.host.numVfs ≤ 256 → (∀ t < 256, s.dev.hasContext t = false) → s.dev.logs.queue = [] → s.dev.logs.teardowns = [] →
    ∃ d', exec .pfFlr s = .next { s with dev := d' } ∧ (d'.func 0).inFlr = false ∧ (d'.func 0).busMaster = false ∧
      d'.host.vfEnable = false) ∧
  (∀ s, s.dev.configGate 0 = true → ∃ d', exec .vfEnableClear s = .next { s with dev := d' } ∧ d'.host.vfEnable = false) ∧
  (∀ s fn on, fn ≤ 256 → s.dev.configGate fn = true →
    ∃ d', exec (.busMasterEnableChange fn on) s = .next { s with dev := d' } ∧ (d'.func fn).busMaster = on ∧
      (on = false → { d' with host := s.dev.host } = s.dev)) ∧
  (∀ s, s.dev.configGate 0 = true →
    exec .d3hotEntry s = .next { s with dev := { s.dev with host := { s.dev.host with d3hot := true } } } ∧
    ∃ d', exec .d0Return s = .next { s with dev := d' } ∧ d'.host.d3hot = false) ∧
  (∀ s fn v, fn ≤ 256 → v < 2 ^ 32 → s.dev.configGate fn = true →
    (∃ d', exec (.configWrite fn 0x04 v) s = .next { s with dev := d' } ∧ (d'.func fn).busMaster = bit v 2) ∧
    (∃ d', exec (.configWrite fn 0xA2 v) s = .next { s with dev := d' } ∧ (d'.func fn).msixEnable = bit v 15 ∧
      (d'.func fn).funcMask = bit v 14)) ∧
  ErrorsAreReportedToTheHost

/-- The host link (R509 to R512, R543, R548, R550): it comes up FULL at 64 GT/s on 4 lanes or more and LIMITED otherwise, a retrain changes
rate and width, going down leaves no read in flight; data of a completion ends its read; PERST# edges move the pin. -/
def Obligations.HostLinkComesAndGoes : Prop :=
  (∀ s rate width, s.dev.boot.inReset = false → s.dev.oget (O.PD_STATE 1) = 2 → s.dev.host.perst = false →
    s.dev.oget O.HOSTPORT_STATE = 0 → widthOk rate width (s.dev.oget O.HOST_WIDTH_STRAP) = true →
    ∃ d', exec (.hostLinkUp rate width) s = .next { s with dev := d' } ∧ linkShows d' rate width ∧ { d' with objs := s.dev.objs } = s.dev) ∧
  (∀ s rate width, s.dev.boot.inReset = false → s.dev.oget O.HOSTPORT_STATE ≠ 0 →
    widthOk rate width (s.dev.oget O.HOST_WIDTH_STRAP) = true →
    ∃ d', exec (.hostportStateChange rate width) s = .next { s with dev := d' } ∧ linkShows d' rate width) ∧
  (∀ s, s.dev.oget O.HOSTPORT_STATE ≠ 0 → ∃ d', exec .hostLinkDown s = .next { s with dev := d' } ∧
    d'.oget O.HOSTPORT_STATE = 0 ∧ d'.oget O.HOST_LINK_RATE = 0 ∧ d'.oget O.HOST_LINK_WIDTH = 0 ∧ d'.host.reads = [] ∧
    d'.host.held = []) ∧
  (∀ s tag r bs, tag < 16384 → s.dev.host.reads.find? (fun r => r.tag = tag && r.sent) = some r → r.abandoned = false → r.use = 8 →
    bs.length = r.len → s.dev.host.reads = [r] →
    ∃ d', exec (.hostCompletion tag 0 bs false .none) s = .next { s with dev := d' } ∧ d'.host.reads = [] ∧
      (d'.queue r.arg).cqGet = leNat bs % 2 ^ 32) ∧
  (∀ s, s.dev.pkg.powered = true → s.dev.boot.resetN = false → s.dev.host.perst = false → s.dev.oget O.PERST_ACTION ≠ 0 →
    ∃ d', exec .perstEdge s = .next { s with dev := d' } ∧ d'.host.perst = true ∧
      (s.dev.oget O.HOSTPORT_STATE = 0 → { d' with host := s.dev.host } = s.dev)) ∧
  (∀ s strap, strap < 4 → s.dev.pkg.powered = true → s.dev.boot.resetN = false → s.dev.host.perst = true →
    ∃ d', exec (.perstDeassert strap) s = .next { s with dev := d' } ∧ d'.host.perst = false ∧ d'.pkg.strap = strap ∧
      d'.oget O.HOST_WIDTH_STRAP = if strap = 0 then 16 else if strap = 1 then 8 else 4)

/-! ### The precentor -/

/-- The packets of a graph (R572 to R576): a node packet adds an ACCEPTED node to its OPEN graph; an EDGE makes its node depend on each
named predecessor once; a SEAL makes the roots READY and the others WAITING, and cancels those that need a node which has failed. -/
def Obligations.GraphPacketsBuildGraphs : Prop :=
  NodeResult .task 0x01 ∧ NodeResult .signal 0x04 ∧ NodeResult .wait 0x05 ∧ NodeResult .copy 0x06 ∧ NodeResult .reshard 0x07 ∧
  NodeResult .collective 0x08 ∧ NodeResult .timestamp 0x09 ∧ NodeResult .watch 0x0A ∧ NodeResult .nopPacket 0x0B ∧
  (∀ s owner q p g x, let P := packetOf 2 p
    let k := 16 * owner + q
    let preds := distinct ((rangeFrom 0 (bits P 64 4)).map fun i => bits P (96 + 32 * i) 32)
    let all := distinct (x.preds ++ preds)
    Takes s owner q P → s.dev.graph owner q (bits P 16 16) = some g → g.isSealed = false → g.failed = false →
    s.dev.nodeIn owner q (bits P 16 16) (bits P 32 32) = some x →
    (∀ i ∈ preds, ∃ y, s.dev.nodeIn owner q (bits P 16 16) i = some y ∧ y.order < x.order) → all.length ≤ 64 →
    ∃ d', exec (.edge owner q p) s = .next { s with dev := d' } ∧ passed s.dev d' k ∧
      d'.prec.nodes = s.dev.prec.nodes.map (fun y => if y.order = x.order then { y with preds := all, left := all.length } else y)) ∧
  (∀ s owner q p g, let P := packetOf 3 p
    let k := 16 * owner + q
    let mine := s.dev.prec.nodes.filter fun x => x.ofGraph owner q (bits P 16 16)
    Takes s owner q P → s.dev.graph owner q (bits P 16 16) = some g → g.isSealed = false → g.failed = false → mine ≠ [] →
    (s.dev.prec.nodes.map (·.order)).Nodup → (∃ z ∈ mine, z.preds = [] ∧ z.state.ended = false) →
    ∃ d', exec (.seal owner q p) s = .next { s with dev := d' } ∧ passed s.dev d' k ∧
      (bit P 64 = false → (d'.graph owner q (bits P 16 16)).map (fun g => (g.isSealed, g.stopOnFail)) = some (true, false)) ∧
      ((∀ x ∈ mine, x.state.ended = false) →
        (d'.graph owner q (bits P 16 16)).map (fun g => (g.isSealed, g.stopOnFail)) = some (true, bit P 64) ∧
        d'.prec.nodes.map (fun y => (y.order, y.state)) = s.dev.prec.nodes.map fun y => (y.order,
          if y.ofGraph owner q (bits P 16 16) then (if y.preds.isEmpty then NState.ready else .waiting) else y.state)) ∧
      (bit P 64 = false → ∀ x ∈ mine, x.state.ended = false →
        (∃ i ∈ x.preds, ∃ y, s.dev.nodeIn owner q (bits P 16 16) i = some y ∧ y.state = .failed) →
        ∃ y ∈ d'.prec.nodes, y.order = x.order ∧ y.state = .cancelled))

/-- The packets that act on device state (R419, R429, R454, R470, R489, R569, R570, R607, R613, R649, R650, R677): each, accepted with its
checks passed, has its effect and posts its record; TLB_INVALIDATE and a teardown's record wait for their end. -/
def Obligations.QueuePacketsActAndAreRecorded : Prop :=
  (∀ s owner q p, let P := packetOf 0x0C p
    let k := 16 * owner + q
    Takes s owner q P → (∀ w ∈ (s.dev.queue k).waits, w.opc ≠ 0x0C) →
    ∃ d', exec (.fencePacket owner q p) s = .next { s with dev := d' } ∧ passed s.dev d' k ∧
      ((s.dev.queue k).waits = [] → bit P 64 = false → recorded s.dev d' k P 0 0 0 ∧ (d'.queue k).fencing = false) ∧
      ((∃ w ∈ (s.dev.queue k).waits, w.seq < s.dev.prec.nextOrder) → (d'.queue k).fencing = true)) ∧
  (∀ s owner q p d1 bs, let P := packetOf 0x0D p
    let k := 16 * owner + q
    let h := bits P 64 16
    Takes s owner q P → h < 4096 → s.dev.descStateOf owner h = 0 →
    (begun s.dev k P).gatherRead owner s.dev.prec.nextOrder (bits P 128 64) 128 4 = (d1, .ok bs false) → d1.descCheck owner (leNat bs) = none →
    let d2 := d1.dpaWriteAll 259 256 (d1.descAddr owner h) bs false
    let d3 := { d2 with prec := { d2.prec with descState := mset d2.prec.descState (4096 * owner + h) 1 } }
    exec (.descCreate owner q p) s = .next { s with dev := d3.completePacket k (waitOf s.dev k P) 0 0 h 0 }) ∧
  (∀ s owner q p, let P := packetOf 0x0E p
    let k := 16 * owner + q
    let h := bits P 64 16
    Takes s owner q P → h < 4096 → s.dev.descStateOf owner h ≠ 0 →
    ∃ d', exec (.descDestroy owner q p) s = .next { s with dev := d' } ∧ passed s.dev d' k ∧
      (s.dev.descRefs owner h = 0 → d'.descStateOf owner h = 0 ∧ recorded s.dev d' k P 0 0 h) ∧
      (s.dev.descRefs owner h ≠ 0 → d'.descStateOf owner h = s.dev.descStateOf owner h ∧ recorded s.dev d' k P 4 3 h)) ∧
  (∀ s q p, let P := packetOf 0x80 p
    let k := 16 * 256 + q
    let c := bits P 64 4
    let mask := bits P 96 16
    Takes s 256 q P → (∀ b < 16, b ≠ c → s.dev.qtrs b &&& mask = 0) →
    (∀ i < 16, bit mask i = true → s.dev.octFailed (octOfQtr i) = false) → (∀ x ∈ s.dev.prec.nodes, s.dev.ownCause x = none) →
    ∃ d', exec (.chapelSet 256 q p) s = .next { s with dev := d' } ∧ passed s.dev d' k ∧
      d'.oget (O.CHAPEL c) = mask + bits P 68 2 * 2 ^ 16 ∧ recorded s.dev d' k P 0 0 0) ∧
  (∀ s q p d1 bs, let P := packetOf 0x81 p
    let k := 16 * 256 + q
    let es := (rangeFrom 0 (bits P 64 11)).map fun i => leNat ((bs.drop (16 * i)).take 16)
    Takes s 256 q P → bits P 192 64 % 1000 = 0 →
    (begun s.dev k P).gatherRead 256 s.dev.prec.nextOrder (bits P 128 64) (16 * bits P 64 11) 132 = (d1, .ok bs false) →
    (∀ e ∈ es, horEntryBad (bits P 96 32) e = none) →
    ∃ d', exec (.horariumLoad 256 q p) s = .next { s with dev := d' } ∧ (∃ r, (d'.queue k).fresh = (d1.queue k).fresh ++ [r] ∧ r.kind = 3 ∧
      r.packet = (s.dev.queue k).get ∧ r.opcode = bits P 0 8 ∧ r.irq = bit P 9 ∧ r.cause = 0) ∧
      d'.prec.sched.staged = some ⟨bits P 96 32, bits P 192 64, es.map horEntryOf, d1.time⟩ ∧
      d'.prec.sched.active = d1.prec.sched.active ∧ d'.oget O.HOR_STAGED = 1) ∧
  (∀ s q p, let P := packetOf 0x82 p
    let k := 16 * 256 + q
    let t := bits P 64 8
    Takes s 256 q P →
    ∃ d', exec (.contextKill 256 q p) s = .next { s with dev := d' } ∧ passed s.dev d' k ∧
      (s.dev.oget (O.TENANT_STATE t) = 0 → recorded s.dev d' k P 0 0 0) ∧
      (s.dev.oget (O.TENANT_STATE t) ≠ 0 →
        (∃ h ∈ d'.logs.queue, h.tenant = t) ∨ ∃ h ∈ d'.logs.teardowns, h.tenant = t)) ∧
  (∀ s q p, let P := packetOf 0x83 p
    let k := 16 * 256 + q
    let r := bits P 128 256
    Takes s 256 q P →
    ∃ d', exec (.windowMap 256 q p) s = .next { s with dev := d' } ∧ passed s.dev d' k ∧ d'.tr.wins = s.dev.tr.wins ∧
      match s.dev.windowBad (bits P 64 9) r with
      | none => d'.tr.newWins = s.dev.tr.newWins ++ [⟨k, (s.dev.queue k).get, 64 * bits P 64 9 + bits r 0 6, windowOf r⟩] ∧
        recorded s.dev d' k P 0 0 0
      | some det => d'.tr.newWins = s.dev.tr.newWins ∧ recorded s.dev d' k P 3 det 0) ∧
  (∀ s q p, let P := packetOf 0x84 p
    let k := 16 * 256 + q
    let key := 64 * bits P 64 9 + bits P 73 6
    Takes s 256 q P → (bits P 64 9 = 256 ∨ s.dev.oget (O.TENANT_STATE (bits P 64 9)) ≠ 0) → (mget s.dev.tr.wins key).isSome = true →
    ∃ d', exec (.windowUnmap 256 q p) s = .next { s with dev := d' } ∧ passed s.dev d' k ∧ mget d'.tr.wins key = none ∧
      (∀ e ∈ d'.tr.atc, ¬ (e.owner = bits P 64 9 ∧ e.win = bits P 73 6)) ∧
      ∀ w ∈ d'.tr.utlb, ∀ e ∈ w.2, ¬ (e.owner = bits P 64 9 ∧ e.win = bits P 73 6)) ∧
  (∀ s q p, let P := packetOf 0x85 p
    let k := 16 * 256 + q
    Takes s 256 q P →
    ∃ d', exec (.tlbInvalidate 256 q p) s = .next { s with dev := d' } ∧ passed s.dev d' k ∧
      { d'.tr with epoch := s.dev.tr.epoch } =
        (s.dev.tlbInvalidate (bits P 64 2) (bits P 66 9) (bits P 75 6) (bits P 128 64) (bits P 192 64)).tr ∧
      (∃ i, d'.prec.invals = s.dev.prec.invals ++ [i] ∧ i.seq = s.dev.prec.nextOrder ∧ i.mode = bits P 64 2 ∧ i.owner = bits P 66 9 ∧
        i.epoch = s.dev.tr.epoch) ∧
      (bits P 64 2 = 0 → d'.tr.utlb = [] ∧ d'.tr.stlb = [] ∧ d'.tr.walk = [] ∧ d'.tr.atc = []) ∧
      (d'.queue k).waits = (s.dev.queue k).waits ++ [waitOf s.dev k P]) ∧
  (∀ s q p, let P := packetOf 0x86 (BitVec.ofNat 512 (setBits p.toNat 72 1 0))
    let k := 16 * 256 + q
    let t := bits P 64 8
    let root := bits P 128 64
    let desc := bits P 192 64
    Takes s 256 q P → s.dev.oget (O.TENANT_STATE t) = 0 → root % 32768 = 0 → s.dev.inMemory root 32768 = true → desc % 524288 = 0 →
    s.dev.inMemory desc 524288 = true →
    ∃ d', exec (.tenantSetup 256 q p) s = .next { s with dev := d' } ∧ passed s.dev d' k ∧ recorded s.dev d' k P 0 0 0 ∧
      d'.oget (O.TENANT_STATE t) = 1 ∧ d'.oget (O.PT_ROOT t) = root ∧ mget d'.prec.descTable t = some desc ∧
      mget d'.prec.quota t = some (bits P 256 21) ∧ mget d'.logs.keyGen t = some s.dev.logs.nextKey ∧
      (d'.errLog t).entries = [] ∧ ∀ h < 4096, d'.descStateOf t h = 0) ∧
  (∀ s q p, let P := packetOf 0x86 (BitVec.ofNat 512 (setBits p.toNat 72 1 1))
    let k := 16 * 256 + q
    let t := bits P 64 8
    Takes s 256 q P → s.dev.oget (O.TENANT_STATE t) ≠ 0 →
    ∃ d', exec (.tenantRelease 256 q p) s = .next { s with dev := d' } ∧ passed s.dev d' k ∧
      ((∃ h ∈ d'.logs.queue, h.tenant = t ∧ h.release = true) ∨ ∃ h ∈ d'.logs.teardowns, h.tenant = t ∧ h.release = true)) ∧
  (∀ s q p d1, let P := packetOf 0x87 p
    let k := 16 * 256 + q
    Takes s 256 q P → (begun s.dev k P).dictWrite .hk (bits P 64 16) (bits P 80 8) (bits P 88 16) 0
      (leBytes (bits P 104 5 + 1) (bits P 256 256)) = (d1, 0) →
    exec (.dictWrite 256 q p) s = .next { s with dev := d1.completePacket k (waitOf s.dev k P) 0 0 0 0 }) ∧
  (∀ s q p, let P := packetOf 0x88 p
    let k := 16 * 256 + q
    Takes s 256 q P →
    ∃ d', exec (.faultResume 256 q p) s = .next { s with dev := d' } ∧ passed s.dev d' k ∧ recorded s.dev d' k P 0 0 0 ∧
      d'.tr.tracks = s.dev.tr.tracks.map fun t =>
        if t.acted = false ∧ t.rcd.seq ≠ s.dev.tr.batchSeq ∧ s.dev.tr.timedClose ≠ some (s.dev.time, t.rcd.seq) ∧
          (bits P 64 32 + 2 ^ 32 - t.rcd.seq) % 2 ^ 32 < 2 ^ 31 ∧ (bit P 105 = true ∨ t.rcd.owner = bits P 96 9) ∧
          t.rcd.restartable = true ∧ s.dev.oget (O.TENANT_STATE t.rcd.owner) ≠ 2 then { t with acted := true, retry := !bit P 106 } else t)

/-- PRECENTOR_TICK completes in every state (R562, R617): before the firmware runs it does nothing; then it runs at the next multiple of 1 µs
that is later than the present tick and remembers it, and after a backward step of fabric time no tick runs before time has passed the
last one. That time passes only at ticks is the model's choice (assumption 4). -/
def Obligations.PrecentorTicksRun : Prop :=
  ∀ s e,
    let up := s.dev.boot.inReset = false ∧ s.dev.boot.running.isSome = true ∧ s.dev.oget O.BOOT_PHASE = 4
    let t := if s.dev.time % 1000 = 0 ∧ s.dev.prec.sched.lastTick < s.dev.time then s.dev.time else (s.dev.time / 1000 + 1) * 1000
    (¬ up → exec (.precentorTick e) s = .next s) ∧
    (up → s.dev.prec.sched.lastTick < t →
      ∃ d', exec (.precentorTick e) s = .next { s with dev := d' } ∧ d'.prec.sched.lastTick = t) ∧
    (up → t ≤ s.dev.prec.sched.lastTick →
      ∃ d', exec (.precentorTick e) s = .next { s with dev := d' } ∧
        d' = ((((s.dev.timePass t).passAll).opsLinks).pullNext).deliverAll)

/-- The timers of nodes and queues (R146, R586 to R588): TASK_TIMEOUT and WAIT_TIMEOUT of a due timer complete with the node failed by
ERR_TIMEOUT (0x07), BUDGET_EXPIRY with the node failed by ERR_BUDGET (0x0A), or by a cause of its own that forbids retry and that a core
of it raised in that core clock; QUEUE_TIMEOUT of a due timer completes with the queue HALTED and its nodes ended. A timer that is not
due does nothing. -/
def Obligations.TimersExpire : Prop :=
  (∀ s (n : NodeRef) x, s.dev.nodeIn n.owner n.queue n.graph n.node = some x → x.queue < 16 →
    let due := fun t => t ≠ 0 ∧ x.timerSpent = false ∧ (x.state = .ready ∨ x.state = .running ∨ x.state = .awaitResume) ∧
      x.readyAt + 1000 * t ≤ s.dev.time
    let budget := if bits x.body 224 14 = 0 then 250 else bits x.body 224 14
    let cause := fun c => (s.dev.ownCause x).elim c (·.cause)
    (x.opc = 1 → due (bits x.body 248 32) →
      ∃ d', exec (.taskTimeout n) s = .next { s with dev := d' } ∧ timedOut s.dev d' x (cause 7)) ∧
    (x.opc = 5 → due (bits x.body 96 32) →
      ∃ d', exec (.waitTimeout n) s = .next { s with dev := d' } ∧ timedOut s.dev d' x (cause 7)) ∧
    (x.opc = 1 → x.state = .running → x.dispatchedAt + 1000 * budget ≤ s.dev.time →
      ∃ d', exec (.budgetExpiry n) s = .next { s with dev := d' } ∧ timedOut s.dev d' x (cause 0x0A)) ∧
    (¬ (x.opc = 1 ∧ due (bits x.body 248 32)) → exec (.taskTimeout n) s = .next s) ∧
    (¬ (x.opc = 5 ∧ due (bits x.body 96 32)) → exec (.waitTimeout n) s = .next s) ∧
    (¬ (x.opc = 1 ∧ x.state = .running ∧ x.dispatchedAt + 1000 * budget ≤ s.dev.time) → exec (.budgetExpiry n) s = .next s)) ∧
  ∀ s owner q, owner ≤ 256 → q < 16 →
    let k := 16 * owner + q
    let y := s.dev.queue k
    let due := y.state = .enabled ∧ y.timeout ≠ 0 ∧ (∃ g ∈ s.dev.prec.graphs, g.owner = owner ∧ g.queue = q) ∧
      y.lastDone + 1000 * y.timeout ≤ s.dev.time
    (due → ∃ d', exec (.queueTimeout owner q) s = .next { s with dev := d' } ∧
      (d'.queue k).state = .halted ∧ (d'.queue k).haltCause = 7 * 256 ∧ d'.oget O.TIMER_EXPIRIES = s.dev.oget O.TIMER_EXPIRIES + 1 ∧
      (s.dev.ownerLive owner = true → ∃ r ∈ (d'.queue k).fresh, r.kind = 4 ∧ r.cause = 7) ∧
      ∀ y ∈ d'.prec.nodes, y.owner = owner → y.queue = q → y.state.ended = true) ∧
    (¬ due → exec (.queueTimeout owner q) s = .next s)

/-- QUEUE_ENABLE empties and enables a DISABLED queue whose rings its owner may use, QUEUE_RESET enables a HALTED one from its latched PUT,
QUEUE_DISABLE ends a queue without live graphs (R555, R556, R600); the horarium switches at its boundary, a boundary preempts a
restartable task of a STRICT chapel that is no longer admitted, and URGENT floors are those wanted (R614, R627, R631). -/
def Obligations.QueuesAndHorariumAreControlled : Prop :=
  (∀ s p d1, mayWrite s p 0x4010 7 → s.dev.oget (O.PD_STATE 1) = 2 →
    let k := (s.dev.sel p).queueSel
    (∀ bs b, (s.dev.queue k).state = .disabled → s.dev.queueConfigOk k = true →
      s.dev.vaWrite 0x3000 (k / 16) (s.dev.queue k).cqBase (leBytes 16 0) false = (d1, .ok bs b) →
      answers (.queueEnable p) s 0 fun d' => (d'.queue k).state = .enabled ∧ (d'.queue k).get = 0 ∧ (d'.queue k).put = 0 ∧
        (d'.queue k).cqPut = 0 ∧ (d'.queue k).waits = [] ∧ (d'.queue k).records = [] ∧ ∀ j, j ≠ k → d'.queue j = d1.queue j) ∧
    ((s.dev.queue k).state ≠ .disabled → refuses (.queueEnable p) s 7) ∧
    ((s.dev.queue k).state = .halted →
      ((s.dev.queue k).put + 2 ^ 32 - (s.dev.queue k).get) % 2 ^ 32 ≤ (s.dev.queue k).pqSlots →
      answers (.queueReset p) s 0 fun d' => (d'.queue k).state = .enabled ∧ (d'.queue k).get = (s.dev.queue k).put) ∧
    ((s.dev.queue k).state ≠ .halted → refuses (.queueReset p) s 7) ∧
    ((∀ g ∈ s.dev.prec.graphs, ¬ (g.owner = k / 16 ∧ g.queue = k % 16)) →
      answers (.queueDisable p) s 0 fun d' => (d'.queue k).state = .disabled ∧ (d'.queue k).waits = []) ∧
    ((∃ g ∈ s.dev.prec.graphs, g.owner = k / 16 ∧ g.queue = k % 16) → refuses (.queueDisable p) s 7)) ∧
  (∀ s,
    (∀ t, s.dev.prec.sched.staged = some t → t.switchAt s.dev.time = s.dev.time →
      ∃ d', exec .horariumSwitch s = .next { s with dev := d' } ∧ d'.prec.sched.active = some t ∧ d'.prec.sched.staged = none ∧
        d'.oget O.FRAMES = s.dev.oget O.FRAMES + 1 ∧ d'.oget O.HOR_STATE = 1 ∧ d'.oget O.HOR_STAGED = 0 ∧ d'.prec.nodes = s.dev.prec.nodes) ∧
    (s.dev.prec.sched.staged = none → exec .horariumSwitch s = .next s)) ∧
  (∀ s x, s.dev.prec.nodes.filter (fun x => x.state = .running && x.opc = 1 && !x.grace) = [x] →
    (s.dev.admitted x.chapel x.owner s.dev.time = true → exec .slotBoundary s = .next s) ∧
    (s.dev.admitted x.chapel x.owner s.dev.time = false → x.restartable = true → s.dev.strict x.chapel = true →
      s.dev.ownCause x = none → ∃ d', exec .slotBoundary s = .next { s with dev := d' } ∧ d'.oget O.SLOT_PREEMPTIONS = s.dev.oget O.SLOT_PREEMPTIONS + 1 ∧
        ∀ y ∈ d'.prec.nodes, y.order = x.order → y.state = .ready ∧ y.counted = true) ∧
    (s.dev.admitted x.chapel x.owner s.dev.time = false → x.restartable = false →
      ∃ d', exec .slotBoundary s = .next { s with dev := d' } ∧ ∀ y ∈ d'.prec.nodes, y.order = x.order → y.grace = true)) ∧
  (∀ s e, e < 1024 → ∃ d', exec (.urgentFloorRequest e) s = .next { s with dev := d' } ∧
    d'.prec.urgent = ((rangeFrom 0 8).filter s.dev.floorWanted).map (fun k => (k, s.dev.prec.sched.floor)) ∧ d'.prec.nodes = s.dev.prec.nodes)

/-! ### The memory controllers -/

/-- The memory controllers read and write sectors, scrub, refresh, retire pages and test (R704, R709, R711 to R714, R721, R724
to R730, R738, R740). The order in which patrol takes the sectors is the model's choice (assumption 35). -/
def Obligations.MemoryIsServedAndMaintained : Prop :=
  MemorySectorsAreReadAndWritten ∧ MemoryIsMaintained

/-! ### The dictionary and the Cantor network -/

/-- The registers of a dictionary port and the bursts it moves (R848 to R853, R875): addresses and lengths take what is written; GO starts a
burst that passes its checks and ends any other with its status; words go in and out in order; ABORT ends a burst with PROTOCOL; a
burst served leaves its data or its status. -/
def Obligations.DictionaryPortsMoveBursts : Prop :=
  (∀ s n v, n ≤ 256 → s.dev.barGate n = 0 → v < 2 ^ 64 →
    let d := s.dev
    let x := d.port n
    (∃ d', exec (.dpRegisterWrite n 0 v) s = .next { s with dev := d' } ∧ portIs d d' n { x with addr := v % 2 ^ 32 } ∧ d'.objs = d.objs) ∧
    (∃ d', exec (.dpRegisterWrite n 1 v) s = .next { s with dev := d' } ∧ portIs d d' n { x with addrHi := v % 2 ^ 27 }) ∧
    (∃ d', exec (.dpRegisterWrite n 2 v) s = .next { s with dev := d' } ∧
      portIs d d' n { x with dir := bit v 16, length := bits v 0 12 }) ∧
    (∃ d', exec (.dpRegisterWrite n 3 v) s = .next { s with dev := d' } ∧
      portIs d d' n { x with addr := v % 2 ^ 32, addrHi := v / 2 ^ 32 % 2 ^ 27 }) ∧
    (∀ wr, bit v 30 = false →
      let y := { x with dir := wr, length := bits v 0 12 }
      let c := burstStatus d n (started y)
      ∃ d', exec (if wr then .dpWriteBurst n v else .dpReadBurst n v .none) s = .next { s with dev := d' } ∧
        (x.busy = true → portIs d d' n y ∧ d'.oget O.DICT_REFUSALS = d.oget O.DICT_REFUSALS + 1) ∧
        (x.busy = false → c = 0 → portIs d d' n { started y with busy := true, stage := if wr then 3 else 1 } ∧ d'.objs = d.objs) ∧
        (x.busy = false → c ≠ 0 → portIs d d' n (ended (started y) c) ∧ d'.oget O.DICT_REFUSALS = d.oget O.DICT_REFUSALS + 1)) ∧
    (bit v 31 = false →
      let y := { x with dir := bit v 16, length := bits v 0 12 }
      ∃ d', exec (.dpAbort n v) s = .next { s with dev := d' } ∧ portIs d d' n (if x.busy then ended y 8 else y) ∧ d'.objs = d.objs) ∧
    (x.stage = 3 → ∃ d', exec (.dpDataWrite n v) s = .next { s with dev := d' } ∧ d'.objs = d.objs ∧
      portIs d d' n { x with buf := x.buf ++ leBytes 8 v, count := x.count + 8, stage := if x.words ≤ x.count + 8 then 4 else 3 }) ∧
    (x.stage ≠ 3 → exec (.dpDataWrite n v) s = .next { s with dev := d.oinc O.BAR_MISUSE }) ∧
    (x.stage = 2 → ∃ d', exec (.dpDataRead n) s = .next { s with dev := d' } ∧
      d'.out = completes n 8 (leNat ((x.buf.drop x.count).take 8)) :: d.out ∧
      portIs d d' n (if x.count < x.words then { x with count := x.count + 8 } else x)) ∧
    (x.stage ≠ 1 → x.stage ≠ 2 → exec (.dpDataRead n) s = .next { s with dev := d.emit (completes n 8 0) })) ∧
  (∀ s n, n ≤ 256 →
    let d := s.dev
    let x := d.port n
    (∀ d1 bs, x.stage = 1 → d.dictRead (portPath n) x.index x.sub x.off x.byte x.goLen = (d1, .ok bs) →
      ∃ d', exec (.dpBurstDone n) s = .next { s with dev := d' } ∧
        portIs d d' n { x with busy := false, done := true, buf := bs, stage := 2 } ∧ d'.objs = d1.objs) ∧
    (∀ d1 c, x.stage = 1 → d.dictRead (portPath n) x.index x.sub x.off x.byte x.goLen = (d1, .error c) →
      ∃ d', exec (.dpBurstDone n) s = .next { s with dev := d' } ∧ portIs d d' n (ended x c)) ∧
    (∀ d1 c, x.stage = 4 → d.dictWrite (portPath n) x.index x.sub x.off x.byte (x.buf.take x.goLen) = (d1, c) →
      d1.boot.inReset = false → ∃ d', exec (.dpBurstDone n) s = .next { s with dev := d' } ∧ portIs d1 d' n (ended (d1.port n) c)) ∧
    (x.stage ≠ 1 → x.stage ≠ 4 → exec (.dpBurstDone n) s = .next s)) ∧
  (∀ s p i sub off byte bs, p.ok = true → i < 65536 → sub < 256 → off < 2 ^ 32 → byte < 8 → 0 < bs.length → bs.length ≤ 4096 →
    (s.dev.pathUp p = false → exec (.dictObjectWrite p i sub off byte bs) s = .next s) ∧
    (s.dev.pathUp p = true → s.dev.writeCheck p i sub ≠ 0 → refuses (.dictObjectWrite p i sub off byte bs) s (s.dev.writeCheck p i sub))) ∧
  (∀ s p v, mayWrite s p 0x1020 0 → v < 2 ^ 32 →
    if v % 4096 = 0 then answers (.dictObjectWrite p 0x1020 0 0 0 (leBytes 8 v)) s 0 fun d' => d' = s.dev.oset O.FLASH_ADDR v
    else refuses (.dictObjectWrite p 0x1020 0 0 0 (leBytes 8 v)) s 6)

/-- Authentic Cantor requests are served once and answered; the mailbox, relays, timers and NOTIFY follow their rules (R856 to R869). -/
def Obligations.CantorMessagesAreServedAndSent : Prop :=
  CantorRequestsAreServedOnce ∧ CantorMessagesComeAndGo

/-- The timebase (R872, R873): the loss of the primary reference moves the time to the spare that stands by; without one the device is held in
reset; a spare that loses lock is FAILED. -/
def Obligations.TimebaseSwitchesOrFails : Prop :=
  (∀ s, s.dev.oget O.TIMEBASE_SOURCE = 0 → s.dev.oget O.SPARE_STATE = 0 → s.dev.oget O.SPARE_ENABLE = 1 →
    (∃ d', exec .timebaseSwitch s = .next { s with dev := d' } ∧ d'.oget O.TIMEBASE_SOURCE = 1 ∧ d'.oget O.SPARE_STATE = 1 ∧
      d'.oget O.TIMEBASE_SWITCHES = s.dev.oget O.TIMEBASE_SWITCHES + 1 ∧ d'.time = s.dev.time ∧ d'.mem = s.dev.mem) ∧
    exec .timebaseFailure s = .next s) ∧
  (∀ s, ¬ (s.dev.oget O.TIMEBASE_SOURCE = 0 ∧ s.dev.oget O.SPARE_STATE = 0 ∧ s.dev.oget O.SPARE_ENABLE = 1) →
    exec .timebaseSwitch s = .next s ∧
    (s.dev.boot.inReset = false → ∃ d', exec .timebaseFailure s = .next { s with dev := d' } ∧ d'.boot.inReset = true ∧
      d'.oget (O.PD_STATE 0) = 5 ∧ d'.oget O.DEVICE_STATUS = 1)) ∧
  (∀ s, exec .spareLossOfLock s = .next (if s.dev.oget O.SPARE_STATE = 0 then { s with dev := s.dev.oset O.SPARE_STATE 2 } else s))

/-! ### Links -/

/-- Links train, come up and go down, and flits are taken once, in order, and replayed (R746 to R751, R754, R755, R758, R760, R790). -/
def Obligations.LinksTrainAndCarryFlits : Prop :=
  LinksTrainAndGoDown ∧ FlitsAreReceivedAndReplayed

/-- Fabric time, presets and equalization (R757, R758, R762, R774 to R779, R782, R787, R795): one TIME flit is sent in an exchange interval, and remembered; one from
the parent that echoes it gives an offset by which the time is stepped or slewed; a preset asked for is applied when it is 15 or
less; the root's time takes what is written; an UP link that is not quiesced shows what the equalization loop measured. That one offset alone passes
the filter of R778 is the model's reading (assumption 38). -/
def Obligations.FabricTimeFollowsTheParent : Prop :=
  (∀ (s : State) l sub, l < 20 → sub < 16000 →
    let sent := (s.dev.link l).sentTime (s.dev.time16 sub)
    (s.dev.up l = false ∨ sent = true → exec (.timeFlitSend l sub) s = .next s) ∧
    (s.dev.up l = true → sent = false → s.dev.oget O.TIME_ROOT = 1 → s.dev.oget O.TIME_STATE = 2 →
      ∃ d', exec (.timeFlitSend l sub) s = .next { s with dev := d' } ∧ d'.time = s.dev.time ∧
        (d'.link l).txTimes = (s.dev.time16 sub :: (s.dev.link l).txTimes).take 4 ∧
        (d'.link l).exchange = ((s.dev.link l).exchange + 1) % 65536 ∧ d'.out.length = s.dev.out.length + 1)) ∧
  (∀ (s : State) l sub (f : TimeFlit), l < 20 → sub < 16000 →
    (s.dev.up l = false → exec (.timeFlitReceive l sub f) s = .next s) ∧
    (s.dev.up l = true → s.dev.oget O.TIME_ROOT ≠ 1 → s.dev.oget O.TIME_PARENT = l → s.dev.oget O.TIME_STATE = 1 →
      s.dev.fab.offsets = [] → f.echoValid = true → f.echoTx ∈ (s.dev.link l).txTimes → f.depth < 254 →
      let t4 := s.dev.time16 sub
      let a := toSigned 64 ((f.echoRx + 2 ^ 64 - f.echoTx % 2 ^ 64) % 2 ^ 64)
      let b := toSigned 64 ((t4 + 2 ^ 64 - f.tx % 2 ^ 64) % 2 ^ 64)
      let off := (a - b) / 2 - (s.dev.link l).asym
      ∃ d', exec (.timeFlitReceive l sub f) s = .next { s with dev := d' } ∧ (d'.link l).echoTx = f.tx ∧ (d'.link l).echoRx = t4 ∧
        (d'.link l).skips = 0 ∧ d'.oget (O.LINK_DELAY l) = ((a + b) / 2).toNat % 2 ^ 32 ∧ d'.oget O.TIME_DEPTH = f.depth + 1 ∧
        (16 * s.dev.oget O.TIME_STEP_THRESHOLD < off.natAbs → d'.time16 0 = ((s.dev.time16 0 : Int) + off).toNat ∧
          d'.oget O.TIME_STEPS = s.dev.oget O.TIME_STEPS + 1) ∧
        (off.natAbs ≤ 16 * s.dev.oget O.TIME_STEP_THRESHOLD → d'.time = s.dev.time ∧ d'.fab.slew = off))) ∧
  (∀ s p v, mayWrite s p 0x7010 7 → v < 2 ^ 64 →
    (s.dev.oget O.TIME_ROOT = 1 → answers (.timeSet p v) s 0 fun d' => d'.time = v ∧ d'.objs = s.dev.objs) ∧
    (s.dev.oget O.TIME_ROOT ≠ 1 → refuses (.timeSet p v) s 6)) ∧
  (∀ s l lane preset token, l < 20 → lane < 8 → preset < 256 → token < 256 → s.dev.up l = true →
    (s.dev.link l).presets.length = 8 →
    ∃ d', exec (.presetRequest l lane preset token) s = .next { s with dev := d' } ∧ d'.out.length = s.dev.out.length + 1 ∧
      (∀ i < 8, at0 (d'.link l).presets i = if i = lane ∧ preset ≤ 15 then preset else at0 (s.dev.link l).presets i)) ∧
  (∀ s l lane preset token, l < 20 → lane < 8 → preset < 16 → token < 256 →
    (s.dev.up l = true → token = (s.dev.link l).token → exec (.presetAck l lane preset token false) s =
      .next { s with dev := s.dev.onLink l fun k => { k with want := setAt k.want lane preset } }) ∧
    exec (.presetAck l lane preset token true) s = .next s) ∧
  (∀ (s : State) l (r : EqRun), l < 20 → r.margins.length = 8 → r.ber ≤ berLimit → r.lane < 8 → r.setting ≤ 1 → (∀ m ∈ r.margins, m < 65536) →
    let quiet := s.dev.quiescing (linkDomain l)
    (s.dev.up l = false ∨ quiet = true → exec (.equalizationLoop l r) s = .next s) ∧
    (s.dev.up l = true → quiet = false → ∃ d', exec (.equalizationLoop l r) s = .next { s with dev := d' } ∧ d'.oget (O.PRE_FEC_BER l) = r.ber ∧
      (∀ i < 8, d'.oget (O.LANE_MARGIN l i) = at0 r.margins i) ∧
      (s.dev.oget (O.EQ_FREEZE l) = 1 ∨ r.setting = 0 → d'.fab = s.dev.fab) ∧
      (s.dev.oget (O.EQ_FREEZE l) ≠ 1 → r.setting = 1 → (d'.link l).ctle =
        setAt (s.dev.link l).ctle r.lane (if r.up then min (at0 (s.dev.link l).ctle r.lane + 1) 255 else at0 (s.dev.link l).ctle r.lane - 1))))

/-! ### Fabric operations -/

/-- The router forwards, sends or drops packets, and the packets of fabric operations have their effect (R761, R764 to R770, R784, R804,
R805, R810 to R824). -/
def Obligations.PacketsAndFabricOperationsProceed : Prop :=
  PacketsAreRoutedOrDropped ∧ FabricOperationsExchangePackets

/-! ### Power -/

/-- Power domains (R886 to R890, R903, R922, R924, R925, Table 19.2): PD_0 and PD_1 take no request; a domain wakes only when the one it
depends on is ON, is FAILED after its third failed wake and stays so when asked OFF, stops once its work has ended, and fails when a running one loses power. -/
def Obligations.DomainsWakeSleepAndFail : Prop :=
  (∀ s p x, x < 2 → mayWrite s p 0x2001 x → refuses (.pdOn p x) s 7 ∧ refuses (.pdOff p x) s 7 ∧ refuses (.pdLow p x) s 7) ∧
  (∀ s p x, 2 ≤ x → x < 16 → mayWrite s p 0x2001 x →
    let st := s.dev.oget (O.PD_STATE x)
    (s.dev.oget (O.PD_STATE (pdNeeds x)) ≠ 2 → refuses (.pdOn p x) s 7) ∧
    (s.dev.oget (O.PD_STATE (pdNeeds x)) = 2 →
      (st = 0 → answers (.pdOn p x) s 0 fun d' => d' = s.dev.oset (O.PD_STATE x) 1) ∧
      (st = 1 ∨ st = 2 ∨ st = 4 → answers (.pdOn p x) s 0 fun d' => d' = s.dev) ∧
      (st = 5 → answers (.pdOn p x) s 0 fun d' => d'.oget (O.PD_STATE x) = 1 ∧ dget 0 d'.power.tries x = 0) ∧
      (st = 3 → answers (.pdOn p x) s 0 fun d' => d'.oget (O.PD_STATE x) = if isOct x then 2 else 1)) ∧
    (s.dev.pdOffRefused x = true → refuses (.pdOff p x) s 7) ∧
    (let works := isOct x = true ∧ ∃ n, n / 32 = x - 4 ∧ ((s.dev.core n).task ≠ none ∨ (s.dev.core n).next ≠ none)
     s.dev.pdOffRefused x = false → st ≠ 0 → st ≠ 5 →
      (works → answers (.pdOff p x) s 0 fun d' => d'.oget (O.PD_STATE x) = 4) ∧
      (¬ works → answers (.pdOff p x) s 0 fun d' => d'.oget (O.PD_STATE x) = 0)) ∧
    (s.dev.pdOffRefused x = false → st = 5 → answers (.pdOff p x) s 0 fun d' => d' = s.dev) ∧
    (if 14 ≤ x ∧ st = 2 then answers (.pdLow p x) s 0 fun d' => d'.oget (O.PD_STATE x) = 3 else refuses (.pdLow p x) s 7)) ∧
  (∀ s x ok t, x < 16 →
    let st := s.dev.oget (O.PD_STATE x)
    let n := dget 0 s.dev.power.tries x + 1
    (st ≠ 1 → exec (.domainWake x ok t) s = .next s) ∧
    (st = 1 → ∃ d', exec (.domainWake x ok t) s = .next { s with dev := d' } ∧ d'.oget (O.PD_STATE x) =
      if s.dev.oget (O.PD_STATE (pdNeeds x)) ≠ 2 then 0 else if ok then 2 else if 3 ≤ n then 5 else 0) ∧
    (st = 1 → s.dev.oget (O.PD_STATE (pdNeeds x)) = 2 → ok = false → n < 3 → ∃ d', exec (.domainWake x ok t) s = .next { s with dev := d' } ∧
      mget d'.power.retryAt x = some (s.dev.time + 1000000) ∧ dget 0 d'.power.tries x = n)) ∧
  (∀ s x, x < 16 →
    ((∀ t, mget s.dev.power.retryAt x = some t → s.dev.time < t ∨ s.dev.oget (O.PD_STATE x) ≠ 0) → exec (.wakeRetry x) s = .next s) ∧
    (∀ t, mget s.dev.power.retryAt x = some t → t ≤ s.dev.time → s.dev.oget (O.PD_STATE x) = 0 →
      ∃ d', exec (.wakeRetry x) s = .next { s with dev := d' } ∧ d'.oget (O.PD_STATE x) = 1 ∧ mget d'.power.retryAt x = none) ∧
    (s.dev.oget (O.PD_STATE x) ≠ 2 → s.dev.oget (O.PD_STATE x) ≠ 3 → exec (.powerFault x) s = .next s) ∧
    (s.dev.oget (O.PD_STATE x) = 2 ∨ s.dev.oget (O.PD_STATE x) = 3 → ∃ d', exec (.powerFault x) s = .next { s with dev := d' } ∧
      d'.oget (O.PD_STATE x) = 5 ∧ (x < 4 → d'.oget O.DEVICE_STATUS = 1)))

/-- Clocks and rails stay within their bounds, and power and heat are estimated and acted on (chapter 19). -/
def Obligations.PowerFollowsItsLimits : Prop :=
  ClocksAndRailsStayInBounds ∧ PowerAndHeatAreEstimated

/-! ### Reset, boot and flash -/

/-- Resets (R928 to R932, R951, R954, R958, R1044, Table 20.4): each source records its cause and leaves the machine in reset with no memory; a
weaker source does not act in a COLD reset's phase 0; a request waits while a sensor reads 95 degrees. -/
def Obligations.ResetsRecordTheirCause : Prop :=
  (∀ s, (s.dev.pkg.powered = true → exec .powerOn s = .next s) ∧
    (s.dev.pkg.powered = false → ∃ d', exec .powerOn s = .next { s with dev := d' } ∧ inReset d' 0 ∧ d'.boot.cold = true ∧
      d'.pkg.powered = true ∧ d'.boot.resetN = true)) ∧
  (∀ s, ∃ d', exec .powerLoss s = .next { s with dev := d' } ∧ inReset d' 0 ∧ d'.pkg.powered = false ∧ d'.dict.crypt = s.dev.dict.crypt ∧
    d'.dict.commits = []) ∧
  (∀ s, (s.dev.pkg.powered = false → ∃ d', exec .resetNAssert s = .next { s with dev := d' } ∧ d'.boot.resetN = true ∧
      d'.objs = s.dev.objs) ∧
    (s.dev.pkg.powered = true → ∃ d', exec .resetNAssert s = .next { s with dev := d' } ∧ inReset d' 1 ∧ d'.boot.cold = true ∧
      d'.boot.resetN = true ∧ d'.time = 0)) ∧
  (∀ s p, mayWrite s p 0x1012 0 → s.dev.pkg.powered = true → s.dev.boot.inReset = false → s.dev.boot.selfTestFailed = false →
    (s.dev.power.hottest < 380 → answers (.resetRequestWarm p) s 0 fun d' => inReset d' 3 ∧ d'.boot.cold = false ∧ d'.time = s.dev.time) ∧
    (s.dev.power.hottest < 380 → answers (.resetRequestCold p) s 0 fun d' => inReset d' 4 ∧ d'.boot.cold = true ∧ d'.time = 0) ∧
    (380 ≤ s.dev.power.hottest → answers (.resetRequestWarm p) s 0 fun d' => d'.boot.held = some (max 1 (s.dev.boot.held.getD 0)) ∧
      { d' with boot := s.dev.boot } = s.dev) ∧
    (380 ≤ s.dev.power.hottest → answers (.resetRequestCold p) s 0 fun d' => d'.boot.held = some (max 2 (s.dev.boot.held.getD 0)) ∧
      { d' with boot := s.dev.boot } = s.dev)) ∧
  (∀ s, (s.dev.boot.watchdog = false → exec .bootWatchdogExpiry s = .next s) ∧
    (s.dev.boot.watchdog = true → s.dev.pkg.powered = true → (s.dev.boot.inReset = true → s.dev.boot.cold = false) →
      s.dev.boot.selfTestFailed = false → ∃ d', exec .bootWatchdogExpiry s = .next { s with dev := d' } ∧ inReset d' 5 ∧
        d'.boot.cold = false))

/-- Boot reaches READY or stops where the spec says, and flash operations run to their end (R934 to R941, R947, R952, R958). -/
def Obligations.BootAndFlashRun : Prop :=
  BootReachesReady ∧ FlashOperationsRunToTheirEnd

/-! ### Attestation and keys -/

/-- SPDM (R942 to R946, R991, Table 20.12): a responder that is up answers each request in its place with its code and any other
with ERROR; a session lives from its FINISH to its END_SESSION; the system key is set and zeroized only under the right AUTH.
Codes and bodies beyond Table 20.12 are the model's (assumption 53). -/
def Obligations.SpdmRequestsAreAnswered : Prop :=
  (∀ s r c, c ∈ [Instr.getVersion r, .getCapabilities r, .negotiateAlgorithms r, .getDigests r, .getCertificate r, .challenge r,
      .getMeasurements r, .keyExchange r, .finish r, .heartbeat r, .keyUpdate r, .endSession r, .setSystemKey r, .zeroizeSystemKey r] →
    s.dev.spdmHere r = false → exec c s = .next s) ∧
  (∀ s r, s.dev.spdmHere r = true → r.session = 0 →
    let x := s.dev.spdmOf r
    (∃ d', exec (.getVersion r) s = .next { s with dev := d' } ∧ d'.out.head? = some (.mctp 5 0x04 (leBytes 2 0x1200)) ∧
      (d'.spdmOf r).version = true ∧ (d'.spdmOf r).caps = false ∧ (d'.spdmOf r).sessions = x.sessions) ∧
    (x.version = true → ∃ d', exec (.getCapabilities r) s = .next { s with dev := d' } ∧ replied d' 5 0x61 ∧ (d'.spdmOf r).caps = true) ∧
    (x.version = true → x.caps = true → ∃ d', exec (.negotiateAlgorithms r) s = .next { s with dev := d' } ∧ replied d' 5 0x63 ∧
      (d'.spdmOf r).algs = true) ∧
    (s.dev.spdmReady r = true →
      exec (.challenge r) s = .next { s with dev := s.dev.emit (.mctp 5 0x03 (spdmSign r r.body)) } ∧
      (x.sessions.length < 2 → ∃ d', exec (.keyExchange r) s = .next { s with dev := d' } ∧ replied d' 5 0x64 ∧
        (d'.spdmOf r).sessions = x.sessions ++ [⟨x.nextSession, false⟩] ∧ (d'.spdmOf r).nextSession = x.nextSession + 1) ∧
      (2 ≤ x.sessions.length → exec (.keyExchange r) s = .next { s with dev := s.dev.emit (.mctp 5 0x7F []) })) ∧
    (s.dev.spdmReady r = false → ∀ c ∈ [Instr.getDigests r, .getCertificate r, .challenge r, .getMeasurements r, .keyExchange r],
      exec c s = .next { s with dev := s.dev.emit (.mctp 5 0x7F []) })) ∧
  (∀ s r, s.dev.spdmHere r = true → s.dev.spdmReady r = true → s.dev.spdmOpen r = true →
    let t := if r.session = 0 then 5 else 6
    exec (.getDigests r) s = .next { s with dev := s.dev.emit (.mctp t 0x01 (beBytes 48 (Config.sha384 (spdmCert r)))) } ∧
    (cmdByte r = 0 → exec (.getCertificate r) s = .next { s with dev := s.dev.emit (.mctp t 0x02 (spdmCert r)) }) ∧
    ((r.body[0]?.getD 0).toNat ≤ 5 → ∃ d', exec (.getMeasurements r) s = .next { s with dev := d' } ∧ replied d' t 0x60 ∧
      { d' with out := s.dev.out } = s.dev)) ∧
  (∀ s r, s.dev.spdmHere r = true →
    ((∃ y ∈ (s.dev.spdmOf r).sessions, y.id = r.session ∧ y.live = false) → ∃ d', exec (.finish r) s = .next { s with dev := d' } ∧
      d'.sessionLive r = true ∧ (d'.spdmOf r).sessions.map (·.id) = (s.dev.spdmOf r).sessions.map (·.id)) ∧
    (s.dev.sessionLive r = true → ∃ b c d1, exec (.heartbeat r) s = .next { s with dev := s.dev.emit b } ∧
      exec (.keyUpdate r) s = .next { s with dev := s.dev.emit c } ∧ exec (.endSession r) s = .next { s with dev := d1 } ∧
      (d1.spdmOf r).sessions = (s.dev.spdmOf r).sessions.filter fun y => y.id ≠ r.session) ∧
    (s.dev.sessionLive r = false → ∀ c ∈ [Instr.heartbeat r, .keyUpdate r, .endSession r],
      exec c s = .next { s with dev := s.dev.spdmError r.session })) ∧
  (∀ s r, s.dev.spdmHere r = true → r.tray = false → s.dev.sessionLive r = true →
    let loaded := s.dev.oget O.CANTOR_KEY_STATE = 1
    let boot := leBytes 2 (s.dev.oget O.CANTOR_BOOT)
    (r.body.length = 100 → r.body.take 4 = leBytes 4 1 →
      let new := (r.body.drop 4).take 48
      let want := if loaded then Config.hmac384 s.dev.dict.key (new ++ boot) else 0
      (beNat (r.body.drop 52) = want → ∃ d', exec (.setSystemKey r) s = .next { s with dev := d' } ∧ d'.dict.key = beNat new ∧
        d'.oget O.CANTOR_KEY_STATE = 1) ∧
      (beNat (r.body.drop 52) ≠ want → exec (.setSystemKey r) s = .next { s with dev := s.dev.keyAnswer r.session 1 2 })) ∧
    (r.body.length = 52 → r.body.take 4 = leBytes 4 2 →
      let want := Config.hmac384 s.dev.dict.key ([0x5A, 0x45, 0x52, 0x4F] ++ boot)
      (loaded → beNat (r.body.drop 4) = want → ∃ d', exec (.zeroizeSystemKey r) s = .next { s with dev := d' } ∧ d'.dict.key = 0 ∧
        d'.oget O.CANTOR_KEY_STATE = 0) ∧
      (loaded → beNat (r.body.drop 4) ≠ want → exec (.zeroizeSystemKey r) s = .next { s with dev := s.dev.keyAnswer r.session 2 2 }) ∧
      (¬ loaded → exec (.zeroizeSystemKey r) s = .next { s with dev := s.dev.keyAnswer r.session (cmdByte r) 1 })))

/-- The test access port, MCTP endpoints and the rails' power-good pins (R958, R1046, R1047, R1055, R1056): the boundary
instructions act only while RESET_N is asserted, and as BYPASS otherwise; the identification code is shifted out. The bodies of
MCTP control are the model's (assumption 54). -/
def Obligations.PinsAndTestPortRespond : Prop :=
  (∀ s, s.dev.pkg.powered = false → (∀ v, exec (.samplePreload v) s = .next s) ∧
    ∀ c ∈ [Instr.bypass, .idcode, .extest, .extestPulse, .extestTrain, .clamp, .highz], exec c s = .next s) ∧
  (∀ s, s.dev.pkg.powered = true →
    exec .bypass s = .next (tapHolds s 0 0) ∧
    exec .idcode s = .next { s with dev := (tapHolds s 1 0).dev.emit (.tdo 0x10880B47) } ∧
    (∀ v, ∃ d', exec (.samplePreload v) s = .next { s with dev := d' } ∧ d'.pkg.tap = 2 ∧ d'.pkg.test = 0 ∧ d'.pkg.preload = v ∧
      { d' with pkg := s.dev.pkg } = s.dev) ∧
    ∀ e ∈ [(Instr.extest, 3), (.extestPulse, 4), (.extestTrain, 5), (.clamp, 6), (.highz, 7)],
      exec e.1 s = .next (if s.dev.boot.resetN then tapHolds s e.2 e.2 else tapHolds s 0 0)) ∧
  (∀ s, s.dev.boot.inReset = false → s.dev.pkg.powered = true →
    (s.dev.boot.selfTestFailed = true → exec (.getEndpointId false) s = .next { s with dev := s.dev.emit (.mctp 0 2 [0, 0xFE]) }) ∧
    (s.dev.boot.selfTestFailed = false → s.dev.boot.running.isSome = true →
      exec (.getEndpointId false) s = .next { s with dev := s.dev.emit (.mctp 0 2 [0, 0]) })) ∧
  (∀ s, s.dev.tray.down = false →
    exec (.getEndpointId true) s = .next { s with dev := s.dev.emit (.mctp 0 2 (leBytes 1 s.dev.tray.eid ++ [0])) }) ∧
  (∀ s x, 1 ≤ x → x < 16 →
    let on := 1 ≤ s.dev.oget (O.PD_STATE x) ∧ s.dev.oget (O.PD_STATE x) ≤ 4
    (on ∨ s.dev.pkg.pgNoted = true ∨ s.dev.spdmUp = false → exec (.vrPgRise x) s = .next s) ∧
    (¬ on → s.dev.pkg.pgNoted = false → s.dev.spdmUp = true → (s.dev.errLog 256).entries.length < 4 → ∃ d', exec (.vrPgRise x) s = .next { s with dev := d' } ∧
      d'.pkg.pgNoted = true ∧ d'.mem = s.dev.mem ∧ ∃ e, e ∈ (d'.errLog 256).entries ∧ e.cause = 0x3F ∧ e.ftime = s.dev.time))

/-! ### The Clerestory -/

/-- Counters are latched and sampled, losses recorded, tokens given, snapshots taken and watches captured (R961 to R988). -/
def Obligations.ClerestoryRecordsAreFormed : Prop :=
  CountersAndSamplesAreRecorded ∧ SnapshotsAndWatchesAreWritten

/-! ### Containment -/

/-- What raising an error does (R665, R669, R671 to R673): it is logged; a CONTAINED error of a tenant queues a teardown, is folded into one
that runs or waits, or is escalated when 64 wait; an error in the error-handling hardware is an escalated DEVICE error (R674, R675); a DEVICE error fails the
device. The caches, memory, cores and the precentor keep
their state. -/
def Obligations.ErrorsAreLoggedAndHandled : Prop :=
  ∀ (d : Dev) (e : Err), let d' := d.raise e
    let starts := e.sev = .contained ∧ e.owner < 256 ∧ d.tearing e.owner = false ∧ d.logs.queue.length < 64
    let fails := e.sev = .device ∨ (e.sev = .contained ∧ e.owner < 256 ∧ d.tearing e.owner = false ∧ 64 ≤ d.logs.queue.length)
    (d'.mem = d.mem ∧ d'.l2 = d.l2 ∧ d'.nave = d.nave ∧ d'.prec = d.prec ∧ d'.tr = d.tr ∧ d'.time = d.time) ∧
    ((d.errLog 256).entries.length < 8 → ∃ x ∈ (d'.errLog 256).entries, x.cause = e.cause ∧ x.detail = e.detail ∧ x.owner = e.owner ∧ x.eng = e.eng ∧ x.addr = e.addr ∧
      x.ftime = d.time ∧ x.seq = (d.errLog 256).seq) ∧
    (e.owner < 256 → d.oget (O.TENANT_STATE e.owner) ≠ 0 → ∃ x ∈ (d'.errLog e.owner).entries, x.cause = e.cause ∧
      x.seq = (d.errLog e.owner).seq) ∧
    ((d'.errLog 256).entries.length ≤ max 16 (d.errLog 256).entries.length) ∧
    (∀ c logged, let f := d.escalate c logged
      f.oget O.DEVICE_STATUS = 1 ∧ f.oget O.ESCALATIONS = d.oget O.ESCALATIONS + 1 ∧ f.mem = d.mem ∧ f.nave = d.nave ∧ f.logs.queue = d.logs.queue ∧
      (d.failed = false → f.oget O.DEVICE_CAUSE = c * 256) ∧
      (logged = true → (d.errLog 256).entries.length < 8 → ∃ x ∈ (f.errLog 256).entries, x.cause = c ∧ x.escalated = true ∧ x.sev = .device)) ∧
    (starts → d'.logs.queue = d.logs.queue ++ [⟨.contained, e.owner, e.cause, e.detail, 0, false, false⟩]) ∧
    (¬ starts → d'.logs.queue = d.logs.queue) ∧
    (d'.oget O.FOLDED_ERRORS = d.oget O.FOLDED_ERRORS + if e.sev = .contained ∧ e.owner < 256 ∧ d.tearing e.owner = true then 1 else 0) ∧
    (fails → d'.oget O.DEVICE_STATUS = 1 ∧ (d.failed = false → d'.oget O.DEVICE_CAUSE = e.cause * 256 + e.detail)) ∧
    (¬ fails → d'.oget O.DEVICE_STATUS = d.oget O.DEVICE_STATUS)

/-- Teardowns, logs, key slots and tandem comparison (R667, R670, R672, R677, R682 to R692, R700, Table 14.7): the steps of a teardown leave
nothing of the tenant, none is taken in DEVICE_FAILED; LOG_POP removes the oldest entries; a mismatch ends both cores of its pair; a
comparator fault takes its cloister out of tandem service. -/
def Obligations.TeardownsAndComparatorsAct : Prop :=
  (∀ s t n, t < 256 → (s.dev.failed = true ∨ (∀ x ∈ s.dev.logs.teardowns, x.tenant ≠ t) ∨ n = 0) → exec (.contextTeardown t n) s = .next s) ∧
  (∀ s t x, t < 256 → s.dev.failed = false → s.dev.logs.teardowns.find? (fun x => x.tenant = t) = some x →
    (2 ≤ x.step → x.step ≤ 8 → ∃ d' y, exec (.contextTeardown t 1) s = .next { s with dev := d' } ∧ torn d' t x.step ∧
      d'.logs.teardowns.find? (fun x => x.tenant = t) = some y ∧ y.step = x.step + 1 ∧
      d'.oget (O.TENANT_STATE t) = s.dev.oget (O.TENANT_STATE t)) ∧
    (8 < x.step → x.release = false → x.flr = false → ∃ d', exec (.contextTeardown t 1) s = .next { s with dev := d' } ∧
      d'.oget (O.TENANT_STATE t) = 1 ∧ ∀ y ∈ d'.logs.teardowns, y.tenant ≠ t)) ∧
  (∀ s p n, mayWrite s p 0x8010 5 → n < 2 ^ 64 →
    let i := (s.dev.sel p).logSel
    (n = 0 ∨ 16 < n → refuses (.logPop p n) s 6) ∧
    (1 ≤ n → n ≤ 16 → answers (.logPop p n) s 0 fun d' => (d'.errLog i).entries = (s.dev.errLog i).entries.drop n ∧
      (d'.errLog i).overflow = (if (s.dev.errLog i).entries.length ≤ n then 0 else (s.dev.errLog i).overflow) ∧
      (∀ j, j ≠ i → d'.errLog j = s.dev.errLog j) ∧ { d' with logs := s.dev.logs } = s.dev)) ∧
  (∀ s k, k ≤ 256 → (s.dev.keyDraw k = 0 ∨ s.dev.logs.badSlots.contains k = true → exec (.keySlotFailure k) s = .next s) ∧
    (s.dev.keyDraw k ≠ 0 → s.dev.logs.badSlots.contains k = false → ∃ d', exec (.keySlotFailure k) s = .next { s with dev := d' } ∧
      d'.logs.badSlots = k :: s.dev.logs.badSlots ∧ ((s.dev.errLog 256).entries.length < 8 → ∃ x ∈ (d'.errLog 256).entries, x.cause = 0x36 ∧ x.owner = k) ∧ d'.mem = s.dev.mem)) ∧
  (∀ s n t, n < 256 → (s.dev.core n).task = some t →
    let c := s.dev.core n
    let live := t.tandem = 2 ∧ t.unverified = false ∧ c.started = true ∧ c.exc = none
    (¬ live ∨ c.sig = c.sigRef → exec (.tandemCompare n) s = .next s) ∧
    (live → c.sig ≠ c.sigRef → 0 < n → (s.dev.core (n - 1)).task.isSome = true → (s.dev.core (n - 1)).exc = none →
      ∃ d', exec (.tandemCompare n) s = .next { s with dev := d' } ∧ d'.oget O.TANDEM_MISMATCHES = s.dev.oget O.TANDEM_MISMATCHES + 1 ∧
        (d'.core n).exc.map (·.cause) = some 0x0D ∧ (d'.core (n - 1)).exc.map (·.cause) = some 0 ∧
        ∀ m, m ≠ n → m ≠ n - 1 → d'.core m = s.dev.core m)) ∧
  (∀ s k, k < 64 → s.dev.tandemTasks k = [] →
    (∃ d', exec (.comparatorFault k) s = .next { s with dev := d' } ∧ d'.inTandem k = false ∧ d'.nave = s.dev.nave ∧
      d'.oget O.COMPARATOR_FAULTS = s.dev.oget O.COMPARATOR_FAULTS + 1 ∧
      ((s.dev.errLog 256).entries.length < 8 → ∃ x ∈ (d'.errLog 256).entries, x.cause = 0x0E)) ∧
    (∀ missed, s.dev.testDue k = false → exec (.comparatorSelfTest k missed) s = .next s) ∧
    (s.dev.testDue k = true → ∃ d', exec (.comparatorSelfTest k true) s = .next { s with dev := d' } ∧ d'.inTandem k = false ∧
      d'.oget O.COMPARATOR_FAULTS = s.dev.oget O.COMPARATOR_FAULTS + 1 ∧ d'.testDue k = false) ∧
    (s.dev.testDue k = true → ∃ d', exec (.comparatorSelfTest k false) s = .next { s with dev := d' } ∧ d'.oget O.SELF_TESTS = s.dev.oget O.SELF_TESTS + 1 ∧
      d'.inTandem k = s.dev.inTandem k ∧ d'.nave = s.dev.nave ∧ d'.testDue k = false)) ∧
  (∀ s k n t, k < 64 → s.dev.tandemTasks k = [(n, t)] → t.restartable = false →
    ∃ d', exec (.comparatorFault k) s = .next { s with dev := d' } ∧ d'.inTandem k = false ∧
      ∀ m, m = n ∨ m = n + 1 → (d'.core m).task = (s.dev.core m).task.map fun u => { u with unverified := true })

/-! ### Lifetime -/

/-- The crypt and the lifetime record (R844, R883, R1019, R1021, R1023, R1024, R1030, R1032, R1037): a UTC pair is kept; a commit stamps a
new generation and keeps the one before it; the occasions that fall during a commit are served by one further commit after it; each second adds to the power-on time and the thermal-cycle tracker; a persisted value is
written, and given up at its third failure. -/
def Obligations.LifetimeIsRecorded : Prop :=
  (∀ s p v, mayWrite s p 0xB003 1 → v < 2 ^ 64 → answers (.deviceUtcSet p v) s 0 fun d' => d'.oget (O.UTC_PAIR 0) = v ∧
    d'.oget (O.UTC_PAIR 1) = s.dev.time ∧ d'.life.utcSet = true ∧ d'.life.stepped = false ∧ d'.mem = s.dev.mem) ∧
  (∀ d : Dev, (d.life.again = false ∨ d.committing = true → d.lifePass = d) ∧
    (d.life.again = true → d.committing = false → d.cryptReadOnly = false → (∃ g, d.lifePass.life.gens = g :: d.life.gens.take 1) ∧
      d.lifePass.life.again = false ∧ d.lifePass.committing = true ∧ d.lifePass.oget O.CRYPT_COMMITS = d.oget O.CRYPT_COMMITS + 1)) ∧
  (∀ s p, mayWrite s p 0xA004 0 →
    (s.dev.cryptReadOnly = true → answers (.lifeCommit p) s 0 fun d' => d'.life.gens = s.dev.life.gens) ∧
    (s.dev.cryptReadOnly = false → s.dev.committing = true → answers (.lifeCommit p) s 0 fun d' =>
      d' = { s.dev with life := { s.dev.life with again := true } }) ∧
    (s.dev.cryptReadOnly = false → s.dev.committing = false → answers (.lifeCommit p) s 0 fun d' => d'.committing = true ∧
      d'.life.again = false ∧ d'.oget (O.LIFE_LAST_COMMIT 0) = s.dev.oget O.POWER_ON_SECONDS ∧
      d'.oget (O.LIFE_LAST_COMMIT 1) = s.dev.time ∧ d'.oget O.CRYPT_COMMITS = s.dev.oget O.CRYPT_COMMITS + 1 ∧
      (∃ g, d'.life.gens = g :: s.dev.life.gens.take 1 ∧ g.ok = true ∧ g.mode = s.dev.life.peak) ∧ d'.mem = s.dev.mem)) ∧
  (∀ s, let hours := s.dev.oget O.POWER_ON_SECONDS / 3600
    let due := s.dev.boot.running.isSome = true ∧ s.dev.oget O.POWER_ON_SECONDS = 3600 * hours ∧ hours ≠ 0 ∧ hours ≠ s.dev.life.hour
    (¬ due → exec .hourlyCommit s = .next s) ∧
    (due → s.dev.cryptReadOnly = false → s.dev.committing = true → ∃ d', exec .hourlyCommit s = .next { s with dev := d' } ∧
      d'.life.hour = hours ∧ d'.life.again = true ∧ d'.life.gens = s.dev.life.gens ∧ d'.mem = s.dev.mem) ∧
    (due → s.dev.cryptReadOnly = false → s.dev.committing = false → ∃ d' g, exec .hourlyCommit s = .next { s with dev := d' } ∧ d'.life.hour = hours ∧
      d'.life.gens = g :: s.dev.life.gens.take 1 ∧ d'.mem = s.dev.mem ∧ ∀ k < 8, d'.oget (O.AGING_OFFSET k) ≤ max 50 (s.dev.oget (O.AGING_OFFSET k)))) ∧
  (∀ s, (s.dev.boot.running = none → exec .lifetimeSecond s = .next s) ∧
    (s.dev.boot.running.isSome = true →
      let r := ((rangeFrom 0 10).map s.dev.secondMax).foldl max (-32768)
      let l := s.dev.life
      ∃ d', exec .lifetimeSecond s = .next { s with dev := d' } ∧ d'.oget O.POWER_ON_SECONDS = s.dev.oget O.POWER_ON_SECONDS + 1 ∧
        d'.life.peaks = [] ∧
        (l.peak = true → r ≤ l.p - 120 → d'.life.peak = false ∧ d'.life.v = r ∧
          d'.oget O.THERMAL_CYCLES = s.dev.oget O.THERMAL_CYCLES + 1) ∧
        (l.peak = true → l.p - 120 < r → d'.life.peak = true ∧ d'.life.p = max l.p r) ∧
        (l.peak = false → l.v + 120 ≤ r → d'.life.peak = true ∧ d'.life.p = r) ∧
        (l.peak = false → r < l.v + 120 → d'.life.peak = false ∧ d'.life.v = min l.v r) ∧
        (∀ k < 8, s.dev.oget (O.PD_STATE (4 + k)) = 2 ∨ s.dev.oget (O.PD_STATE (4 + k)) = 3 →
          d'.oget (O.TJ_HISTOGRAM (16 * k + tjBin (s.dev.secondMax k))) = s.dev.oget (O.TJ_HISTOGRAM (16 * k + tjBin (s.dev.secondMax k))) + 1) ∧
        { d' with objs := s.dev.objs, life := s.dev.life } = s.dev)) ∧
  (∀ s k ok, let first := (mget s.dev.dict.commitFails k).isNone
    let c := if first then Instr.cryptObjectCommit k ok else .cryptCommitRetry k ok
    (exec (if first then Instr.cryptCommitRetry k ok else .cryptObjectCommit k ok) s = .next s) ∧
    (s.dev.dict.commits.contains k = false → exec c s = .next s) ∧
    (s.dev.dict.commits.contains k = true → s.dev.cryptReadOnly = false → ∃ d', exec c s = .next { s with dev := d' } ∧
      mget d'.dict.crypt k = some (d'.oget k) ∧ d'.dict.commits = s.dev.dict.commits.filter (· ≠ k) ∧ mget d'.dict.commitFails k = none ∧
      (ok = true → { d' with dict := s.dev.dict } = s.dev)) ∧
    (s.dev.dict.commits.contains k = true → s.dev.cryptReadOnly = true →
      let n := dget 0 s.dev.dict.commitFails k + 1
      ∃ d', exec c s = .next { s with dev := d' } ∧ d'.mem = s.dev.mem ∧
        (n < 3 → d'.dict.crypt = s.dev.dict.crypt ∧ mget d'.dict.commitFails k = some n ∧ d'.dict.commits = s.dev.dict.commits) ∧
        (3 ≤ n → d'.dict.commits = s.dev.dict.commits.filter (· ≠ k) ∧ ((s.dev.errLog 256).entries.length < 8 → ∃ x ∈ (d'.errLog 256).entries, x.cause = 0x41))))

/-! ### The tray -/

/-- The vendor commands, MCTP control and PLDM messages of the tray host are answered (R991 to R994, R997, R998, R1001, R1003,
R1009, R1014, R1015, R1018). The codes and bodies of PLDM and MCTP control are the model's (assumptions 54 and 60). -/
def Obligations.TrayRequestsAreAnswered : Prop :=
  TrayHostCommandsAreAnswered ∧ TrayPldmAndMctpRequestsAreAnswered

/-- What the JT-16 watches and does of itself (R996, R997, R999 to R1002, R1004 to R1008, R1014, R1015, R1017): samples move the
alarms, three leak readings isolate their slots, a restart holds every output, and devices are attested and written. How much of
the 2 % a period of the pump loop uses is a free value (assumption 61). -/
def Obligations.TrayWatchesAndActs : Prop :=
  (∀ (s : State) (r : TraySample), r.flow.length = 16 → r.outlet.length = 16 → r.power.length = 16 → r.inlet.length = 2 → r.current.length = 2 → r.speed.length = 2 →
    (s.dev.tray.down = true → exec (.sensorSample r) s = .next s) ∧
    (s.dev.tray.down = false → ∃ d', exec (.sensorSample r) s = .next { s with dev := d' } ∧
      (∀ n < 16, (d'.slot n).present = bit r.present n ∧
        (d'.slot n).flow = (if bit r.flowBad n ∨ 1000 < (r.flow[n]?).getD 0 then (s.dev.slot n).flow else (r.flow[n]?).getD 0)) ∧
      (∀ i < 2, (d'.tray.pressure[i]?).getD 0 =
        if (r.current[i]?).getD 0 < 360 ∨ 2100 < (r.current[i]?).getD 0 then (s.dev.tray.pressure[i]?).getD 0
        else min 6000 (((r.current[i]?).getD 0 - 400) * 15 / 4)) ∧
      (let p := (d'.tray.pressure[0]?).getD 0
       let ok := decide (360 ≤ (r.current[0]?).getD 0 ∧ (r.current[0]?).getD 0 ≤ 2100)
       condTakes s d' 9 0 (ok && decide (10 * s.dev.tray.param 9 < p)) (ok && decide (p + 200 < 10 * s.dev.tray.param 9)) 1000 r.ms) ∧
      (s.dev.tray.clockSet = true → d'.tray.clock = (s.dev.tray.clock + 1000000 * r.ms) % 2 ^ 64))) ∧
  (∀ (s : State) n (r : RopeReading), n < 4 →
    (s.dev.tray.down = true → exec (.ropeReading n r) s = .next s) ∧
    (s.dev.tray.down = false → ((s.dev.tray.rope n).reading r).leakRun < 3 → ∃ d', exec (.ropeReading n r) s = .next { s with dev := d' } ∧
      d'.tray.rope n = (s.dev.tray.rope n).reading r ∧ d'.tray.slots = s.dev.tray.slots) ∧
    (∀ g, s.dev.tray.down = false → 3 ≤ ((s.dev.tray.rope n).reading r).leakRun → s.dev.tray.segAt n (bridgeAt r) = some g →
      ((s.dev.tray.rope n).reading r).latched.contains g = false → s.dev.tray.param 8 ≠ 0 →
      ∃ d', exec (.ropeReading n r) s = .next { s with dev := d' } ∧ (d'.tray.rope n).latched.contains g = true ∧
        ∀ k < 16, bit (s.dev.tray.param (0x30 + 8 * n + g)) k = true → (d'.slot k).pwrEn = false ∧ (d'.slot k).resetN = true ∧
          (d'.slot k).closing = true ∧ (d'.slot k).leakHeld = true)) ∧
  (∀ s n, n < 16 →
    (s.dev.tray.down = true ∨ (s.dev.slot n).closing = false → exec (.valveCloseDelay n) s = .next s) ∧
    (s.dev.tray.down = false → (s.dev.slot n).closing = true → exec (.valveCloseDelay n) s =
      .next { s with dev := s.dev.onSlot n fun x => { x with valve := false, closing := false } })) ∧
  (∀ s, let t := s.dev.tray
    let put := fun v => State.mk { s.dev with tray := { t with pumpCmd := v }, free := s.dev.free + 1 } s.pending
    let low := ∃ n < 16, t.alarm 3 n = true ∧ s.dev.slotPowered n = true
    let supply := (t.pressure[0]?).getD 0
    let back := (t.pressure[1]?).getD 0
    (t.down = true → exec .pumpLoop s = .next s) ∧
    (t.pressureFailed ≠ 0 → exec .pumpLoop s = .next s) ∧
    (t.down = false → t.pressureFailed = 0 → t.alarm 9 0 = true → ∃ d', exec .pumpLoop s = .next { s with dev := d' } ∧
      d'.tray.pumpCmd = if t.pumpCmd ≤ 10 ∨ supply + 200 < 10 * t.param 9 then t.pumpCmd else max 10 (t.pumpCmd - 2)) ∧
    (t.down = false → t.alarm 9 0 = false → t.pressureFailed = 0 → low → ∃ d', exec .pumpLoop s = .next { s with dev := d' } ∧
      min 100 (t.pumpCmd + 1) ≤ d'.tray.pumpCmd ∧ d'.tray.pumpCmd ≤ min 100 (t.pumpCmd + 2) ∧
      (t.param 7 < d'.tray.pumpCmd → d'.tray.clampMax = true)) ∧
    (t.down = false → t.alarm 9 0 = false → t.pressureFailed = 0 → ¬ low → t.param 6 ≤ t.pumpCmd → t.pumpCmd ≤ t.param 7 →
      (supply < back + 10 * t.param 5 → ∃ v, t.pumpCmd ≤ v ∧ v ≤ min (t.param 7) (t.pumpCmd + 2) ∧ exec .pumpLoop s = .next (put v)) ∧
      (back + 10 * t.param 5 < supply → ∃ v, max (t.param 6) (t.pumpCmd - 2) ≤ v ∧ v ≤ t.pumpCmd ∧ exec .pumpLoop s = .next (put v)) ∧
      (supply = back + 10 * t.param 5 → exec .pumpLoop s = .next s))) ∧
  (∀ s n ok, n < 16 →
    (s.dev.tray.down = true ∨ (s.dev.slot n).retry = false ∨ s.dev.limitHeld n = false → exec (.powerLimitRetry n ok) s = .next s) ∧
    (FreeBus s.dev n → s.dev.slotPowered n = true → (s.dev.slot n).untrusted = false → (s.dev.slot n).retry = true →
      s.dev.limitHeld n = true → ∃ d', exec (.powerLimitRetry n ok) s = .next { s with dev := d' } ∧ (d'.slot n).retry = !ok ∧
        writesQueued d' n [(0x2018, 0, s.dev.tray.param 2)])) ∧
  (∀ s, exec .controllerSupplyLoss s = .next { s with dev := { s.dev with tray := { s.dev.tray with down := true } } } ∧
    ∃ d', exec .controllerRestart s = .next { s with dev := d' } ∧ d'.tray.down = false ∧ d'.tray.boot = (s.dev.tray.boot + 1) % 65536 ∧
      d'.tray.count = 1 ∧ d'.tray.receiver = none ∧ d'.tray.pumpCmd = s.dev.tray.pumpCmd ∧ d'.tray.params = s.dev.tray.params ∧
      d'.tray.key = s.dev.tray.key ∧ { d' with tray := s.dev.tray, free := s.dev.free } = s.dev ∧
      ∀ n < 16, (d'.slot n).pwrEn = (s.dev.slot n).pwrEn ∧ (d'.slot n).resetN = (s.dev.slot n).resetN ∧ (d'.slot n).valve = (s.dev.slot n).valve ∧
        (d'.slot n).saved = (s.dev.slot n).saved ∧ (d'.slot n).queue = []) ∧
  (∀ s n d1 d2 d4, n < 16 →
    (s.dev.tray.down = true ∨ s.dev.slotPowered n = false ∨ (s.dev.slot n).attested = true → exec (.deviceAttest n d1 d2 d4) s = .next s) ∧
    (s.dev.tray.down = false → s.dev.slotPowered n = true → (s.dev.slot n).attested = false →
      (n = s.dev.tray.home → s.dev.boot.running.isSome = true) → ∃ d', exec (.deviceAttest n d1 d2 d4) s = .next { s with dev := d' } ∧
        (d'.slot n).attested = true ∧ (d'.slot n).untrusted = !s.dev.tray.allow.contains (d1, d2, d4) ∧
        (s.dev.tray.allow.contains (d1, d2, d4) = false → d'.slotState n = 7) ∧ { d' with tray := s.dev.tray } = s.dev)) ∧
  (∀ s n, n < 16 →
    (s.dev.tray.down = true ∨ s.dev.slotPowered n = false → exec (.notifyTargetSetup n) s = .next s ∧ exec (.slotNoResponse n) s = .next s) ∧
    (FreeBus s.dev n → s.dev.slotPowered n = true → (s.dev.slot n).untrusted = false → ∃ d', exec (.notifyTargetSetup n) s = .next { s with dev := d' } ∧
      d'.slotState n = 5 ∧ writesQueued d' n ((0x1130, 1, s.dev.tray.param (0x50 + n) + 0xFF9000) ::
        if s.dev.tray.clockSet then [(0xB003, 1, s.dev.tray.clock)] else [])) ∧
    (s.dev.tray.down = false → s.dev.slotPowered n = true → n ≠ s.dev.tray.home → ∃ d', exec (.slotNoResponse n) s = .next { s with dev := d' } ∧
      d'.slotState n = (if (s.dev.slot n).untrusted then 7 else 3) ∧ { d' with tray := s.dev.tray } = s.dev) ∧
    (FreeBus s.dev n → s.dev.slotState n = 5 → s.dev.tray.clockSet = true → ∃ d', exec .trayUtcWrite s = .next { s with dev := d' } ∧
      writesQueued d' n [(0xB003, 1, s.dev.tray.clock)]) ∧
    (FreeBus s.dev n → s.dev.slotState n = 5 → ∃ d' hot, exec .trayHeartbeat s = .next { s with dev := d' } ∧
      d'.tray.beats = (s.dev.tray.beats + 1) % 2 ^ 32 ∧
      writesQueued d' n [(0xB000, 0, (s.dev.tray.beats + 1) % 2 ^ 32), (0xB001, 0, s.dev.tray.serial), (0xB002, 0, n), (0xB004, 0, hot),
        (0xB005, 0, (s.dev.slot n).flow), (0xB006, 0, s.dev.tray.alarms)])) ∧
  (∀ s, (s.dev.tray.down = true → exec .trayHeartbeat s = .next s) ∧ (s.dev.tray.down = true ∨ s.dev.tray.clockSet = false → exec .trayUtcWrite s = .next s)) ∧
  (∀ (s : State) n, n < 16 →
    (s.dev.tray.down = true ∨ (s.dev.slot n).queue = [] ∨ (s.dev.slot n).sent = false → exec (.relayTimeoutExpiry n) s = .next s) ∧
    ∀ q, s.dev.tray.down = false → (s.dev.slot n).queue = [q] → (s.dev.slot n).sent = true → ∃ d', exec (.relayTimeoutExpiry n) s = .next { s with dev := d' } ∧
      (d'.slot n).queue = [] ∧ (d'.slot n).sent = false ∧ (d'.slot n).retry = ((s.dev.slot n).retry || decide (q.why = 2 ∨ q.why = 3)) ∧
      d'.out = if q.why = 0 then .vendor 2 7 [] :: s.dev.out else s.dev.out)

/-! ### The whole machine -/

/-- A step carries out the command at the front of the queue; on an empty queue the block idles, which is the model's choice (assumption 2). -/
def Obligations.AStepTakesTheFrontCommand : Prop :=
  (∀ c (s : State) rest, step { s with pending := c :: rest } = exec c { s with pending := rest }) ∧
  ∀ s, s.pending = [] → step s = .next s

/-- Every well-formed command completes, whatever the state, and leaves the queue as it is; only a read or a write of device
memory at an address where the device has none is a fault. A command that is not well formed is refused. That it is refused is
the model's choice (assumption 3). -/
def Obligations.WellFormedCommandsComplete : Prop :=
  ∀ c s, (Instr.wf c = false → exec c s = .refused .illFormed) ∧
    (Instr.wf c = true → (∃ d', exec c s = .next { s with dev := d' }) ∨
      ∃ dpa, exec c s = .fault (.noMemory dpa) ∧ s.dev.homeDie dpa = none ∧ ((∃ o e, c = .hbmRead dpa o e) ∨ ∃ m x p, c = .hbmWrite dpa m x p))

/-- Every step keeps memory in its canonical form: addresses rise, and no byte is listed that reads as an unlisted one. -/
def Obligations.StepsKeepMemoryCanonical : Prop :=
  ∀ s t, memWf s.dev.mem.cells = true → step s = .next t → memWf t.dev.mem.cells = true

/-- Right after reset (R836, R930, R951): the block is held in reset in boot phase 0, no command waits, memory lists nothing and
is canonical, no core holds a task, every queue is DISABLED, every tenant ABSENT, and dictionary objects hold the values of
their tables' reset column. That unlisted memory reads zero is the model's choice (assumption 5). -/
def Obligations.ResetHoldsTheTableValues : Prop :=
  let d := State.reset.dev
  State.reset.pending = [] ∧ d.boot.inReset = true ∧ d.oget O.BOOT_PHASE = 0 ∧ d.oget O.DEVICE_STATUS = 0 ∧ d.mem.cells = [] ∧
    memWf d.mem.cells = true ∧ (∀ n, (d.core n).task = none) ∧ (∀ k, (d.queue k).state = .disabled) ∧
    (∀ t < 256, d.oget (O.TENANT_STATE t) = 0) ∧ (∀ x, 2 ≤ x → x < 16 → d.oget (O.PD_STATE x) = 0) ∧ d.prec.nodes = [] ∧ d.prec.graphs = [] ∧
    d.oget (O.L2_PARTITION 0) = 0xFFFF ∧ d.oget (O.L2_PARTITION 1) = 0 ∧ d.oget O.FAULT_RETRY_LIMIT = 4 ∧ d.oget O.PRI_TIMEOUT = 100 ∧
    d.oget O.HOST_OUTSTANDING_MAX = 1024 ∧ d.oget O.SHARE_QUANTUM = 1000000 ∧ d.oget O.TANDEM_MISMATCH_LIMIT = 3 ∧
    d.oget O.CANTOR_TIMEOUT = 10000 ∧ d.oget O.PKG_POWER_LIMIT = 1500 ∧ d.oget O.VOLT_MARGIN = 25 ∧ d.oget O.CLR_CAP = 30
end

