-- ==== Sys2Proof/Laws/Maps.lean ====
section
/-! SUPPORT. Laws/Maps.lean: what reading a sparse map gives after a write, and the numbers of bits and bytes. -/

namespace Sys2Proof.Machine

theorem mget_mset {α : Type} (m : List (Nat × α)) (k j : Nat) (v : α) :
    mget (mset m k v) j = if j = k then some v else mget m j := by
  induction m with
  | nil => simp [mset, mget]
  | cons e m ih =>
    obtain ⟨k', v'⟩ := e
    simp only [mset]
    split
    · simp only [mget]
    · split
      · rename_i h1 h2; subst h2; simp only [mget]; split <;> rfl
      · simp only [mget, ih]
        split
        · split
          · omega
          · rfl
        · rfl

theorem mget_mdel {α : Type} (m : List (Nat × α)) (k j : Nat) :
    mget (mdel m k) j = if j = k then none else mget m j := by
  induction m with
  | nil => simp [mdel, mget]
  | cons e m ih =>
    obtain ⟨k', v'⟩ := e
    simp only [mdel]
    split
    · rename_i h; subst h; rw [ih]; simp only [mget]; split <;> rfl
    · simp only [mget, ih]
      split
      · split
        · omega
        · rfl
      · rfl

/-- Reading key `j` after writing key `k`. -/
theorem dget_dset {α : Type} [DecidableEq α] (d : α) (m : List (Nat × α)) (k j : Nat) (v : α) :
    dget d (dset d m k v) j = if j = k then v else dget d m j := by
  unfold dget dset
  split
  · rename_i h; rw [mget_mdel, h]; split <;> rfl
  · rw [mget_mset]; split <;> rfl

@[simp] theorem dget_dset_same {α : Type} [DecidableEq α] (d : α) (m : List (Nat × α)) (k : Nat) (v : α) :
    dget d (dset d m k v) k = v := by simp [dget_dset]

theorem dget_dset_ne {α : Type} [DecidableEq α] (d : α) (m : List (Nat × α)) {k j : Nat} (v : α) (h : j ≠ k) :
    dget d (dset d m k v) j = dget d m j := by simp [dget_dset, h]

@[simp] theorem mget_mset_same {α : Type} (m : List (Nat × α)) (k : Nat) (v : α) : mget (mset m k v) k = some v := by
  simp [mget_mset]

/-- A second write to a key replaces the first. -/
theorem mset_mset {α : Type} (m : List (Nat × α)) (k : Nat) (v w : α) : mset (mset m k v) k w = mset m k w := by
  induction m with
  | nil => simp [mset]
  | cons e m ih =>
    obtain ⟨k', v'⟩ := e
    simp only [mset]
    split
    · simp [mset]
    · split
      · simp [mset]
      · simp only [mset, ih]
        split
        · omega
        · rfl

theorem mdel_mset {α : Type} (m : List (Nat × α)) (k : Nat) (v : α) : mdel (mset m k v) k = mdel m k := by
  induction m with
  | nil => simp [mset, mdel]
  | cons e m ih =>
    obtain ⟨k', v'⟩ := e
    simp only [mset]
    split
    · simp [mdel]
    · split
      · rename_i h; subst h; simp [mdel]
      · simp only [mdel, ih]

/-! ### Canonical form -/

/-- Every key of the list is above `b`. -/
def keysAbove {α : Type} (b : Nat) (m : List (Nat × α)) : Prop := ∀ e ∈ m, b < e.1

theorem keysRise_cons {α : Type} (a : Nat × α) (m : List (Nat × α)) :
    keysRise (a :: m) = true ↔ keysAbove a.1 m ∧ keysRise m = true := by
  induction m generalizing a with
  | nil => simp [keysRise, keysAbove]
  | cons b m ih =>
    simp only [keysRise, Bool.and_eq_true, decide_eq_true_eq]
    constructor
    · rintro ⟨h1, h2⟩
      refine ⟨?_, h2⟩
      intro e he
      rcases List.mem_cons.1 he with rfl | he
      · exact h1
      · exact Nat.lt_trans h1 ((ih b).1 h2 |>.1 e he)
    · rintro ⟨h1, h2⟩
      exact ⟨h1 b (by simp), h2⟩

theorem keysAbove_mset {α : Type} {b k : Nat} (m : List (Nat × α)) (v : α) (h : keysAbove b m) (hk : b < k) :
    keysAbove b (mset m k v) := by
  induction m with
  | nil => intro e he; simp [mset] at he; subst he; exact hk
  | cons a m ih =>
    obtain ⟨k', v'⟩ := a
    have hm : keysAbove b m := fun e he => h e (by simp [he])
    have ha := h (k', v') (by simp)
    simp only [mset]
    split
    · intro e he
      rcases List.mem_cons.1 he with rfl | he
      · exact hk
      · exact h e he
    · split
      · intro e he
        rcases List.mem_cons.1 he with rfl | he
        · exact hk
        · exact hm e he
      · intro e he
        rcases List.mem_cons.1 he with rfl | he
        · exact ha
        · exact ih hm e he

theorem keysRise_mset {α : Type} (m : List (Nat × α)) (k : Nat) (v : α) (h : keysRise m = true) : keysRise (mset m k v) = true := by
  induction m with
  | nil => simp [mset, keysRise]
  | cons a m ih =>
    obtain ⟨k', v'⟩ := a
    obtain ⟨h1, h2⟩ := (keysRise_cons _ _).1 h
    simp only [mset]
    split
    · rename_i hlt
      refine (keysRise_cons _ _).2 ⟨?_, h⟩
      intro e he
      rcases List.mem_cons.1 he with rfl | he
      · exact hlt
      · exact Nat.lt_trans hlt (h1 e he)
    · split
      · rename_i he; subst he
        exact (keysRise_cons _ _).2 ⟨h1, h2⟩
      · rename_i hn hne
        exact (keysRise_cons _ _).2 ⟨keysAbove_mset m v h1 (by simp only; omega), ih h2⟩

theorem mdel_subset {α : Type} (m : List (Nat × α)) (k : Nat) : ∀ e ∈ mdel m k, e ∈ m := by
  induction m with
  | nil => simp [mdel]
  | cons a m ih =>
    obtain ⟨k', v'⟩ := a
    intro e he
    simp only [mdel] at he
    split at he
    · exact List.mem_cons_of_mem _ (ih e he)
    · rcases List.mem_cons.1 he with rfl | he
      · simp
      · exact List.mem_cons_of_mem _ (ih e he)

theorem keysRise_mdel {α : Type} (m : List (Nat × α)) (k : Nat) (h : keysRise m = true) : keysRise (mdel m k) = true := by
  induction m with
  | nil => simp [mdel, keysRise]
  | cons a m ih =>
    obtain ⟨k', v'⟩ := a
    obtain ⟨h1, h2⟩ := (keysRise_cons _ _).1 h
    simp only [mdel]
    split
    · exact ih h2
    · exact (keysRise_cons _ _).2 ⟨fun e he => h1 e (mdel_subset m k e he), ih h2⟩

theorem mem_mset {α : Type} (m : List (Nat × α)) (k : Nat) (v : α) : ∀ e ∈ mset m k v, e = (k, v) ∨ e ∈ m := by
  induction m with
  | nil => simp [mset]
  | cons a m ih =>
    obtain ⟨k', v'⟩ := a
    intro e he
    simp only [mset] at he
    split at he
    · rcases List.mem_cons.1 he with rfl | he
      · exact .inl rfl
      · exact .inr he
    · split at he
      · rcases List.mem_cons.1 he with rfl | he
        · exact .inl rfl
        · exact .inr (List.mem_cons_of_mem _ he)
      · rcases List.mem_cons.1 he with rfl | he
        · exact .inr (by simp)
        · rcases ih e he with h | h
          · exact .inl h
          · exact .inr (List.mem_cons_of_mem _ h)

/-- A write keeps the canonical form. -/
theorem dwf_dset {α : Type} [DecidableEq α] (d : α) (m : List (Nat × α)) (k : Nat) (v : α) (h : dwf d m = true) :
    dwf d (dset d m k v) = true := by
  simp only [dwf, Bool.and_eq_true, List.all_eq_true, decide_eq_true_eq] at h ⊢
  unfold dset
  split
  · exact ⟨keysRise_mdel m k h.1, fun e he => h.2 e (mdel_subset m k e he)⟩
  · rename_i hv
    refine ⟨keysRise_mset m k v h.1, fun e he => ?_⟩
    rcases mem_mset m k v e he with rfl | he
    · exact hv
    · exact h.2 e he

/-! ### Memory -/

/-- A byte write keeps memory canonical. -/
theorem memWf_putByte (m : List Host.Cell) (a : Nat) (b : Byte) (h : memWf m = true) : memWf (putByte m a b) = true := dwf_dset 0 m a b h

theorem memWf_putBytes (bs : List Byte) (m : List Host.Cell) (a : Nat) (h : memWf m = true) : memWf (putBytes m a bs) = true := by
  induction bs generalizing m a with
  | nil => exact h
  | cons b bs ih => exact ih _ _ (memWf_putByte m a b h)

theorem memWf_putMasked (n : Nat) (m : List Host.Cell) (a mask v : Nat) (h : memWf m = true) :
    memWf (putMasked m a n mask v) = true := by
  induction n generalizing m a mask v with
  | zero => exact h
  | succ n ih =>
    simp only [putMasked]
    split
    · exact ih _ _ _ _ (memWf_putByte m a _ h)
    · exact ih _ _ _ _ h

/-- The byte at an address. -/
theorem byte_putByte (m : List Host.Cell) (a x : Nat) (b : Byte) : dget 0 (putByte m a b) x = if x = a then b else dget 0 m x :=
  dget_dset 0 m a x b

/-- The byte at an address after a masked store. -/
theorem byte_putMasked (n : Nat) (m : List Host.Cell) (a mask v x : Nat) :
    dget (0 : Byte) (putMasked m a n mask v) x =
      if a ≤ x ∧ x < a + n ∧ bit mask (x - a) = true then BitVec.ofNat 8 (v / 256 ^ (x - a)) else dget 0 m x := by
  induction n generalizing m a mask v with
  | zero => simp only [putMasked]; rw [if_neg (by omega)]
  | succ n ih =>
    simp only [putMasked, ih]
    by_cases hx : x = a
    · subst hx
      rw [if_neg (by omega)]
      by_cases hm : mask % 2 = 1
      · rw [if_pos hm, byte_putByte, if_pos rfl, if_pos ⟨by omega, by omega, by simp [bit, hm]⟩]
        simp
      · rw [if_neg hm, if_neg]
        rintro ⟨_, _, h⟩
        simp [bit, hm] at h
    · by_cases hr : a ≤ x ∧ x < a + (n + 1)
      · have e : x - a = (x - (a + 1)) + 1 := by omega
        have hb : bit mask (x - a) = bit (mask / 2) (x - (a + 1)) := by
          rw [e]; unfold bit; rw [Nat.div_div_eq_div_mul, ← Nat.pow_succ']
        have hv : v / 256 ^ (x - a) = v / 256 / 256 ^ (x - (a + 1)) := by
          rw [e, Nat.pow_succ, Nat.div_div_eq_div_mul, Nat.mul_comm]
        rw [hb, hv]
        have hd : dget (0 : Byte) (if mask % 2 = 1 then putByte m a (BitVec.ofNat 8 v) else m) x = dget 0 m x := by
          split
          · rw [byte_putByte, if_neg hx]
          · rfl
        rw [hd]
        by_cases hbt : bit (mask / 2) (x - (a + 1)) = true
        · rw [if_pos ⟨by omega, by omega, hbt⟩, if_pos ⟨by omega, by omega, hbt⟩]
        · rw [if_neg (fun h => hbt h.2.2), if_neg (fun h => hbt h.2.2)]
      · have hL : ¬(a + 1 ≤ x ∧ x < a + 1 + n ∧ bit (mask / 2) (x - (a + 1)) = true) := fun h => hr ⟨by omega, by omega⟩
        have hR : ¬(a ≤ x ∧ x < a + (n + 1) ∧ bit mask (x - a) = true) := fun h => hr ⟨h.1, h.2.1⟩
        rw [if_neg hL, if_neg hR]
        split
        · rw [byte_putByte, if_neg hx]
        · rfl

end Sys2Proof.Machine
end

