-- ==== Sys2Proof/Laws/Choir.lean ====
section
/-! SUPPORT. Laws/Choir.lean: reading cores, choirs and their registers after a change. -/

namespace Sys2Proof.Machine

/-! ### Cores and choirs -/

theorem core_setCore (d : Dev) (n m : Nat) (c : Core) : (d.setCore n c).core m = if m = n then c else d.core m := by
  simp [Dev.core, Dev.setCore, dget_dset]

@[simp] theorem core_setCore_same (d : Dev) (n : Nat) (c : Core) : (d.setCore n c).core n = c := by simp [core_setCore]

@[simp] theorem core_onCore_same (d : Dev) (n : Nat) (f : Core → Core) : (d.onCore n f).core n = f (d.core n) := by simp [Dev.onCore]

theorem core_onCore_ne (d : Dev) {n m : Nat} (f : Core → Core) (h : m ≠ n) : (d.onCore n f).core m = d.core m := by
  simp [Dev.onCore, core_setCore, h]

@[simp] theorem choir_setChoir_same (c : Core) (slot : Nat) (h : Choir) : (c.setChoir slot h).choir slot = h := by
  simp [Core.choir, Core.setChoir]

theorem choir_setChoir_ne (c : Core) {slot i : Nat} (h : Choir) (hi : i ≠ slot) : (c.setChoir slot h).choir i = c.choir i := by
  simp [Core.choir, Core.setChoir, mget_mset, hi]

@[simp] theorem choir_onChoir_same (d : Dev) (n slot : Nat) (f : Choir → Choir) :
    ((d.onChoir n slot f).core n).choir slot = f ((d.core n).choir slot) := by simp [Dev.onChoir]

theorem mset_ne_nil {α : Type} (m : List (Nat × α)) (k : Nat) (v : α) : mset m k v ≠ [] := by
  cases m with
  | nil => simp [mset]
  | cons a m => obtain ⟨k', v'⟩ := a; simp only [mset]; split <;> [simp; split <;> simp]

theorem setChoir_ne_reset (c : Core) (slot : Nat) (h : Choir) : c.setChoir slot h ≠ Core.reset := by
  intro he
  have : (c.setChoir slot h).choirs = [] := by rw [he]; rfl
  exact mset_ne_nil _ _ _ this

theorem setCore_setCore (d : Dev) (n : Nat) (c c' : Core) (h : c ≠ Core.reset) (h' : c' ≠ Core.reset) :
    (d.setCore n c).setCore n c' = d.setCore n c' := by
  simp [Dev.setCore, dset, h, h', mset_mset]

/-- Two changes of one choir are one. -/
theorem onChoir_onChoir (d : Dev) (n slot : Nat) (f g : Choir → Choir) :
    (d.onChoir n slot f).onChoir n slot g = d.onChoir n slot (fun h => g (f h)) := by
  unfold Dev.onChoir Dev.onCore
  rw [core_setCore_same, setCore_setCore _ _ _ _ (setChoir_ne_reset _ _ _) (setChoir_ne_reset _ _ _)]
  simp [Core.setChoir, Core.choir, mset_mset]

/-- A change of a choir depends only on the choir it changes. -/
theorem onChoir_const (d : Dev) (n slot : Nat) (f : Choir → Choir) :
    d.onChoir n slot f = d.onChoir n slot (fun _ => f ((d.core n).choir slot)) := rfl

/-! ### Registers -/

theorem vget_vset (h : Choir) (r v x : Nat) (p : Bool) (r' v' : Nat) (hv : v < 32) (hv' : v' < 32) :
    (h.vset r v x p).vget r' v' = if r' = r ∧ v' = v then (x % 2 ^ 32, p) else h.vget r' v' := by
  have e : (32 * r' + v' = 32 * r + v) = (r' = r ∧ v' = v) := by apply propext; constructor <;> intro h <;> omega
  simp only [Choir.vget, Choir.vset, dget_dset, e]
  split <;> simp

theorem uget_uset (h : Choir) (r x : Nat) (p : Bool) (r' : Nat) :
    (h.uset r x p).uget r' = if r' = r then (x % 2 ^ 32, p) else h.uget r' := by
  simp only [Choir.uget, Choir.uset, dget_dset]
  split <;> simp

@[simp] theorem uget_vset (h : Choir) (r v x : Nat) (p : Bool) (r' : Nat) : (h.vset r v x p).uget r' = h.uget r' := rfl
@[simp] theorem vget_uset (h : Choir) (r x : Nat) (p : Bool) (r' v' : Nat) : (h.uset r x p).vget r' v' = h.vget r' v' := rfl
@[simp] theorem pred_vset (h : Choir) (r v x : Nat) (p : Bool) (i : Nat) : (h.vset r v x p).pred i = h.pred i := rfl
@[simp] theorem pred_uset (h : Choir) (r x : Nat) (p : Bool) (i : Nat) : (h.uset r x p).pred i = h.pred i := rfl

/-- A register index lies in none of `w` registers from `r`. -/
theorem mem_rangeFrom (a n x : Nat) : x ∈ rangeFrom a n ↔ a ≤ x ∧ x < a + n := by
  induction n generalizing a with
  | zero => simp [rangeFrom]
  | succ n ih => simp [rangeFrom, ih]; omega

/-- What voice `v` reads after `w` registers from `r` of voice `v` are written one after another. -/
theorem vget_foldl_vset (f : Nat → Nat) (p : Bool) (r v : Nat) (hv : v < 32) (r' v' : Nat) (hv' : v' < 32) (w a : Nat) (h : Choir) :
    ((rangeFrom a w).foldl (fun h i => h.vset (r + i) v (f i) p) h).vget r' v' =
      if v' = v ∧ r + a ≤ r' ∧ r' < r + a + w then (f (r' - r) % 2 ^ 32, p) else h.vget r' v' := by
  induction w generalizing a h with
  | zero => simp only [rangeFrom, List.foldl_nil]; rw [if_neg (by omega)]
  | succ w ih =>
    simp only [rangeFrom, List.foldl_cons, ih, vget_vset _ _ _ _ _ _ _ hv hv']
    by_cases h1 : v' = v ∧ r + (a + 1) ≤ r' ∧ r' < r + (a + 1) + w
    · rw [if_pos h1, if_pos (by omega)]
    · rw [if_neg h1]
      by_cases h2 : r' = r + a ∧ v' = v
      · rw [if_pos h2, if_pos (by omega)]
        obtain ⟨rfl, _⟩ := h2
        simp
      · rw [if_neg h2, if_neg (by omega)]

theorem vget_vputWide (h : Choir) (r v w x : Nat) (p : Bool) (r' v' : Nat) (hv : v < 32) (hv' : v' < 32) :
    (h.vputWide r v w x p).vget r' v' =
      if v' = v ∧ r ≤ r' ∧ r' < r + w then (x / 2 ^ (32 * (r' - r)) % 2 ^ 32, p) else h.vget r' v' :=
  vget_foldl_vset (fun i => x / 2 ^ (32 * i)) p r v hv r' v' hv' w 0 h

theorem uget_foldl_uset (f : Nat → Nat) (p : Bool) (r : Nat) (r' : Nat) (w a : Nat) (h : Choir) :
    ((rangeFrom a w).foldl (fun h i => h.uset (r + i) (f i) p) h).uget r' =
      if r + a ≤ r' ∧ r' < r + a + w then (f (r' - r) % 2 ^ 32, p) else h.uget r' := by
  induction w generalizing a h with
  | zero => simp only [rangeFrom, List.foldl_nil]; rw [if_neg (by omega)]
  | succ w ih =>
    simp only [rangeFrom, List.foldl_cons, ih, uget_uset]
    by_cases h1 : r + (a + 1) ≤ r' ∧ r' < r + (a + 1) + w
    · rw [if_pos h1, if_pos (by omega)]
    · rw [if_neg h1]
      by_cases h2 : r' = r + a
      · rw [if_pos h2, if_pos (by omega)]
        subst h2
        simp
      · rw [if_neg h2, if_neg (by omega)]

theorem uget_uputWide (h : Choir) (r w x : Nat) (p : Bool) (r' : Nat) :
    (h.uputWide r w x p).uget r' = if r ≤ r' ∧ r' < r + w then (x / 2 ^ (32 * (r' - r)) % 2 ^ 32, p) else h.uget r' :=
  uget_foldl_uset (fun i => x / 2 ^ (32 * i)) p r r' w 0 h

/-- Fields of a choir that a write of a register leaves alone. -/
theorem foldl_keeps {α β γ : Type} (g : β → γ) (f : β → α → β) (hf : ∀ b a, g (f b a) = g b) (l : List α) (b : β) :
    g (l.foldl f b) = g b := by
  induction l generalizing b with
  | nil => rfl
  | cons a l ih => simp only [List.foldl_cons, ih, hf]

/-- The voices of a mask lie below 32. -/
theorem mem_voicesOf (m v : Nat) : v ∈ voicesOf m ↔ v < 32 ∧ bit m v = true := by
  simp [voicesOf, mem_rangeFrom]

end Sys2Proof.Machine
end

