-- ==== Sys2Proof/Laws/Nave.lean ====
section
/-! SUPPORT. Laws/Nave.lean: what an instruction that issues does, and what the shared ways of writing a result write. -/

namespace Sys2Proof.Machine

open Sys2Proof.Claims

theorem runIf_true (s : State) (f : Dev → Dev) : s.runIf true f = .next { s with dev := f s.dev } := rfl

theorem runIf_false (s : State) (f : Dev → Dev) : s.runIf false f = .refused .illFormed := rfl

/-- Counting the issue of an instruction leaves every choir and task as it is. -/
@[simp] theorem issued_core (d : Dev) (n slot : Nat) :
    (d.issued n slot).core n = { d.core n with last := mset (d.core n).last (slot % 4) slot, quietFor := 0 } :=
  core_onCore_same d n fun c => { c with last := mset c.last (slot % 4) slot, quietFor := 0 }

@[simp] theorem issued_choir (d : Dev) (n slot i : Nat) : ((d.issued n slot).core n).choir i = (d.core n).choir i := by simp [Core.choir]

/-- An instruction that issues answers what its action makes of the device at the end of the command's core clock. -/
theorem nave_issues {s : State} {c : ChoirRef} {e : HwErr} {opc : Nat} {sp : Nat → Spec} {d : Dev} {x : Ctx}
    (h : Issues s c e opc sp d x) (act : Dev → Ctx → Dev) :
    s.nave c e opc sp act = .next { s with dev := (act d x).clockEnd c } := by
  obtain ⟨d0, hf, rfl⟩ := h.word
  have hx : x = ⟨c.core, c.slot, x.w, x.ex, x.h, e⟩ := by
    rw [← h.core_eq, ← h.slot_eq, ← h.err_eq]
  have hh : x.h = (d0.core c.core).choir c.slot := by rw [← issued_choir]; exact h.choir
  have hex := h.voices
  rw [hh] at hex
  have hcl : (voicesOf x.ex).filter (eatsPoison (sp x.w) x.h x.w) = [] := by
    rw [List.filter_eq_nil_iff]; intro v hv; simp [h.clean v hv]
  have hopc : ¬(iOpc x.w ≠ opc ∧ opcDefined (iOpc x.w) = true) := fun hc => hc.1 h.opcode
  have hrun : (decide (c.core < 256) && decide (c.slot < 64)) = true := by simp [h.core, h.slot]
  unfold State.nave
  rw [hrun, runIf_true]
  congr 2
  unfold Dev.issue Dev.issueNow
  rw [if_neg (by simp [h.ready])]
  simp only [hf]
  rw [if_neg (by simpa using hopc)]
  rw [← hex, ← hh]
  rw [if_neg h.some, if_neg (by simp [h.opcode, h.legal]), if_neg (by simpa using h.range), hcl]
  simp only [List.isEmpty_nil, Bool.not_true, Bool.false_eq_true, if_false]
  rw [← hx]

/-! ### Writing results -/

/-- The choir once the results of a voice instruction are written. -/
def putAll (s : Spec) (x : Ctx) (f : Nat → VRes1) (h : Choir) : Choir :=
  (x.actors.map fun v => (v, f v)).foldl (fun h r => h.putDst s x.w r.1 r.2.val r.2.poison) h

theorem foldl_congr_map {α β γ : Type} (l : List α) (g : α → γ) (f : β → γ → β) (b : β) :
    (l.map g).foldl f b = l.foldl (fun b a => f b (g a)) b := by
  induction l generalizing b with
  | nil => rfl
  | cons a l ih => simp [ih]

/-- A field that no register write touches. -/
theorem putAll_keeps {γ : Type} (g : Choir → γ) (hv : ∀ h r v a p, g (Choir.vset h r v a p) = g h)
    (hu : ∀ h r a p, g (Choir.uset h r a p) = g h) (s : Spec) (x : Ctx) (f : Nat → VRes1) (h : Choir) : g (putAll s x f h) = g h := by
  unfold putAll
  apply foldl_keeps
  intro b a
  unfold Choir.putDst
  split
  · exact foldl_keeps g _ (fun b i => hu b _ _ _) _ _
  · exact foldl_keeps g _ (fun b i => hv b _ _ _ _) _ _

theorem voiceOp_eq (d : Dev) (s : Spec) (x : Ctx) (f : Nat → VRes1) (hx : x.h = (d.core x.n).choir x.slot) :
    d.voiceOp s x f = d.onChoir x.n x.slot (fun _ =>
      { putAll s x f x.h with flags := (putAll s x f x.h).flags ||| orVoices x (fun v => (f v).flags),
                              pc := (putAll s x f x.h).pc + 16 }) := by
  unfold Dev.voiceOp Dev.advance
  simp only []
  rw [onChoir_onChoir, onChoir_const, ← hx]
  have : (x.actors.map fun v => (v, f v)).foldl (fun a r => a ||| r.2.flags) 0 = orVoices x fun v => (f v).flags := by
    rw [foldl_congr_map]; rfl
  rw [this]
  rfl

/-- What each voice reads after all results are written, in the voice file. -/
theorem putAll_vget (s : Spec) (x : Ctx) (f : Nat → VRes1) (h : Choir) (hu : iDu x.w = false) (r v : Nat) (hv : v < 32) :
    (putAll s x f h).vget r v =
      if v ∈ voicesOf x.ex ∧ iDst x.w ≤ r ∧ r < iDst x.w + s.d.parts then
        ((f v).val / 2 ^ (32 * (r - iDst x.w)) % 2 ^ 32, (f v).poison) else h.vget r v := by
  unfold putAll Ctx.actors
  rw [hu, foldl_congr_map]
  simp only [Bool.false_eq_true, if_false, Choir.putDst, hu]
  have hl : ∀ a ∈ voicesOf x.ex, a < 32 := fun a ha => ((mem_voicesOf _ _).1 ha).1
  generalize voicesOf x.ex = l at hl
  induction l generalizing h with
  | nil => simp
  | cons a l ih =>
    have ha := hl a (by simp)
    rw [List.foldl_cons, ih _ (fun b hb => hl b (by simp [hb])), vget_vputWide _ _ _ _ _ _ _ _ ha hv]
    by_cases h1 : v ∈ l ∧ iDst x.w ≤ r ∧ r < iDst x.w + s.d.parts
    · rw [if_pos h1, if_pos ⟨by simp [h1.1], h1.2⟩]
    · rw [if_neg h1]
      by_cases h2 : v = a ∧ iDst x.w ≤ r ∧ r < iDst x.w + s.d.parts
      · rw [if_pos h2, if_pos ⟨by simp [h2.1], h2.2⟩, h2.1]
      · rw [if_neg h2, if_neg]
        rintro ⟨hm, hr⟩
        rcases List.mem_cons.1 hm with hm | hm
        · exact h2 ⟨hm, hr⟩
        · exact h1 ⟨hm, hr⟩

/-- What the uniform file holds after the result of a uniform instruction is written. -/
theorem putAll_uget (s : Spec) (x : Ctx) (f : Nat → VRes1) (h : Choir) (hu : iDu x.w = true) (r : Nat) :
    (putAll s x f h).uget r =
      if iDst x.w ≤ r ∧ r < iDst x.w + s.d.parts then
        ((f 0).val / 2 ^ (32 * (r - iDst x.w)) % 2 ^ 32, (f 0).poison) else h.uget r := by
  unfold putAll Ctx.actors
  rw [hu]
  simp only [if_true, List.map_cons, List.map_nil, List.foldl_cons, List.foldl_nil, Choir.putDst, hu]
  rw [uget_uputWide]

theorem putAll_sameU (s : Spec) (x : Ctx) (f : Nat → VRes1) (h : Choir) (hu : iDu x.w = false) : sameU h (putAll s x f h) := by
  intro r
  unfold putAll
  apply foldl_keeps (fun h => Choir.uget h r)
  intro b a
  unfold Choir.putDst
  rw [hu, if_neg (by simp)]
  unfold Choir.vputWide
  exact foldl_keeps (fun h => Choir.uget h r) _ (fun b i => uget_vset b _ _ _ _ r) _ _

theorem putAll_sameV (s : Spec) (x : Ctx) (f : Nat → VRes1) (h : Choir) (hu : iDu x.w = true) : sameV h (putAll s x f h) := by
  intro r v
  unfold putAll
  apply foldl_keeps (fun h => Choir.vget h r v)
  intro b a
  unfold Choir.putDst
  rw [hu, if_pos rfl]
  unfold Choir.uputWide
  exact foldl_keeps (fun h => Choir.vget h r v) _ (fun b i => vget_uset b _ _ _ r v) _ _

/-- A value split into registers of 32 bits and put together again. -/
theorem parts_of_value (g : Nat → Nat) (n i x : Nat) (hg : ∀ k < n, g (i + k) = x / 2 ^ (32 * k) % 2 ^ 32) :
    partsOf g i n = x % 2 ^ (32 * n) := by
  induction n generalizing i x with
  | zero => simp [partsOf, Nat.mod_one]
  | succ n ih =>
    have h0 := hg 0 (by omega)
    have h1 : partsOf g (i + 1) n = x / 2 ^ 32 % 2 ^ (32 * n) := by
      apply ih
      intro k hk
      have := hg (k + 1) (by omega)
      rw [show i + 1 + k = i + (k + 1) by omega, this, Nat.div_div_eq_div_mul, ← Nat.pow_add]
      congr 3; omega
    simp only [partsOf, h1]
    simp only [Nat.add_zero, Nat.mul_zero, Nat.pow_zero, Nat.div_one] at h0
    rw [h0, show 32 * (n + 1) = 32 + 32 * n by omega, Nat.pow_add, Nat.mod_mul]
    ring

/-- An instruction whose result is a value for each voice writes it, truncated to its registers. -/
theorem voiceOp_writes (d : Dev) (s : Spec) (x : Ctx) (f : Nat → VRes1) (n : Nat) (hx : x.h = (d.core x.n).choir x.slot)
    (hs : s.d.parts = n) :
    Writes d x n (fun v => ((f v).val % 2 ^ (32 * n), (f v).poison)) (orVoices x fun v => (f v).flags) (d.voiceOp s x f) := by
  refine ⟨_, voiceOp_eq d s x f hx, ?_, ?_, ?_, ?_, ?_⟩
  · show (putAll s x f x.h).pc + 16 = _
    rw [putAll_keeps Choir.pc (fun _ _ _ _ _ => rfl) (fun _ _ _ _ => rfl)]
  · show (putAll s x f x.h).flags ||| _ = _
    rw [putAll_keeps Choir.flags (fun _ _ _ _ _ => rfl) (fun _ _ _ _ => rfl)]
  · refine ⟨?_, ?_, ?_, ?_, ?_, ?_, ?_⟩
    · exact putAll_keeps Choir.mask (fun _ _ _ _ _ => rfl) (fun _ _ _ _ => rfl) s x f x.h
    · exact putAll_keeps Choir.rpc (fun _ _ _ _ _ => rfl) (fun _ _ _ _ => rfl) s x f x.h
    · exact putAll_keeps Choir.dstack (fun _ _ _ _ _ => rfl) (fun _ _ _ _ => rfl) s x f x.h
    · exact putAll_keeps Choir.rstack (fun _ _ _ _ _ => rfl) (fun _ _ _ _ => rfl) s x f x.h
    · exact putAll_keeps Choir.fpctl (fun _ _ _ _ _ => rfl) (fun _ _ _ _ => rfl) s x f x.h
    · exact putAll_keeps Choir.wait (fun _ _ _ _ _ => rfl) (fun _ _ _ _ => rfl) s x f x.h
    · exact putAll_keeps Choir.load (fun _ _ _ _ _ => rfl) (fun _ _ _ _ => rfl) s x f x.h
  · intro i
    exact putAll_keeps (fun h => Choir.pred h i) (fun _ _ _ _ _ => rfl) (fun _ _ _ _ => rfl) s x f x.h
  · cases hu : iDu x.w with
    | true =>
      simp only [if_true]
      refine ⟨putAll_sameV s x f x.h hu, ?_, ?_, ?_⟩
      · apply parts_of_value
        intro k hk
        show ((putAll s x f x.h).uget _).1 = _
        rw [putAll_uget s x f x.h hu, if_pos (by omega)]
        simp
      · intro i hi
        show ((putAll s x f x.h).uget _).2 = _
        rw [putAll_uget s x f x.h hu, if_pos (by omega)]
      · intro r hr
        show (putAll s x f x.h).uget r = _
        rw [putAll_uget s x f x.h hu, if_neg (by omega)]
    | false =>
      simp only [Bool.false_eq_true, if_false]
      refine ⟨putAll_sameU s x f x.h hu, ?_, ?_⟩
      · intro v hv
        have hv32 := ((mem_voicesOf _ _).1 hv).1
        refine ⟨?_, ?_⟩
        · apply parts_of_value
          intro k hk
          show ((putAll s x f x.h).vget _ v).1 = _
          rw [putAll_vget s x f x.h hu _ _ hv32, if_pos ⟨hv, by omega, by omega⟩]
          simp
        · intro i hi
          show ((putAll s x f x.h).vget _ v).2 = _
          rw [putAll_vget s x f x.h hu _ _ hv32, if_pos ⟨hv, by omega, by omega⟩]
      · intro r v hv hr
        show (putAll s x f x.h).vget r v = _
        rw [putAll_vget s x f x.h hu _ _ hv, if_neg]
        rintro ⟨h1, h2, h3⟩
        rcases hr with hr | hr | hr
        · exact hr h1
        · omega
        · omega

/-! ### Operands -/

theorem foldl_parts (g : Nat → Nat × Bool) (r n : Nat) (a : Nat) (acc : Nat × Bool) :
    ((rangeFrom a n).foldl (fun acc i => (acc.1 + (g (r + i)).1 * 2 ^ (32 * i), acc.2 || (g (r + i)).2)) acc).1 =
      acc.1 + partsOf (fun i => (g i).1) (r + a) n * 2 ^ (32 * a) := by
  induction n generalizing a acc with
  | zero => simp [rangeFrom, partsOf]
  | succ n ih =>
    simp only [rangeFrom, List.foldl_cons, ih, partsOf]
    rw [show r + (a + 1) = r + a + 1 by omega, show 32 * (a + 1) = 32 + 32 * a by omega, Nat.pow_add]
    ring

/-- A value read from `n` registers. -/
theorem vwide_partsOf (h : Choir) (r v n : Nat) : (h.vwide r v n).1 = partsOf (fun i => (h.vget i v).1) r n := by
  have := foldl_parts (fun i => h.vget i v) r n 0 (0, false)
  simpa [Choir.vwide] using this

theorem uwide_partsOf (h : Choir) (r n : Nat) : (h.uwide r n).1 = partsOf (fun i => (h.uget i).1) r n := by
  have := foldl_parts (fun i => h.uget i) r n 0 (0, false)
  simpa [Choir.uwide] using this

theorem opA_srcA (s : Spec) (x : Ctx) (n v : Nat) (hs : s.a.parts = n) (ha : s.a ≠ .no) : (opA s x.h x.w v).1 = srcA x n v := by
  unfold opA srcA
  rw [if_neg ha, hs]
  split
  · rw [uwide_partsOf]
  · rw [vwide_partsOf]

theorem iImm_lt (w : Nat) : iImm w < 2 ^ 32 := Nat.mod_lt _ (by decide)

/-- A sign-extended immediate. -/
theorem sext32_parts (k i : Nat) (hi : i < 2 ^ 32) :
    sext32 (32 * (k + 1)) i = if 2 ^ 31 ≤ i then i + (2 ^ (32 * (k + 1 - 1)) - 1) * 2 ^ 32 else i := by
  have h1 : 1 ≤ 2 ^ (32 * k) := Nat.one_le_two_pow
  have hp : (2 ^ (32 * (k + 1)) : Nat) = 2 ^ (32 * k) * 4294967296 := by rw [Nat.mul_add, Nat.pow_add]
  unfold sext32 ofSigned toSigned
  rw [hp, Nat.add_sub_cancel, Nat.mod_eq_of_lt hi]
  generalize 2 ^ (32 * k) = q at h1
  by_cases hc : 2 ^ 31 ≤ i
  · rw [if_pos hc, if_neg (by omega)]
    have : ((i : Int) - ((2 ^ 32 : Nat) : Int)) % ((q * 4294967296 : Nat) : Int) =
        (i : Int) - ((2 ^ 32 : Nat) : Int) + ((q * 4294967296 : Nat) : Int) := by
      rw [← Int.add_emod_right]
      apply Int.emod_eq_of_lt <;> omega
    rw [this]
    omega
  · rw [if_neg hc, if_pos (by omega)]
    rw [Int.emod_eq_of_lt (by omega) (by omega)]
    rfl

theorem opB_srcB (s : Spec) (x : Ctx) (n v : Nat) (hs : s.b.parts = n) (hb : s.b ≠ .no) (hn : 1 ≤ n) :
    (opB s x.h x.w v).1 = srcB x n v := by
  have hl := iImm_lt x.w
  unfold opB srcB
  rw [if_neg hb, hs]
  by_cases hb : iBi x.w = true
  · rw [if_pos hb, if_pos hb]
    obtain ⟨k, rfl⟩ : ∃ k, n = k + 1 := ⟨n - 1, by omega⟩
    exact sext32_parts k _ hl
  · rw [if_neg hb, if_neg hb]
    split
    · rw [uwide_partsOf]
    · rw [vwide_partsOf]

theorem opC_srcC (s : Spec) (x : Ctx) (n v : Nat) (hs : s.c = .reg n) : (opC s x.h x.w v).1 = srcC x n v := by
  unfold opC srcC
  rw [hs]
  exact vwide_partsOf _ _ _ _

theorem vget_lt (h : Choir) (r v : Nat) : (h.vget r v).1 < 2 ^ 32 := Nat.mod_lt _ (by decide)
theorem uget_lt (h : Choir) (r : Nat) : (h.uget r).1 < 2 ^ 32 := Nat.mod_lt _ (by decide)

theorem partsOf_lt (g : Nat → Nat) (hg : ∀ i, g i < 2 ^ 32) (r n : Nat) : partsOf g r n < 2 ^ (32 * n) := by
  induction n generalizing r with
  | zero => simp [partsOf]
  | succ n ih =>
    have h0 := hg r
    have h1 := ih (r + 1)
    simp only [partsOf]
    rw [show 32 * (n + 1) = 32 * n + 32 by omega, Nat.pow_add]
    calc g r + partsOf g (r + 1) n * 2 ^ 32 < 2 ^ 32 + partsOf g (r + 1) n * 2 ^ 32 := by omega
      _ = (partsOf g (r + 1) n + 1) * 2 ^ 32 := by ring
      _ ≤ 2 ^ (32 * n) * 2 ^ 32 := Nat.mul_le_mul_right _ h1

theorem srcA_lt (x : Ctx) (n v : Nat) : srcA x n v < 2 ^ (32 * n) := by
  apply partsOf_lt
  intro i
  show (if _ then _ else _) < _
  split
  · exact uget_lt _ _
  · exact vget_lt _ _ _

theorem srcB_lt (x : Ctx) (n v : Nat) (hn : 1 ≤ n) : srcB x n v < 2 ^ (32 * n) := by
  have hi := iImm_lt x.w
  have hp : 2 ^ 32 ≤ 2 ^ (32 * n) := Nat.pow_le_pow_right (by decide) (by omega)
  unfold srcB
  split
  · split
    · obtain ⟨k, rfl⟩ : ∃ k, n = k + 1 := ⟨n - 1, by omega⟩
      have h1 : 1 ≤ 2 ^ (32 * k) := Nat.one_le_two_pow
      rw [Nat.add_sub_cancel, Nat.mul_add, Nat.pow_add, Nat.sub_mul]
      have : 2 ^ 32 ≤ 2 ^ (32 * k) * 2 ^ 32 := Nat.le_mul_of_pos_left _ h1
      omega
    · omega
  · apply partsOf_lt
    intro i
    show (if _ then _ else _) < _
    split
    · exact uget_lt _ _
    · exact vget_lt _ _ _

theorem srcC_lt (x : Ctx) (n v : Nat) : srcC x n v < 2 ^ (32 * n) := partsOf_lt _ (fun _ => vget_lt _ _ _) _ _

/-- The registers of an integer operand. -/
theorem intParts_cases (x : Ctx) : intParts x = 1 ∨ intParts x = 2 := by unfold intParts; split <;> simp

/-- The choir of an instruction that issues is the choir in its slot. -/
theorem issues_choir {s : State} {c : ChoirRef} {e : HwErr} {opc : Nat} {sp : Nat → Spec} {d : Dev} {x : Ctx} (h : Issues s c e opc sp d x) : x.h = (d.core x.n).choir x.slot := by
  rw [h.core_eq, h.slot_eq]; exact h.choir

theorem orVoices_zero (x : Ctx) : orVoices x (fun _ => 0) = 0 := by
  unfold orVoices
  generalize (if iDu x.w = true then [0] else voicesOf x.ex) = l
  induction l with
  | nil => rfl
  | cons a l ih => rw [List.foldl_cons, Nat.zero_or]; exact ih

theorem Writes_congr {d : Dev} {x : Ctx} {n : Nat} {val val' : Nat → Nat × Bool} {fl : Nat} {d' : Dev} (h : Writes d x n val fl d') (hv : ∀ v, val v = val' v) : Writes d x n val' fl d' := by
  rw [← funext hv]; exact h

end Sys2Proof.Machine
end

