-- ==== Sys2Proof/Laws/State.lean ====
section
/-! SUPPORT. Laws/State.lean: the parts of the state that each small change leaves alone, and what reading gives after a change. -/

namespace Sys2Proof.Machine

/-! ### What a command leaves of the state -/

@[simp] theorem run_eq (s : State) (f : Dev → Dev) : s.run f = .next { s with dev := f s.dev } := rfl
@[simp] theorem runIf_eq_true (s : State) (f : Dev → Dev) : s.runIf true f = .next { s with dev := f s.dev } := rfl
@[simp] theorem runIf_eq_false (s : State) (f : Dev → Dev) : s.runIf false f = .refused .illFormed := rfl

/-- A well-formed command answers what its effect makes of the device. -/
theorem runIf_next {s : State} {ok : Bool} (f : Dev → Dev) (h : ok = true) : s.runIf ok f = .next { s with dev := f s.dev } := by
  subst h; rfl

/-- A command never touches the queue. -/
theorem runIf_pending {s t : State} {ok : Bool} {f : Dev → Dev} (h : s.runIf ok f = .next t) : t.pending = s.pending := by
  cases ok with
  | false => simp [State.runIf] at h
  | true => simp [State.runIf, State.run] at h; rw [← h]

/-! ### The fields a change does not touch -/

@[simp] theorem Dev.oset_time (d : Dev) (k v : Nat) : (d.oset k v).time = d.time := rfl
@[simp] theorem Dev.oset_free (d : Dev) (k v : Nat) : (d.oset k v).free = d.free := rfl
@[simp] theorem Dev.oset_out (d : Dev) (k v : Nat) : (d.oset k v).out = d.out := rfl
@[simp] theorem Dev.oset_logs (d : Dev) (k v : Nat) : (d.oset k v).logs = d.logs := rfl
@[simp] theorem Dev.oset_tr (d : Dev) (k v : Nat) : (d.oset k v).tr = d.tr := rfl
@[simp] theorem Dev.oset_host (d : Dev) (k v : Nat) : (d.oset k v).host = d.host := rfl
@[simp] theorem Dev.oset_prec (d : Dev) (k v : Nat) : (d.oset k v).prec = d.prec := rfl
@[simp] theorem Dev.oset_mem (d : Dev) (k v : Nat) : (d.oset k v).mem = d.mem := rfl
@[simp] theorem Dev.oset_l2 (d : Dev) (k v : Nat) : (d.oset k v).l2 = d.l2 := rfl
@[simp] theorem Dev.oset_fab (d : Dev) (k v : Nat) : (d.oset k v).fab = d.fab := rfl
@[simp] theorem Dev.oset_dict (d : Dev) (k v : Nat) : (d.oset k v).dict = d.dict := rfl
@[simp] theorem Dev.oset_power (d : Dev) (k v : Nat) : (d.oset k v).power = d.power := rfl
@[simp] theorem Dev.oset_boot (d : Dev) (k v : Nat) : (d.oset k v).boot = d.boot := rfl
@[simp] theorem Dev.oset_clr (d : Dev) (k v : Nat) : (d.oset k v).clr = d.clr := rfl
@[simp] theorem Dev.oset_tray (d : Dev) (k v : Nat) : (d.oset k v).tray = d.tray := rfl
@[simp] theorem Dev.oset_life (d : Dev) (k v : Nat) : (d.oset k v).life = d.life := rfl
@[simp] theorem Dev.oset_pkg (d : Dev) (k v : Nat) : (d.oset k v).pkg = d.pkg := rfl
@[simp] theorem Dev.oset_nave (d : Dev) (k v : Nat) : (d.oset k v).nave = d.nave := rfl

@[simp] theorem Dev.oadd_time (d : Dev) (k n : Nat) : (d.oadd k n).time = d.time := rfl
@[simp] theorem Dev.oadd_free (d : Dev) (k n : Nat) : (d.oadd k n).free = d.free := rfl
@[simp] theorem Dev.oadd_out (d : Dev) (k n : Nat) : (d.oadd k n).out = d.out := rfl
@[simp] theorem Dev.oadd_logs (d : Dev) (k n : Nat) : (d.oadd k n).logs = d.logs := rfl
@[simp] theorem Dev.oadd_tr (d : Dev) (k n : Nat) : (d.oadd k n).tr = d.tr := rfl
@[simp] theorem Dev.oadd_host (d : Dev) (k n : Nat) : (d.oadd k n).host = d.host := rfl
@[simp] theorem Dev.oadd_prec (d : Dev) (k n : Nat) : (d.oadd k n).prec = d.prec := rfl
@[simp] theorem Dev.oadd_mem (d : Dev) (k n : Nat) : (d.oadd k n).mem = d.mem := rfl
@[simp] theorem Dev.oadd_l2 (d : Dev) (k n : Nat) : (d.oadd k n).l2 = d.l2 := rfl
@[simp] theorem Dev.oadd_fab (d : Dev) (k n : Nat) : (d.oadd k n).fab = d.fab := rfl
@[simp] theorem Dev.oadd_dict (d : Dev) (k n : Nat) : (d.oadd k n).dict = d.dict := rfl
@[simp] theorem Dev.oadd_power (d : Dev) (k n : Nat) : (d.oadd k n).power = d.power := rfl
@[simp] theorem Dev.oadd_boot (d : Dev) (k n : Nat) : (d.oadd k n).boot = d.boot := rfl
@[simp] theorem Dev.oadd_clr (d : Dev) (k n : Nat) : (d.oadd k n).clr = d.clr := rfl
@[simp] theorem Dev.oadd_tray (d : Dev) (k n : Nat) : (d.oadd k n).tray = d.tray := rfl
@[simp] theorem Dev.oadd_life (d : Dev) (k n : Nat) : (d.oadd k n).life = d.life := rfl
@[simp] theorem Dev.oadd_pkg (d : Dev) (k n : Nat) : (d.oadd k n).pkg = d.pkg := rfl
@[simp] theorem Dev.oadd_nave (d : Dev) (k n : Nat) : (d.oadd k n).nave = d.nave := rfl

@[simp] theorem Dev.oinc_time (d : Dev) (k : Nat) : (d.oinc k).time = d.time := rfl
@[simp] theorem Dev.oinc_free (d : Dev) (k : Nat) : (d.oinc k).free = d.free := rfl
@[simp] theorem Dev.oinc_out (d : Dev) (k : Nat) : (d.oinc k).out = d.out := rfl
@[simp] theorem Dev.oinc_logs (d : Dev) (k : Nat) : (d.oinc k).logs = d.logs := rfl
@[simp] theorem Dev.oinc_tr (d : Dev) (k : Nat) : (d.oinc k).tr = d.tr := rfl
@[simp] theorem Dev.oinc_host (d : Dev) (k : Nat) : (d.oinc k).host = d.host := rfl
@[simp] theorem Dev.oinc_prec (d : Dev) (k : Nat) : (d.oinc k).prec = d.prec := rfl
@[simp] theorem Dev.oinc_mem (d : Dev) (k : Nat) : (d.oinc k).mem = d.mem := rfl
@[simp] theorem Dev.oinc_l2 (d : Dev) (k : Nat) : (d.oinc k).l2 = d.l2 := rfl
@[simp] theorem Dev.oinc_fab (d : Dev) (k : Nat) : (d.oinc k).fab = d.fab := rfl
@[simp] theorem Dev.oinc_dict (d : Dev) (k : Nat) : (d.oinc k).dict = d.dict := rfl
@[simp] theorem Dev.oinc_power (d : Dev) (k : Nat) : (d.oinc k).power = d.power := rfl
@[simp] theorem Dev.oinc_boot (d : Dev) (k : Nat) : (d.oinc k).boot = d.boot := rfl
@[simp] theorem Dev.oinc_clr (d : Dev) (k : Nat) : (d.oinc k).clr = d.clr := rfl
@[simp] theorem Dev.oinc_tray (d : Dev) (k : Nat) : (d.oinc k).tray = d.tray := rfl
@[simp] theorem Dev.oinc_life (d : Dev) (k : Nat) : (d.oinc k).life = d.life := rfl
@[simp] theorem Dev.oinc_pkg (d : Dev) (k : Nat) : (d.oinc k).pkg = d.pkg := rfl
@[simp] theorem Dev.oinc_nave (d : Dev) (k : Nat) : (d.oinc k).nave = d.nave := rfl

@[simp] theorem Dev.freed_time (d : Dev) : (d.freed).time = d.time := rfl
@[simp] theorem Dev.freed_out (d : Dev) : (d.freed).out = d.out := rfl
@[simp] theorem Dev.freed_objs (d : Dev) : (d.freed).objs = d.objs := rfl
@[simp] theorem Dev.freed_logs (d : Dev) : (d.freed).logs = d.logs := rfl
@[simp] theorem Dev.freed_tr (d : Dev) : (d.freed).tr = d.tr := rfl
@[simp] theorem Dev.freed_host (d : Dev) : (d.freed).host = d.host := rfl
@[simp] theorem Dev.freed_prec (d : Dev) : (d.freed).prec = d.prec := rfl
@[simp] theorem Dev.freed_mem (d : Dev) : (d.freed).mem = d.mem := rfl
@[simp] theorem Dev.freed_l2 (d : Dev) : (d.freed).l2 = d.l2 := rfl
@[simp] theorem Dev.freed_fab (d : Dev) : (d.freed).fab = d.fab := rfl
@[simp] theorem Dev.freed_dict (d : Dev) : (d.freed).dict = d.dict := rfl
@[simp] theorem Dev.freed_power (d : Dev) : (d.freed).power = d.power := rfl
@[simp] theorem Dev.freed_boot (d : Dev) : (d.freed).boot = d.boot := rfl
@[simp] theorem Dev.freed_clr (d : Dev) : (d.freed).clr = d.clr := rfl
@[simp] theorem Dev.freed_tray (d : Dev) : (d.freed).tray = d.tray := rfl
@[simp] theorem Dev.freed_life (d : Dev) : (d.freed).life = d.life := rfl
@[simp] theorem Dev.freed_pkg (d : Dev) : (d.freed).pkg = d.pkg := rfl
@[simp] theorem Dev.freed_nave (d : Dev) : (d.freed).nave = d.nave := rfl

@[simp] theorem Dev.emit_time (d : Dev) (o : Out) : (d.emit o).time = d.time := rfl
@[simp] theorem Dev.emit_free (d : Dev) (o : Out) : (d.emit o).free = d.free := rfl
@[simp] theorem Dev.emit_objs (d : Dev) (o : Out) : (d.emit o).objs = d.objs := rfl
@[simp] theorem Dev.emit_logs (d : Dev) (o : Out) : (d.emit o).logs = d.logs := rfl
@[simp] theorem Dev.emit_tr (d : Dev) (o : Out) : (d.emit o).tr = d.tr := rfl
@[simp] theorem Dev.emit_host (d : Dev) (o : Out) : (d.emit o).host = d.host := rfl
@[simp] theorem Dev.emit_prec (d : Dev) (o : Out) : (d.emit o).prec = d.prec := rfl
@[simp] theorem Dev.emit_mem (d : Dev) (o : Out) : (d.emit o).mem = d.mem := rfl
@[simp] theorem Dev.emit_l2 (d : Dev) (o : Out) : (d.emit o).l2 = d.l2 := rfl
@[simp] theorem Dev.emit_fab (d : Dev) (o : Out) : (d.emit o).fab = d.fab := rfl
@[simp] theorem Dev.emit_dict (d : Dev) (o : Out) : (d.emit o).dict = d.dict := rfl
@[simp] theorem Dev.emit_power (d : Dev) (o : Out) : (d.emit o).power = d.power := rfl
@[simp] theorem Dev.emit_boot (d : Dev) (o : Out) : (d.emit o).boot = d.boot := rfl
@[simp] theorem Dev.emit_clr (d : Dev) (o : Out) : (d.emit o).clr = d.clr := rfl
@[simp] theorem Dev.emit_tray (d : Dev) (o : Out) : (d.emit o).tray = d.tray := rfl
@[simp] theorem Dev.emit_life (d : Dev) (o : Out) : (d.emit o).life = d.life := rfl
@[simp] theorem Dev.emit_pkg (d : Dev) (o : Out) : (d.emit o).pkg = d.pkg := rfl
@[simp] theorem Dev.emit_nave (d : Dev) (o : Out) : (d.emit o).nave = d.nave := rfl

@[simp] theorem Dev.count_time (d : Dev) (b u w n : Nat) : (d.count b u w n).time = d.time := rfl
@[simp] theorem Dev.count_free (d : Dev) (b u w n : Nat) : (d.count b u w n).free = d.free := rfl
@[simp] theorem Dev.count_out (d : Dev) (b u w n : Nat) : (d.count b u w n).out = d.out := rfl
@[simp] theorem Dev.count_objs (d : Dev) (b u w n : Nat) : (d.count b u w n).objs = d.objs := rfl
@[simp] theorem Dev.count_logs (d : Dev) (b u w n : Nat) : (d.count b u w n).logs = d.logs := rfl
@[simp] theorem Dev.count_tr (d : Dev) (b u w n : Nat) : (d.count b u w n).tr = d.tr := rfl
@[simp] theorem Dev.count_host (d : Dev) (b u w n : Nat) : (d.count b u w n).host = d.host := rfl
@[simp] theorem Dev.count_prec (d : Dev) (b u w n : Nat) : (d.count b u w n).prec = d.prec := rfl
@[simp] theorem Dev.count_mem (d : Dev) (b u w n : Nat) : (d.count b u w n).mem = d.mem := rfl
@[simp] theorem Dev.count_l2 (d : Dev) (b u w n : Nat) : (d.count b u w n).l2 = d.l2 := rfl
@[simp] theorem Dev.count_fab (d : Dev) (b u w n : Nat) : (d.count b u w n).fab = d.fab := rfl
@[simp] theorem Dev.count_dict (d : Dev) (b u w n : Nat) : (d.count b u w n).dict = d.dict := rfl
@[simp] theorem Dev.count_power (d : Dev) (b u w n : Nat) : (d.count b u w n).power = d.power := rfl
@[simp] theorem Dev.count_boot (d : Dev) (b u w n : Nat) : (d.count b u w n).boot = d.boot := rfl
@[simp] theorem Dev.count_tray (d : Dev) (b u w n : Nat) : (d.count b u w n).tray = d.tray := rfl
@[simp] theorem Dev.count_life (d : Dev) (b u w n : Nat) : (d.count b u w n).life = d.life := rfl
@[simp] theorem Dev.count_pkg (d : Dev) (b u w n : Nat) : (d.count b u w n).pkg = d.pkg := rfl
@[simp] theorem Dev.count_nave (d : Dev) (b u w n : Nat) : (d.count b u w n).nave = d.nave := rfl

@[simp] theorem Dev.setFunc_time (d : Dev) (i : Nat) (f : Func) : (d.setFunc i f).time = d.time := rfl
@[simp] theorem Dev.setFunc_free (d : Dev) (i : Nat) (f : Func) : (d.setFunc i f).free = d.free := rfl
@[simp] theorem Dev.setFunc_out (d : Dev) (i : Nat) (f : Func) : (d.setFunc i f).out = d.out := rfl
@[simp] theorem Dev.setFunc_objs (d : Dev) (i : Nat) (f : Func) : (d.setFunc i f).objs = d.objs := rfl
@[simp] theorem Dev.setFunc_logs (d : Dev) (i : Nat) (f : Func) : (d.setFunc i f).logs = d.logs := rfl
@[simp] theorem Dev.setFunc_tr (d : Dev) (i : Nat) (f : Func) : (d.setFunc i f).tr = d.tr := rfl
@[simp] theorem Dev.setFunc_prec (d : Dev) (i : Nat) (f : Func) : (d.setFunc i f).prec = d.prec := rfl
@[simp] theorem Dev.setFunc_mem (d : Dev) (i : Nat) (f : Func) : (d.setFunc i f).mem = d.mem := rfl
@[simp] theorem Dev.setFunc_l2 (d : Dev) (i : Nat) (f : Func) : (d.setFunc i f).l2 = d.l2 := rfl
@[simp] theorem Dev.setFunc_fab (d : Dev) (i : Nat) (f : Func) : (d.setFunc i f).fab = d.fab := rfl
@[simp] theorem Dev.setFunc_dict (d : Dev) (i : Nat) (f : Func) : (d.setFunc i f).dict = d.dict := rfl
@[simp] theorem Dev.setFunc_power (d : Dev) (i : Nat) (f : Func) : (d.setFunc i f).power = d.power := rfl
@[simp] theorem Dev.setFunc_boot (d : Dev) (i : Nat) (f : Func) : (d.setFunc i f).boot = d.boot := rfl
@[simp] theorem Dev.setFunc_clr (d : Dev) (i : Nat) (f : Func) : (d.setFunc i f).clr = d.clr := rfl
@[simp] theorem Dev.setFunc_tray (d : Dev) (i : Nat) (f : Func) : (d.setFunc i f).tray = d.tray := rfl
@[simp] theorem Dev.setFunc_life (d : Dev) (i : Nat) (f : Func) : (d.setFunc i f).life = d.life := rfl
@[simp] theorem Dev.setFunc_pkg (d : Dev) (i : Nat) (f : Func) : (d.setFunc i f).pkg = d.pkg := rfl
@[simp] theorem Dev.setFunc_nave (d : Dev) (i : Nat) (f : Func) : (d.setFunc i f).nave = d.nave := rfl

/-- Reporting an error through AER touches no more than the host port's records and what leaves the device. -/
theorem Dev.aer_rest (d : Dev) (i e : Nat) (h : Option TlpHeader) : ∃ x o, d.aer i e h = { d with host := x, out := o } := by
  unfold Dev.aer
  dsimp only
  split
  · exact ⟨_, _, rfl⟩
  · cases h with
    | none => exact ⟨_, _, rfl⟩
    | some _ => dsimp only; split <;> exact ⟨_, _, rfl⟩

@[simp] theorem Dev.aer_time (d : Dev) (i e : Nat) (h : Option TlpHeader) : (d.aer i e h).time = d.time := by obtain ⟨x, o, hx⟩ := d.aer_rest i e h; rw [hx]
@[simp] theorem Dev.aer_free (d : Dev) (i e : Nat) (h : Option TlpHeader) : (d.aer i e h).free = d.free := by obtain ⟨x, o, hx⟩ := d.aer_rest i e h; rw [hx]
@[simp] theorem Dev.aer_objs (d : Dev) (i e : Nat) (h : Option TlpHeader) : (d.aer i e h).objs = d.objs := by obtain ⟨x, o, hx⟩ := d.aer_rest i e h; rw [hx]
@[simp] theorem Dev.aer_logs (d : Dev) (i e : Nat) (h : Option TlpHeader) : (d.aer i e h).logs = d.logs := by obtain ⟨x, o, hx⟩ := d.aer_rest i e h; rw [hx]
@[simp] theorem Dev.aer_tr (d : Dev) (i e : Nat) (h : Option TlpHeader) : (d.aer i e h).tr = d.tr := by obtain ⟨x, o, hx⟩ := d.aer_rest i e h; rw [hx]
@[simp] theorem Dev.aer_prec (d : Dev) (i e : Nat) (h : Option TlpHeader) : (d.aer i e h).prec = d.prec := by obtain ⟨x, o, hx⟩ := d.aer_rest i e h; rw [hx]
@[simp] theorem Dev.aer_mem (d : Dev) (i e : Nat) (h : Option TlpHeader) : (d.aer i e h).mem = d.mem := by obtain ⟨x, o, hx⟩ := d.aer_rest i e h; rw [hx]
@[simp] theorem Dev.aer_l2 (d : Dev) (i e : Nat) (h : Option TlpHeader) : (d.aer i e h).l2 = d.l2 := by obtain ⟨x, o, hx⟩ := d.aer_rest i e h; rw [hx]
@[simp] theorem Dev.aer_fab (d : Dev) (i e : Nat) (h : Option TlpHeader) : (d.aer i e h).fab = d.fab := by obtain ⟨x, o, hx⟩ := d.aer_rest i e h; rw [hx]
@[simp] theorem Dev.aer_dict (d : Dev) (i e : Nat) (h : Option TlpHeader) : (d.aer i e h).dict = d.dict := by obtain ⟨x, o, hx⟩ := d.aer_rest i e h; rw [hx]
@[simp] theorem Dev.aer_power (d : Dev) (i e : Nat) (h : Option TlpHeader) : (d.aer i e h).power = d.power := by obtain ⟨x, o, hx⟩ := d.aer_rest i e h; rw [hx]
@[simp] theorem Dev.aer_boot (d : Dev) (i e : Nat) (h : Option TlpHeader) : (d.aer i e h).boot = d.boot := by obtain ⟨x, o, hx⟩ := d.aer_rest i e h; rw [hx]
@[simp] theorem Dev.aer_clr (d : Dev) (i e : Nat) (h : Option TlpHeader) : (d.aer i e h).clr = d.clr := by obtain ⟨x, o, hx⟩ := d.aer_rest i e h; rw [hx]
@[simp] theorem Dev.aer_tray (d : Dev) (i e : Nat) (h : Option TlpHeader) : (d.aer i e h).tray = d.tray := by obtain ⟨x, o, hx⟩ := d.aer_rest i e h; rw [hx]
@[simp] theorem Dev.aer_life (d : Dev) (i e : Nat) (h : Option TlpHeader) : (d.aer i e h).life = d.life := by obtain ⟨x, o, hx⟩ := d.aer_rest i e h; rw [hx]
@[simp] theorem Dev.aer_pkg (d : Dev) (i e : Nat) (h : Option TlpHeader) : (d.aer i e h).pkg = d.pkg := by obtain ⟨x, o, hx⟩ := d.aer_rest i e h; rw [hx]
@[simp] theorem Dev.aer_nave (d : Dev) (i e : Nat) (h : Option TlpHeader) : (d.aer i e h).nave = d.nave := by obtain ⟨x, o, hx⟩ := d.aer_rest i e h; rw [hx]

@[simp] theorem Dev.writeLog_time (d : Dev) (i : Nat) (e : LogEntry) : (d.writeLog i e).time = d.time := rfl
@[simp] theorem Dev.writeLog_free (d : Dev) (i : Nat) (e : LogEntry) : (d.writeLog i e).free = d.free := rfl
@[simp] theorem Dev.writeLog_out (d : Dev) (i : Nat) (e : LogEntry) : (d.writeLog i e).out = d.out := rfl
@[simp] theorem Dev.writeLog_objs (d : Dev) (i : Nat) (e : LogEntry) : (d.writeLog i e).objs = d.objs := rfl
@[simp] theorem Dev.writeLog_tr (d : Dev) (i : Nat) (e : LogEntry) : (d.writeLog i e).tr = d.tr := rfl
@[simp] theorem Dev.writeLog_host (d : Dev) (i : Nat) (e : LogEntry) : (d.writeLog i e).host = d.host := rfl
@[simp] theorem Dev.writeLog_prec (d : Dev) (i : Nat) (e : LogEntry) : (d.writeLog i e).prec = d.prec := rfl
@[simp] theorem Dev.writeLog_mem (d : Dev) (i : Nat) (e : LogEntry) : (d.writeLog i e).mem = d.mem := rfl
@[simp] theorem Dev.writeLog_l2 (d : Dev) (i : Nat) (e : LogEntry) : (d.writeLog i e).l2 = d.l2 := rfl
@[simp] theorem Dev.writeLog_fab (d : Dev) (i : Nat) (e : LogEntry) : (d.writeLog i e).fab = d.fab := rfl
@[simp] theorem Dev.writeLog_dict (d : Dev) (i : Nat) (e : LogEntry) : (d.writeLog i e).dict = d.dict := rfl
@[simp] theorem Dev.writeLog_power (d : Dev) (i : Nat) (e : LogEntry) : (d.writeLog i e).power = d.power := rfl
@[simp] theorem Dev.writeLog_boot (d : Dev) (i : Nat) (e : LogEntry) : (d.writeLog i e).boot = d.boot := rfl
@[simp] theorem Dev.writeLog_clr (d : Dev) (i : Nat) (e : LogEntry) : (d.writeLog i e).clr = d.clr := rfl
@[simp] theorem Dev.writeLog_tray (d : Dev) (i : Nat) (e : LogEntry) : (d.writeLog i e).tray = d.tray := rfl
@[simp] theorem Dev.writeLog_life (d : Dev) (i : Nat) (e : LogEntry) : (d.writeLog i e).life = d.life := rfl
@[simp] theorem Dev.writeLog_pkg (d : Dev) (i : Nat) (e : LogEntry) : (d.writeLog i e).pkg = d.pkg := rfl
@[simp] theorem Dev.writeLog_nave (d : Dev) (i : Nat) (e : LogEntry) : (d.writeLog i e).nave = d.nave := rfl

@[simp] theorem Dev.logNote_time (d : Dev) (a b c e : Nat) : (d.logNote a b c e).time = d.time := rfl
@[simp] theorem Dev.logNote_free (d : Dev) (a b c e : Nat) : (d.logNote a b c e).free = d.free := rfl
@[simp] theorem Dev.logNote_out (d : Dev) (a b c e : Nat) : (d.logNote a b c e).out = d.out := rfl
@[simp] theorem Dev.logNote_objs (d : Dev) (a b c e : Nat) : (d.logNote a b c e).objs = d.objs := rfl
@[simp] theorem Dev.logNote_tr (d : Dev) (a b c e : Nat) : (d.logNote a b c e).tr = d.tr := rfl
@[simp] theorem Dev.logNote_host (d : Dev) (a b c e : Nat) : (d.logNote a b c e).host = d.host := rfl
@[simp] theorem Dev.logNote_prec (d : Dev) (a b c e : Nat) : (d.logNote a b c e).prec = d.prec := rfl
@[simp] theorem Dev.logNote_mem (d : Dev) (a b c e : Nat) : (d.logNote a b c e).mem = d.mem := rfl
@[simp] theorem Dev.logNote_l2 (d : Dev) (a b c e : Nat) : (d.logNote a b c e).l2 = d.l2 := rfl
@[simp] theorem Dev.logNote_fab (d : Dev) (a b c e : Nat) : (d.logNote a b c e).fab = d.fab := rfl
@[simp] theorem Dev.logNote_dict (d : Dev) (a b c e : Nat) : (d.logNote a b c e).dict = d.dict := rfl
@[simp] theorem Dev.logNote_power (d : Dev) (a b c e : Nat) : (d.logNote a b c e).power = d.power := rfl
@[simp] theorem Dev.logNote_boot (d : Dev) (a b c e : Nat) : (d.logNote a b c e).boot = d.boot := rfl
@[simp] theorem Dev.logNote_clr (d : Dev) (a b c e : Nat) : (d.logNote a b c e).clr = d.clr := rfl
@[simp] theorem Dev.logNote_tray (d : Dev) (a b c e : Nat) : (d.logNote a b c e).tray = d.tray := rfl
@[simp] theorem Dev.logNote_life (d : Dev) (a b c e : Nat) : (d.logNote a b c e).life = d.life := rfl
@[simp] theorem Dev.logNote_pkg (d : Dev) (a b c e : Nat) : (d.logNote a b c e).pkg = d.pkg := rfl
@[simp] theorem Dev.logNote_nave (d : Dev) (a b c e : Nat) : (d.logNote a b c e).nave = d.nave := rfl

@[simp] theorem Dev.onSlot_time (d : Dev) (n : Nat) (f : Slot → Slot) : (d.onSlot n f).time = d.time := rfl
@[simp] theorem Dev.onSlot_free (d : Dev) (n : Nat) (f : Slot → Slot) : (d.onSlot n f).free = d.free := rfl
@[simp] theorem Dev.onSlot_out (d : Dev) (n : Nat) (f : Slot → Slot) : (d.onSlot n f).out = d.out := rfl
@[simp] theorem Dev.onSlot_objs (d : Dev) (n : Nat) (f : Slot → Slot) : (d.onSlot n f).objs = d.objs := rfl
@[simp] theorem Dev.onSlot_logs (d : Dev) (n : Nat) (f : Slot → Slot) : (d.onSlot n f).logs = d.logs := rfl
@[simp] theorem Dev.onSlot_tr (d : Dev) (n : Nat) (f : Slot → Slot) : (d.onSlot n f).tr = d.tr := rfl
@[simp] theorem Dev.onSlot_host (d : Dev) (n : Nat) (f : Slot → Slot) : (d.onSlot n f).host = d.host := rfl
@[simp] theorem Dev.onSlot_prec (d : Dev) (n : Nat) (f : Slot → Slot) : (d.onSlot n f).prec = d.prec := rfl
@[simp] theorem Dev.onSlot_mem (d : Dev) (n : Nat) (f : Slot → Slot) : (d.onSlot n f).mem = d.mem := rfl
@[simp] theorem Dev.onSlot_l2 (d : Dev) (n : Nat) (f : Slot → Slot) : (d.onSlot n f).l2 = d.l2 := rfl
@[simp] theorem Dev.onSlot_fab (d : Dev) (n : Nat) (f : Slot → Slot) : (d.onSlot n f).fab = d.fab := rfl
@[simp] theorem Dev.onSlot_dict (d : Dev) (n : Nat) (f : Slot → Slot) : (d.onSlot n f).dict = d.dict := rfl
@[simp] theorem Dev.onSlot_power (d : Dev) (n : Nat) (f : Slot → Slot) : (d.onSlot n f).power = d.power := rfl
@[simp] theorem Dev.onSlot_boot (d : Dev) (n : Nat) (f : Slot → Slot) : (d.onSlot n f).boot = d.boot := rfl
@[simp] theorem Dev.onSlot_clr (d : Dev) (n : Nat) (f : Slot → Slot) : (d.onSlot n f).clr = d.clr := rfl
@[simp] theorem Dev.onSlot_life (d : Dev) (n : Nat) (f : Slot → Slot) : (d.onSlot n f).life = d.life := rfl
@[simp] theorem Dev.onSlot_pkg (d : Dev) (n : Nat) (f : Slot → Slot) : (d.onSlot n f).pkg = d.pkg := rfl
@[simp] theorem Dev.onSlot_nave (d : Dev) (n : Nat) (f : Slot → Slot) : (d.onSlot n f).nave = d.nave := rfl

@[simp] theorem Dev.trayEvent_time (d : Dev) (a b c e : Nat) : (d.trayEvent a b c e).time = d.time := rfl
@[simp] theorem Dev.trayEvent_free (d : Dev) (a b c e : Nat) : (d.trayEvent a b c e).free = d.free := rfl
@[simp] theorem Dev.trayEvent_out (d : Dev) (a b c e : Nat) : (d.trayEvent a b c e).out = d.out := rfl
@[simp] theorem Dev.trayEvent_objs (d : Dev) (a b c e : Nat) : (d.trayEvent a b c e).objs = d.objs := rfl
@[simp] theorem Dev.trayEvent_logs (d : Dev) (a b c e : Nat) : (d.trayEvent a b c e).logs = d.logs := rfl
@[simp] theorem Dev.trayEvent_tr (d : Dev) (a b c e : Nat) : (d.trayEvent a b c e).tr = d.tr := rfl
@[simp] theorem Dev.trayEvent_host (d : Dev) (a b c e : Nat) : (d.trayEvent a b c e).host = d.host := rfl
@[simp] theorem Dev.trayEvent_prec (d : Dev) (a b c e : Nat) : (d.trayEvent a b c e).prec = d.prec := rfl
@[simp] theorem Dev.trayEvent_mem (d : Dev) (a b c e : Nat) : (d.trayEvent a b c e).mem = d.mem := rfl
@[simp] theorem Dev.trayEvent_l2 (d : Dev) (a b c e : Nat) : (d.trayEvent a b c e).l2 = d.l2 := rfl
@[simp] theorem Dev.trayEvent_fab (d : Dev) (a b c e : Nat) : (d.trayEvent a b c e).fab = d.fab := rfl
@[simp] theorem Dev.trayEvent_dict (d : Dev) (a b c e : Nat) : (d.trayEvent a b c e).dict = d.dict := rfl
@[simp] theorem Dev.trayEvent_power (d : Dev) (a b c e : Nat) : (d.trayEvent a b c e).power = d.power := rfl
@[simp] theorem Dev.trayEvent_boot (d : Dev) (a b c e : Nat) : (d.trayEvent a b c e).boot = d.boot := rfl
@[simp] theorem Dev.trayEvent_clr (d : Dev) (a b c e : Nat) : (d.trayEvent a b c e).clr = d.clr := rfl
@[simp] theorem Dev.trayEvent_life (d : Dev) (a b c e : Nat) : (d.trayEvent a b c e).life = d.life := rfl
@[simp] theorem Dev.trayEvent_pkg (d : Dev) (a b c e : Nat) : (d.trayEvent a b c e).pkg = d.pkg := rfl
@[simp] theorem Dev.trayEvent_nave (d : Dev) (a b c e : Nat) : (d.trayEvent a b c e).nave = d.nave := rfl

@[simp] theorem Dev.setCore_time (d : Dev) (n : Nat) (c : Core) : (d.setCore n c).time = d.time := rfl
@[simp] theorem Dev.setCore_free (d : Dev) (n : Nat) (c : Core) : (d.setCore n c).free = d.free := rfl
@[simp] theorem Dev.setCore_out (d : Dev) (n : Nat) (c : Core) : (d.setCore n c).out = d.out := rfl
@[simp] theorem Dev.setCore_objs (d : Dev) (n : Nat) (c : Core) : (d.setCore n c).objs = d.objs := rfl
@[simp] theorem Dev.setCore_logs (d : Dev) (n : Nat) (c : Core) : (d.setCore n c).logs = d.logs := rfl
@[simp] theorem Dev.setCore_tr (d : Dev) (n : Nat) (c : Core) : (d.setCore n c).tr = d.tr := rfl
@[simp] theorem Dev.setCore_host (d : Dev) (n : Nat) (c : Core) : (d.setCore n c).host = d.host := rfl
@[simp] theorem Dev.setCore_prec (d : Dev) (n : Nat) (c : Core) : (d.setCore n c).prec = d.prec := rfl
@[simp] theorem Dev.setCore_mem (d : Dev) (n : Nat) (c : Core) : (d.setCore n c).mem = d.mem := rfl
@[simp] theorem Dev.setCore_l2 (d : Dev) (n : Nat) (c : Core) : (d.setCore n c).l2 = d.l2 := rfl
@[simp] theorem Dev.setCore_fab (d : Dev) (n : Nat) (c : Core) : (d.setCore n c).fab = d.fab := rfl
@[simp] theorem Dev.setCore_dict (d : Dev) (n : Nat) (c : Core) : (d.setCore n c).dict = d.dict := rfl
@[simp] theorem Dev.setCore_power (d : Dev) (n : Nat) (c : Core) : (d.setCore n c).power = d.power := rfl
@[simp] theorem Dev.setCore_boot (d : Dev) (n : Nat) (c : Core) : (d.setCore n c).boot = d.boot := rfl
@[simp] theorem Dev.setCore_clr (d : Dev) (n : Nat) (c : Core) : (d.setCore n c).clr = d.clr := rfl
@[simp] theorem Dev.setCore_tray (d : Dev) (n : Nat) (c : Core) : (d.setCore n c).tray = d.tray := rfl
@[simp] theorem Dev.setCore_life (d : Dev) (n : Nat) (c : Core) : (d.setCore n c).life = d.life := rfl
@[simp] theorem Dev.setCore_pkg (d : Dev) (n : Nat) (c : Core) : (d.setCore n c).pkg = d.pkg := rfl

@[simp] theorem Dev.onCore_time (d : Dev) (n : Nat) (f : Core → Core) : (d.onCore n f).time = d.time := rfl
@[simp] theorem Dev.onCore_free (d : Dev) (n : Nat) (f : Core → Core) : (d.onCore n f).free = d.free := rfl
@[simp] theorem Dev.onCore_out (d : Dev) (n : Nat) (f : Core → Core) : (d.onCore n f).out = d.out := rfl
@[simp] theorem Dev.onCore_objs (d : Dev) (n : Nat) (f : Core → Core) : (d.onCore n f).objs = d.objs := rfl
@[simp] theorem Dev.onCore_logs (d : Dev) (n : Nat) (f : Core → Core) : (d.onCore n f).logs = d.logs := rfl
@[simp] theorem Dev.onCore_tr (d : Dev) (n : Nat) (f : Core → Core) : (d.onCore n f).tr = d.tr := rfl
@[simp] theorem Dev.onCore_host (d : Dev) (n : Nat) (f : Core → Core) : (d.onCore n f).host = d.host := rfl
@[simp] theorem Dev.onCore_prec (d : Dev) (n : Nat) (f : Core → Core) : (d.onCore n f).prec = d.prec := rfl
@[simp] theorem Dev.onCore_mem (d : Dev) (n : Nat) (f : Core → Core) : (d.onCore n f).mem = d.mem := rfl
@[simp] theorem Dev.onCore_l2 (d : Dev) (n : Nat) (f : Core → Core) : (d.onCore n f).l2 = d.l2 := rfl
@[simp] theorem Dev.onCore_fab (d : Dev) (n : Nat) (f : Core → Core) : (d.onCore n f).fab = d.fab := rfl
@[simp] theorem Dev.onCore_dict (d : Dev) (n : Nat) (f : Core → Core) : (d.onCore n f).dict = d.dict := rfl
@[simp] theorem Dev.onCore_power (d : Dev) (n : Nat) (f : Core → Core) : (d.onCore n f).power = d.power := rfl
@[simp] theorem Dev.onCore_boot (d : Dev) (n : Nat) (f : Core → Core) : (d.onCore n f).boot = d.boot := rfl
@[simp] theorem Dev.onCore_clr (d : Dev) (n : Nat) (f : Core → Core) : (d.onCore n f).clr = d.clr := rfl
@[simp] theorem Dev.onCore_tray (d : Dev) (n : Nat) (f : Core → Core) : (d.onCore n f).tray = d.tray := rfl
@[simp] theorem Dev.onCore_life (d : Dev) (n : Nat) (f : Core → Core) : (d.onCore n f).life = d.life := rfl
@[simp] theorem Dev.onCore_pkg (d : Dev) (n : Nat) (f : Core → Core) : (d.onCore n f).pkg = d.pkg := rfl

@[simp] theorem Dev.onChoir_time (d : Dev) (n i : Nat) (f : Choir → Choir) : (d.onChoir n i f).time = d.time := rfl
@[simp] theorem Dev.onChoir_free (d : Dev) (n i : Nat) (f : Choir → Choir) : (d.onChoir n i f).free = d.free := rfl
@[simp] theorem Dev.onChoir_out (d : Dev) (n i : Nat) (f : Choir → Choir) : (d.onChoir n i f).out = d.out := rfl
@[simp] theorem Dev.onChoir_objs (d : Dev) (n i : Nat) (f : Choir → Choir) : (d.onChoir n i f).objs = d.objs := rfl
@[simp] theorem Dev.onChoir_logs (d : Dev) (n i : Nat) (f : Choir → Choir) : (d.onChoir n i f).logs = d.logs := rfl
@[simp] theorem Dev.onChoir_tr (d : Dev) (n i : Nat) (f : Choir → Choir) : (d.onChoir n i f).tr = d.tr := rfl
@[simp] theorem Dev.onChoir_host (d : Dev) (n i : Nat) (f : Choir → Choir) : (d.onChoir n i f).host = d.host := rfl
@[simp] theorem Dev.onChoir_prec (d : Dev) (n i : Nat) (f : Choir → Choir) : (d.onChoir n i f).prec = d.prec := rfl
@[simp] theorem Dev.onChoir_mem (d : Dev) (n i : Nat) (f : Choir → Choir) : (d.onChoir n i f).mem = d.mem := rfl
@[simp] theorem Dev.onChoir_l2 (d : Dev) (n i : Nat) (f : Choir → Choir) : (d.onChoir n i f).l2 = d.l2 := rfl
@[simp] theorem Dev.onChoir_fab (d : Dev) (n i : Nat) (f : Choir → Choir) : (d.onChoir n i f).fab = d.fab := rfl
@[simp] theorem Dev.onChoir_dict (d : Dev) (n i : Nat) (f : Choir → Choir) : (d.onChoir n i f).dict = d.dict := rfl
@[simp] theorem Dev.onChoir_power (d : Dev) (n i : Nat) (f : Choir → Choir) : (d.onChoir n i f).power = d.power := rfl
@[simp] theorem Dev.onChoir_boot (d : Dev) (n i : Nat) (f : Choir → Choir) : (d.onChoir n i f).boot = d.boot := rfl
@[simp] theorem Dev.onChoir_clr (d : Dev) (n i : Nat) (f : Choir → Choir) : (d.onChoir n i f).clr = d.clr := rfl
@[simp] theorem Dev.onChoir_tray (d : Dev) (n i : Nat) (f : Choir → Choir) : (d.onChoir n i f).tray = d.tray := rfl
@[simp] theorem Dev.onChoir_life (d : Dev) (n i : Nat) (f : Choir → Choir) : (d.onChoir n i f).life = d.life := rfl
@[simp] theorem Dev.onChoir_pkg (d : Dev) (n i : Nat) (f : Choir → Choir) : (d.onChoir n i f).pkg = d.pkg := rfl

@[simp] theorem Dev.setStream_time (d : Dev) (n i : Nat) (x : Stream) : (d.setStream n i x).time = d.time := rfl
@[simp] theorem Dev.setStream_free (d : Dev) (n i : Nat) (x : Stream) : (d.setStream n i x).free = d.free := rfl
@[simp] theorem Dev.setStream_out (d : Dev) (n i : Nat) (x : Stream) : (d.setStream n i x).out = d.out := rfl
@[simp] theorem Dev.setStream_objs (d : Dev) (n i : Nat) (x : Stream) : (d.setStream n i x).objs = d.objs := rfl
@[simp] theorem Dev.setStream_logs (d : Dev) (n i : Nat) (x : Stream) : (d.setStream n i x).logs = d.logs := rfl
@[simp] theorem Dev.setStream_tr (d : Dev) (n i : Nat) (x : Stream) : (d.setStream n i x).tr = d.tr := rfl
@[simp] theorem Dev.setStream_host (d : Dev) (n i : Nat) (x : Stream) : (d.setStream n i x).host = d.host := rfl
@[simp] theorem Dev.setStream_prec (d : Dev) (n i : Nat) (x : Stream) : (d.setStream n i x).prec = d.prec := rfl
@[simp] theorem Dev.setStream_mem (d : Dev) (n i : Nat) (x : Stream) : (d.setStream n i x).mem = d.mem := rfl
@[simp] theorem Dev.setStream_l2 (d : Dev) (n i : Nat) (x : Stream) : (d.setStream n i x).l2 = d.l2 := rfl
@[simp] theorem Dev.setStream_fab (d : Dev) (n i : Nat) (x : Stream) : (d.setStream n i x).fab = d.fab := rfl
@[simp] theorem Dev.setStream_dict (d : Dev) (n i : Nat) (x : Stream) : (d.setStream n i x).dict = d.dict := rfl
@[simp] theorem Dev.setStream_power (d : Dev) (n i : Nat) (x : Stream) : (d.setStream n i x).power = d.power := rfl
@[simp] theorem Dev.setStream_boot (d : Dev) (n i : Nat) (x : Stream) : (d.setStream n i x).boot = d.boot := rfl
@[simp] theorem Dev.setStream_clr (d : Dev) (n i : Nat) (x : Stream) : (d.setStream n i x).clr = d.clr := rfl
@[simp] theorem Dev.setStream_tray (d : Dev) (n i : Nat) (x : Stream) : (d.setStream n i x).tray = d.tray := rfl
@[simp] theorem Dev.setStream_life (d : Dev) (n i : Nat) (x : Stream) : (d.setStream n i x).life = d.life := rfl
@[simp] theorem Dev.setStream_pkg (d : Dev) (n i : Nat) (x : Stream) : (d.setStream n i x).pkg = d.pkg := rfl

@[simp] theorem Dev.onQueue_time (d : Dev) (k : Nat) (f : Queue → Queue) : (d.onQueue k f).time = d.time := rfl
@[simp] theorem Dev.onQueue_free (d : Dev) (k : Nat) (f : Queue → Queue) : (d.onQueue k f).free = d.free := rfl
@[simp] theorem Dev.onQueue_out (d : Dev) (k : Nat) (f : Queue → Queue) : (d.onQueue k f).out = d.out := rfl
@[simp] theorem Dev.onQueue_objs (d : Dev) (k : Nat) (f : Queue → Queue) : (d.onQueue k f).objs = d.objs := rfl
@[simp] theorem Dev.onQueue_logs (d : Dev) (k : Nat) (f : Queue → Queue) : (d.onQueue k f).logs = d.logs := rfl
@[simp] theorem Dev.onQueue_tr (d : Dev) (k : Nat) (f : Queue → Queue) : (d.onQueue k f).tr = d.tr := rfl
@[simp] theorem Dev.onQueue_host (d : Dev) (k : Nat) (f : Queue → Queue) : (d.onQueue k f).host = d.host := rfl
@[simp] theorem Dev.onQueue_mem (d : Dev) (k : Nat) (f : Queue → Queue) : (d.onQueue k f).mem = d.mem := rfl
@[simp] theorem Dev.onQueue_l2 (d : Dev) (k : Nat) (f : Queue → Queue) : (d.onQueue k f).l2 = d.l2 := rfl
@[simp] theorem Dev.onQueue_fab (d : Dev) (k : Nat) (f : Queue → Queue) : (d.onQueue k f).fab = d.fab := rfl
@[simp] theorem Dev.onQueue_dict (d : Dev) (k : Nat) (f : Queue → Queue) : (d.onQueue k f).dict = d.dict := rfl
@[simp] theorem Dev.onQueue_power (d : Dev) (k : Nat) (f : Queue → Queue) : (d.onQueue k f).power = d.power := rfl
@[simp] theorem Dev.onQueue_boot (d : Dev) (k : Nat) (f : Queue → Queue) : (d.onQueue k f).boot = d.boot := rfl
@[simp] theorem Dev.onQueue_clr (d : Dev) (k : Nat) (f : Queue → Queue) : (d.onQueue k f).clr = d.clr := rfl
@[simp] theorem Dev.onQueue_tray (d : Dev) (k : Nat) (f : Queue → Queue) : (d.onQueue k f).tray = d.tray := rfl
@[simp] theorem Dev.onQueue_life (d : Dev) (k : Nat) (f : Queue → Queue) : (d.onQueue k f).life = d.life := rfl
@[simp] theorem Dev.onQueue_pkg (d : Dev) (k : Nat) (f : Queue → Queue) : (d.onQueue k f).pkg = d.pkg := rfl
@[simp] theorem Dev.onQueue_nave (d : Dev) (k : Nat) (f : Queue → Queue) : (d.onQueue k f).nave = d.nave := rfl

@[simp] theorem Dev.onNode_time (d : Dev) (k : Nat) (f : Node → Node) : (d.onNode k f).time = d.time := rfl
@[simp] theorem Dev.onNode_free (d : Dev) (k : Nat) (f : Node → Node) : (d.onNode k f).free = d.free := rfl
@[simp] theorem Dev.onNode_out (d : Dev) (k : Nat) (f : Node → Node) : (d.onNode k f).out = d.out := rfl
@[simp] theorem Dev.onNode_objs (d : Dev) (k : Nat) (f : Node → Node) : (d.onNode k f).objs = d.objs := rfl
@[simp] theorem Dev.onNode_logs (d : Dev) (k : Nat) (f : Node → Node) : (d.onNode k f).logs = d.logs := rfl
@[simp] theorem Dev.onNode_tr (d : Dev) (k : Nat) (f : Node → Node) : (d.onNode k f).tr = d.tr := rfl
@[simp] theorem Dev.onNode_host (d : Dev) (k : Nat) (f : Node → Node) : (d.onNode k f).host = d.host := rfl
@[simp] theorem Dev.onNode_mem (d : Dev) (k : Nat) (f : Node → Node) : (d.onNode k f).mem = d.mem := rfl
@[simp] theorem Dev.onNode_l2 (d : Dev) (k : Nat) (f : Node → Node) : (d.onNode k f).l2 = d.l2 := rfl
@[simp] theorem Dev.onNode_fab (d : Dev) (k : Nat) (f : Node → Node) : (d.onNode k f).fab = d.fab := rfl
@[simp] theorem Dev.onNode_dict (d : Dev) (k : Nat) (f : Node → Node) : (d.onNode k f).dict = d.dict := rfl
@[simp] theorem Dev.onNode_power (d : Dev) (k : Nat) (f : Node → Node) : (d.onNode k f).power = d.power := rfl
@[simp] theorem Dev.onNode_boot (d : Dev) (k : Nat) (f : Node → Node) : (d.onNode k f).boot = d.boot := rfl
@[simp] theorem Dev.onNode_clr (d : Dev) (k : Nat) (f : Node → Node) : (d.onNode k f).clr = d.clr := rfl
@[simp] theorem Dev.onNode_tray (d : Dev) (k : Nat) (f : Node → Node) : (d.onNode k f).tray = d.tray := rfl
@[simp] theorem Dev.onNode_life (d : Dev) (k : Nat) (f : Node → Node) : (d.onNode k f).life = d.life := rfl
@[simp] theorem Dev.onNode_pkg (d : Dev) (k : Nat) (f : Node → Node) : (d.onNode k f).pkg = d.pkg := rfl
@[simp] theorem Dev.onNode_nave (d : Dev) (k : Nat) (f : Node → Node) : (d.onNode k f).nave = d.nave := rfl

@[simp] theorem Dev.onSched_time (d : Dev) (f : Sched → Sched) : (d.onSched f).time = d.time := rfl
@[simp] theorem Dev.onSched_free (d : Dev) (f : Sched → Sched) : (d.onSched f).free = d.free := rfl
@[simp] theorem Dev.onSched_out (d : Dev) (f : Sched → Sched) : (d.onSched f).out = d.out := rfl
@[simp] theorem Dev.onSched_objs (d : Dev) (f : Sched → Sched) : (d.onSched f).objs = d.objs := rfl
@[simp] theorem Dev.onSched_logs (d : Dev) (f : Sched → Sched) : (d.onSched f).logs = d.logs := rfl
@[simp] theorem Dev.onSched_tr (d : Dev) (f : Sched → Sched) : (d.onSched f).tr = d.tr := rfl
@[simp] theorem Dev.onSched_host (d : Dev) (f : Sched → Sched) : (d.onSched f).host = d.host := rfl
@[simp] theorem Dev.onSched_mem (d : Dev) (f : Sched → Sched) : (d.onSched f).mem = d.mem := rfl
@[simp] theorem Dev.onSched_l2 (d : Dev) (f : Sched → Sched) : (d.onSched f).l2 = d.l2 := rfl
@[simp] theorem Dev.onSched_fab (d : Dev) (f : Sched → Sched) : (d.onSched f).fab = d.fab := rfl
@[simp] theorem Dev.onSched_dict (d : Dev) (f : Sched → Sched) : (d.onSched f).dict = d.dict := rfl
@[simp] theorem Dev.onSched_power (d : Dev) (f : Sched → Sched) : (d.onSched f).power = d.power := rfl
@[simp] theorem Dev.onSched_boot (d : Dev) (f : Sched → Sched) : (d.onSched f).boot = d.boot := rfl
@[simp] theorem Dev.onSched_clr (d : Dev) (f : Sched → Sched) : (d.onSched f).clr = d.clr := rfl
@[simp] theorem Dev.onSched_tray (d : Dev) (f : Sched → Sched) : (d.onSched f).tray = d.tray := rfl
@[simp] theorem Dev.onSched_life (d : Dev) (f : Sched → Sched) : (d.onSched f).life = d.life := rfl
@[simp] theorem Dev.onSched_pkg (d : Dev) (f : Sched → Sched) : (d.onSched f).pkg = d.pkg := rfl
@[simp] theorem Dev.onSched_nave (d : Dev) (f : Sched → Sched) : (d.onSched f).nave = d.nave := rfl

@[simp] theorem Dev.setPort_time (d : Dev) (n : Nat) (x : DPort) : (d.setPort n x).time = d.time := rfl
@[simp] theorem Dev.setPort_free (d : Dev) (n : Nat) (x : DPort) : (d.setPort n x).free = d.free := rfl
@[simp] theorem Dev.setPort_out (d : Dev) (n : Nat) (x : DPort) : (d.setPort n x).out = d.out := rfl
@[simp] theorem Dev.setPort_objs (d : Dev) (n : Nat) (x : DPort) : (d.setPort n x).objs = d.objs := rfl
@[simp] theorem Dev.setPort_logs (d : Dev) (n : Nat) (x : DPort) : (d.setPort n x).logs = d.logs := rfl
@[simp] theorem Dev.setPort_tr (d : Dev) (n : Nat) (x : DPort) : (d.setPort n x).tr = d.tr := rfl
@[simp] theorem Dev.setPort_host (d : Dev) (n : Nat) (x : DPort) : (d.setPort n x).host = d.host := rfl
@[simp] theorem Dev.setPort_prec (d : Dev) (n : Nat) (x : DPort) : (d.setPort n x).prec = d.prec := rfl
@[simp] theorem Dev.setPort_mem (d : Dev) (n : Nat) (x : DPort) : (d.setPort n x).mem = d.mem := rfl
@[simp] theorem Dev.setPort_l2 (d : Dev) (n : Nat) (x : DPort) : (d.setPort n x).l2 = d.l2 := rfl
@[simp] theorem Dev.setPort_fab (d : Dev) (n : Nat) (x : DPort) : (d.setPort n x).fab = d.fab := rfl
@[simp] theorem Dev.setPort_power (d : Dev) (n : Nat) (x : DPort) : (d.setPort n x).power = d.power := rfl
@[simp] theorem Dev.setPort_boot (d : Dev) (n : Nat) (x : DPort) : (d.setPort n x).boot = d.boot := rfl
@[simp] theorem Dev.setPort_clr (d : Dev) (n : Nat) (x : DPort) : (d.setPort n x).clr = d.clr := rfl
@[simp] theorem Dev.setPort_tray (d : Dev) (n : Nat) (x : DPort) : (d.setPort n x).tray = d.tray := rfl
@[simp] theorem Dev.setPort_life (d : Dev) (n : Nat) (x : DPort) : (d.setPort n x).life = d.life := rfl
@[simp] theorem Dev.setPort_pkg (d : Dev) (n : Nat) (x : DPort) : (d.setPort n x).pkg = d.pkg := rfl
@[simp] theorem Dev.setPort_nave (d : Dev) (n : Nat) (x : DPort) : (d.setPort n x).nave = d.nave := rfl

@[simp] theorem Dev.setSel_time (d : Dev) (p : Path) (f : Selectors → Selectors) : (d.setSel p f).time = d.time := rfl
@[simp] theorem Dev.setSel_free (d : Dev) (p : Path) (f : Selectors → Selectors) : (d.setSel p f).free = d.free := rfl
@[simp] theorem Dev.setSel_out (d : Dev) (p : Path) (f : Selectors → Selectors) : (d.setSel p f).out = d.out := rfl
@[simp] theorem Dev.setSel_objs (d : Dev) (p : Path) (f : Selectors → Selectors) : (d.setSel p f).objs = d.objs := rfl
@[simp] theorem Dev.setSel_logs (d : Dev) (p : Path) (f : Selectors → Selectors) : (d.setSel p f).logs = d.logs := rfl
@[simp] theorem Dev.setSel_tr (d : Dev) (p : Path) (f : Selectors → Selectors) : (d.setSel p f).tr = d.tr := rfl
@[simp] theorem Dev.setSel_host (d : Dev) (p : Path) (f : Selectors → Selectors) : (d.setSel p f).host = d.host := rfl
@[simp] theorem Dev.setSel_prec (d : Dev) (p : Path) (f : Selectors → Selectors) : (d.setSel p f).prec = d.prec := rfl
@[simp] theorem Dev.setSel_mem (d : Dev) (p : Path) (f : Selectors → Selectors) : (d.setSel p f).mem = d.mem := rfl
@[simp] theorem Dev.setSel_l2 (d : Dev) (p : Path) (f : Selectors → Selectors) : (d.setSel p f).l2 = d.l2 := rfl
@[simp] theorem Dev.setSel_fab (d : Dev) (p : Path) (f : Selectors → Selectors) : (d.setSel p f).fab = d.fab := rfl
@[simp] theorem Dev.setSel_power (d : Dev) (p : Path) (f : Selectors → Selectors) : (d.setSel p f).power = d.power := rfl
@[simp] theorem Dev.setSel_boot (d : Dev) (p : Path) (f : Selectors → Selectors) : (d.setSel p f).boot = d.boot := rfl
@[simp] theorem Dev.setSel_clr (d : Dev) (p : Path) (f : Selectors → Selectors) : (d.setSel p f).clr = d.clr := rfl
@[simp] theorem Dev.setSel_tray (d : Dev) (p : Path) (f : Selectors → Selectors) : (d.setSel p f).tray = d.tray := rfl
@[simp] theorem Dev.setSel_life (d : Dev) (p : Path) (f : Selectors → Selectors) : (d.setSel p f).life = d.life := rfl
@[simp] theorem Dev.setSel_pkg (d : Dev) (p : Path) (f : Selectors → Selectors) : (d.setSel p f).pkg = d.pkg := rfl
@[simp] theorem Dev.setSel_nave (d : Dev) (p : Path) (f : Selectors → Selectors) : (d.setSel p f).nave = d.nave := rfl

@[simp] theorem Dev.persist_time (d : Dev) (k : Nat) : (d.persist k).time = d.time := rfl
@[simp] theorem Dev.persist_free (d : Dev) (k : Nat) : (d.persist k).free = d.free := rfl
@[simp] theorem Dev.persist_out (d : Dev) (k : Nat) : (d.persist k).out = d.out := rfl
@[simp] theorem Dev.persist_objs (d : Dev) (k : Nat) : (d.persist k).objs = d.objs := rfl
@[simp] theorem Dev.persist_logs (d : Dev) (k : Nat) : (d.persist k).logs = d.logs := rfl
@[simp] theorem Dev.persist_tr (d : Dev) (k : Nat) : (d.persist k).tr = d.tr := rfl
@[simp] theorem Dev.persist_host (d : Dev) (k : Nat) : (d.persist k).host = d.host := rfl
@[simp] theorem Dev.persist_prec (d : Dev) (k : Nat) : (d.persist k).prec = d.prec := rfl
@[simp] theorem Dev.persist_mem (d : Dev) (k : Nat) : (d.persist k).mem = d.mem := rfl
@[simp] theorem Dev.persist_l2 (d : Dev) (k : Nat) : (d.persist k).l2 = d.l2 := rfl
@[simp] theorem Dev.persist_fab (d : Dev) (k : Nat) : (d.persist k).fab = d.fab := rfl
@[simp] theorem Dev.persist_power (d : Dev) (k : Nat) : (d.persist k).power = d.power := rfl
@[simp] theorem Dev.persist_boot (d : Dev) (k : Nat) : (d.persist k).boot = d.boot := rfl
@[simp] theorem Dev.persist_clr (d : Dev) (k : Nat) : (d.persist k).clr = d.clr := rfl
@[simp] theorem Dev.persist_tray (d : Dev) (k : Nat) : (d.persist k).tray = d.tray := rfl
@[simp] theorem Dev.persist_life (d : Dev) (k : Nat) : (d.persist k).life = d.life := rfl
@[simp] theorem Dev.persist_pkg (d : Dev) (k : Nat) : (d.persist k).pkg = d.pkg := rfl
@[simp] theorem Dev.persist_nave (d : Dev) (k : Nat) : (d.persist k).nave = d.nave := rfl

@[simp] theorem Dev.osetP_time (d : Dev) (k v : Nat) : (d.osetP k v).time = d.time := rfl
@[simp] theorem Dev.osetP_free (d : Dev) (k v : Nat) : (d.osetP k v).free = d.free := rfl
@[simp] theorem Dev.osetP_out (d : Dev) (k v : Nat) : (d.osetP k v).out = d.out := rfl
@[simp] theorem Dev.osetP_logs (d : Dev) (k v : Nat) : (d.osetP k v).logs = d.logs := rfl
@[simp] theorem Dev.osetP_tr (d : Dev) (k v : Nat) : (d.osetP k v).tr = d.tr := rfl
@[simp] theorem Dev.osetP_host (d : Dev) (k v : Nat) : (d.osetP k v).host = d.host := rfl
@[simp] theorem Dev.osetP_prec (d : Dev) (k v : Nat) : (d.osetP k v).prec = d.prec := rfl
@[simp] theorem Dev.osetP_mem (d : Dev) (k v : Nat) : (d.osetP k v).mem = d.mem := rfl
@[simp] theorem Dev.osetP_l2 (d : Dev) (k v : Nat) : (d.osetP k v).l2 = d.l2 := rfl
@[simp] theorem Dev.osetP_fab (d : Dev) (k v : Nat) : (d.osetP k v).fab = d.fab := rfl
@[simp] theorem Dev.osetP_power (d : Dev) (k v : Nat) : (d.osetP k v).power = d.power := rfl
@[simp] theorem Dev.osetP_boot (d : Dev) (k v : Nat) : (d.osetP k v).boot = d.boot := rfl
@[simp] theorem Dev.osetP_clr (d : Dev) (k v : Nat) : (d.osetP k v).clr = d.clr := rfl
@[simp] theorem Dev.osetP_tray (d : Dev) (k v : Nat) : (d.osetP k v).tray = d.tray := rfl
@[simp] theorem Dev.osetP_life (d : Dev) (k v : Nat) : (d.osetP k v).life = d.life := rfl
@[simp] theorem Dev.osetP_pkg (d : Dev) (k v : Nat) : (d.osetP k v).pkg = d.pkg := rfl
@[simp] theorem Dev.osetP_nave (d : Dev) (k v : Nat) : (d.osetP k v).nave = d.nave := rfl

@[simp] theorem Dev.onLink_time (d : Dev) (l : Nat) (f : Link → Link) : (d.onLink l f).time = d.time := rfl
@[simp] theorem Dev.onLink_free (d : Dev) (l : Nat) (f : Link → Link) : (d.onLink l f).free = d.free := rfl
@[simp] theorem Dev.onLink_out (d : Dev) (l : Nat) (f : Link → Link) : (d.onLink l f).out = d.out := rfl
@[simp] theorem Dev.onLink_objs (d : Dev) (l : Nat) (f : Link → Link) : (d.onLink l f).objs = d.objs := rfl
@[simp] theorem Dev.onLink_logs (d : Dev) (l : Nat) (f : Link → Link) : (d.onLink l f).logs = d.logs := rfl
@[simp] theorem Dev.onLink_tr (d : Dev) (l : Nat) (f : Link → Link) : (d.onLink l f).tr = d.tr := rfl
@[simp] theorem Dev.onLink_host (d : Dev) (l : Nat) (f : Link → Link) : (d.onLink l f).host = d.host := rfl
@[simp] theorem Dev.onLink_prec (d : Dev) (l : Nat) (f : Link → Link) : (d.onLink l f).prec = d.prec := rfl
@[simp] theorem Dev.onLink_mem (d : Dev) (l : Nat) (f : Link → Link) : (d.onLink l f).mem = d.mem := rfl
@[simp] theorem Dev.onLink_l2 (d : Dev) (l : Nat) (f : Link → Link) : (d.onLink l f).l2 = d.l2 := rfl
@[simp] theorem Dev.onLink_dict (d : Dev) (l : Nat) (f : Link → Link) : (d.onLink l f).dict = d.dict := rfl
@[simp] theorem Dev.onLink_power (d : Dev) (l : Nat) (f : Link → Link) : (d.onLink l f).power = d.power := rfl
@[simp] theorem Dev.onLink_boot (d : Dev) (l : Nat) (f : Link → Link) : (d.onLink l f).boot = d.boot := rfl
@[simp] theorem Dev.onLink_clr (d : Dev) (l : Nat) (f : Link → Link) : (d.onLink l f).clr = d.clr := rfl
@[simp] theorem Dev.onLink_tray (d : Dev) (l : Nat) (f : Link → Link) : (d.onLink l f).tray = d.tray := rfl
@[simp] theorem Dev.onLink_life (d : Dev) (l : Nat) (f : Link → Link) : (d.onLink l f).life = d.life := rfl
@[simp] theorem Dev.onLink_pkg (d : Dev) (l : Nat) (f : Link → Link) : (d.onLink l f).pkg = d.pkg := rfl
@[simp] theorem Dev.onLink_nave (d : Dev) (l : Nat) (f : Link → Link) : (d.onLink l f).nave = d.nave := rfl

@[simp] theorem Dev.onOp_time (d : Dev) (k : Nat) (f : FabOp → FabOp) : (d.onOp k f).time = d.time := rfl
@[simp] theorem Dev.onOp_free (d : Dev) (k : Nat) (f : FabOp → FabOp) : (d.onOp k f).free = d.free := rfl
@[simp] theorem Dev.onOp_out (d : Dev) (k : Nat) (f : FabOp → FabOp) : (d.onOp k f).out = d.out := rfl
@[simp] theorem Dev.onOp_objs (d : Dev) (k : Nat) (f : FabOp → FabOp) : (d.onOp k f).objs = d.objs := rfl
@[simp] theorem Dev.onOp_logs (d : Dev) (k : Nat) (f : FabOp → FabOp) : (d.onOp k f).logs = d.logs := rfl
@[simp] theorem Dev.onOp_tr (d : Dev) (k : Nat) (f : FabOp → FabOp) : (d.onOp k f).tr = d.tr := rfl
@[simp] theorem Dev.onOp_host (d : Dev) (k : Nat) (f : FabOp → FabOp) : (d.onOp k f).host = d.host := rfl
@[simp] theorem Dev.onOp_prec (d : Dev) (k : Nat) (f : FabOp → FabOp) : (d.onOp k f).prec = d.prec := rfl
@[simp] theorem Dev.onOp_mem (d : Dev) (k : Nat) (f : FabOp → FabOp) : (d.onOp k f).mem = d.mem := rfl
@[simp] theorem Dev.onOp_l2 (d : Dev) (k : Nat) (f : FabOp → FabOp) : (d.onOp k f).l2 = d.l2 := rfl
@[simp] theorem Dev.onOp_dict (d : Dev) (k : Nat) (f : FabOp → FabOp) : (d.onOp k f).dict = d.dict := rfl
@[simp] theorem Dev.onOp_power (d : Dev) (k : Nat) (f : FabOp → FabOp) : (d.onOp k f).power = d.power := rfl
@[simp] theorem Dev.onOp_boot (d : Dev) (k : Nat) (f : FabOp → FabOp) : (d.onOp k f).boot = d.boot := rfl
@[simp] theorem Dev.onOp_clr (d : Dev) (k : Nat) (f : FabOp → FabOp) : (d.onOp k f).clr = d.clr := rfl
@[simp] theorem Dev.onOp_tray (d : Dev) (k : Nat) (f : FabOp → FabOp) : (d.onOp k f).tray = d.tray := rfl
@[simp] theorem Dev.onOp_life (d : Dev) (k : Nat) (f : FabOp → FabOp) : (d.onOp k f).life = d.life := rfl
@[simp] theorem Dev.onOp_pkg (d : Dev) (k : Nat) (f : FabOp → FabOp) : (d.onOp k f).pkg = d.pkg := rfl
@[simp] theorem Dev.onOp_nave (d : Dev) (k : Nat) (f : FabOp → FabOp) : (d.onOp k f).nave = d.nave := rfl

@[simp] theorem Dev.onPower_time (d : Dev) (f : Power → Power) : (d.onPower f).time = d.time := rfl
@[simp] theorem Dev.onPower_free (d : Dev) (f : Power → Power) : (d.onPower f).free = d.free := rfl
@[simp] theorem Dev.onPower_out (d : Dev) (f : Power → Power) : (d.onPower f).out = d.out := rfl
@[simp] theorem Dev.onPower_objs (d : Dev) (f : Power → Power) : (d.onPower f).objs = d.objs := rfl
@[simp] theorem Dev.onPower_logs (d : Dev) (f : Power → Power) : (d.onPower f).logs = d.logs := rfl
@[simp] theorem Dev.onPower_tr (d : Dev) (f : Power → Power) : (d.onPower f).tr = d.tr := rfl
@[simp] theorem Dev.onPower_host (d : Dev) (f : Power → Power) : (d.onPower f).host = d.host := rfl
@[simp] theorem Dev.onPower_prec (d : Dev) (f : Power → Power) : (d.onPower f).prec = d.prec := rfl
@[simp] theorem Dev.onPower_mem (d : Dev) (f : Power → Power) : (d.onPower f).mem = d.mem := rfl
@[simp] theorem Dev.onPower_l2 (d : Dev) (f : Power → Power) : (d.onPower f).l2 = d.l2 := rfl
@[simp] theorem Dev.onPower_fab (d : Dev) (f : Power → Power) : (d.onPower f).fab = d.fab := rfl
@[simp] theorem Dev.onPower_dict (d : Dev) (f : Power → Power) : (d.onPower f).dict = d.dict := rfl
@[simp] theorem Dev.onPower_boot (d : Dev) (f : Power → Power) : (d.onPower f).boot = d.boot := rfl
@[simp] theorem Dev.onPower_clr (d : Dev) (f : Power → Power) : (d.onPower f).clr = d.clr := rfl
@[simp] theorem Dev.onPower_tray (d : Dev) (f : Power → Power) : (d.onPower f).tray = d.tray := rfl
@[simp] theorem Dev.onPower_life (d : Dev) (f : Power → Power) : (d.onPower f).life = d.life := rfl
@[simp] theorem Dev.onPower_pkg (d : Dev) (f : Power → Power) : (d.onPower f).pkg = d.pkg := rfl
@[simp] theorem Dev.onPower_nave (d : Dev) (f : Power → Power) : (d.onPower f).nave = d.nave := rfl

/-! ### Reading after a change -/

theorem oget_oset (d : Dev) (k j v : Nat) : (d.oset k v).oget j = if j = k then v else d.oget j := by
  by_cases h : j = k
  · subst h; simp [Dev.oget, Dev.oset]
  · simp [Dev.oget, Dev.oset, h, dget, dset]
    split <;> simp [mget_mset, mget_mdel, h]

@[simp] theorem oget_oset_same (d : Dev) (k v : Nat) : (d.oset k v).oget k = v := by simp [oget_oset]
theorem oget_oset_ne (d : Dev) {k j : Nat} (v : Nat) (h : j ≠ k) : (d.oset k v).oget j = d.oget j := by simp [oget_oset, h]
theorem oget_oinc (d : Dev) (k j : Nat) : (d.oinc k).oget j = if j = k then d.oget k + 1 else d.oget j := oget_oset d k j _
@[simp] theorem oget_oinc_same (d : Dev) (k : Nat) : (d.oinc k).oget k = d.oget k + 1 := by simp [oget_oinc]
theorem oget_oinc_ne (d : Dev) {k j : Nat} (h : j ≠ k) : (d.oinc k).oget j = d.oget j := by simp [oget_oinc, h]

/-- An object reads as before where the store is as before. -/
theorem oget_congr {d e : Dev} (h : d.objs = e.objs) (k : Nat) : d.oget k = e.oget k := by simp [Dev.oget, h]

theorem slot_onSlot (d : Dev) (n m : Nat) (f : Slot → Slot) : (d.onSlot n f).slot m = if m = n then f (d.slot n) else d.slot m := by
  simp [Dev.slot, Dev.onSlot, dget_dset]

theorem queue_onQueue (d : Dev) (k j : Nat) (f : Queue → Queue) : (d.onQueue k f).queue j = if j = k then f (d.queue k) else d.queue j := by
  simp [Dev.queue, Dev.onQueue, dget_dset]

theorem link_onLink (d : Dev) (l m : Nat) (f : Link → Link) : (d.onLink l f).link m = if m = l then f (d.link l) else d.link m := by
  simp [Dev.link, Dev.onLink, dget_dset]

theorem func_setFunc (d : Dev) (i j : Nat) (f : Func) : (d.setFunc i f).func j = if j = i then f else d.func j := by
  simp [Dev.func, Dev.setFunc, dget_dset]

theorem port_setPort (d : Dev) (n m : Nat) (x : DPort) : (d.setPort n x).port m = if m = n then x else d.port m := by
  simp [Dev.port, Dev.setPort, dget_dset]

theorem errLog_writeLog (d : Dev) (i j : Nat) (e : LogEntry) :
    (d.writeLog i e).errLog j = if j = i then (d.errLog i).write e else d.errLog j := by
  simp [Dev.errLog, Dev.writeLog, dget_dset]

end Sys2Proof.Machine
end

