-- ==== Sys2Proof/Laws/Raise.lean ====
section
/-! SUPPORT. Laws/Raise.lean: raising an error, a NOTE event or a NOTIFY, and sending a packet or a message of the chip, leave memory, the
caches, the cores, the precentor, translation, power, boot, the lifetime record, the package and time as they are. -/

namespace Sys2Proof.Machine

/-- The parts of the device that the sending of messages and the logging of errors never touch. -/
def Dev.still (d : Dev) : Nat × Nat × Mem × L2 × Nave × Precentor × Trans × Power × Boot × Life × Pkg :=
  (d.time, d.free, d.mem, d.l2, d.nave, d.prec, d.tr, d.power, d.boot, d.life, d.pkg)

theorem still_eq {d e : Dev} (h : d.still = e.still) : d.time = e.time ∧ d.free = e.free ∧ d.mem = e.mem ∧ d.l2 = e.l2 ∧ d.nave = e.nave ∧
    d.prec = e.prec ∧ d.tr = e.tr ∧ d.power = e.power ∧ d.boot = e.boot ∧ d.life = e.life ∧ d.pkg = e.pkg := by
  simpa [Dev.still] using h

/-- A fold of steps that keep a part keeps it. -/
theorem foldl_still {α β : Type} (g : Dev → β) (f : Dev → α → Dev) (h : ∀ d a, g (f d a) = g d) (l : List α) (d : Dev) :
    g (l.foldl f d) = g d := by
  induction l generalizing d with
  | nil => rfl
  | cons a l ih => rw [List.foldl_cons, ih, h]

theorem still_ite (b : Prop) [Decidable b] (x y : Dev) : (if b then x else y).still = if b then x.still else y.still := by
  split <;> rfl

/-! ### Small steps -/

@[simp] theorem still_oset (d : Dev) (k v : Nat) : (d.oset k v).still = d.still := (rfl)
@[simp] theorem still_oinc (d : Dev) (k : Nat) : (d.oinc k).still = d.still := (rfl)
@[simp] theorem still_emit (d : Dev) (o : Out) : (d.emit o).still = d.still := (rfl)
@[simp] theorem still_count (d : Dev) (b u w n : Nat) : (d.count b u w n).still = d.still := (rfl)
@[simp] theorem still_setFunc (d : Dev) (i : Nat) (f : Func) : (d.setFunc i f).still = d.still := (rfl)
@[simp] theorem still_writeLog (d : Dev) (i : Nat) (e : LogEntry) : (d.writeLog i e).still = d.still := (rfl)
@[simp] theorem still_logNote (d : Dev) (a b c e : Nat) : (d.logNote a b c e).still = d.still := (rfl)
@[simp] theorem still_onLink (d : Dev) (l : Nat) (f : Link → Link) : (d.onLink l f).still = d.still := (rfl)
@[simp] theorem still_onSlot (d : Dev) (n : Nat) (f : Slot → Slot) : (d.onSlot n f).still = d.still := (rfl)
@[simp] theorem still_dict (d : Dev) (x : Dict) : Dev.still { d with dict := x } = d.still := rfl
@[simp] theorem still_fab (d : Dev) (x : Fabric) : Dev.still { d with fab := x } = d.still := rfl
@[simp] theorem still_logs (d : Dev) (x : Contain) : Dev.still { d with logs := x } = d.still := rfl
@[simp] theorem still_host (d : Dev) (x : HostPort) : Dev.still { d with host := x } = d.still := rfl
@[simp] theorem still_tray (d : Dev) (x : Tray) : Dev.still { d with tray := x } = d.still := rfl

@[simp] theorem still_msix (d : Dev) (fn vec : Nat) : (d.msix fn vec).still = d.still := by
  unfold Dev.msix Dev.sendMsix; dsimp only; split <;> [simp; (split <;> simp)]

/-! ### The router -/

theorem still_flitForm (d : Dev) (l vc : Nat) (b b' : Bool) (g : Link → Link) (o : Out) :
    (Dev.emit (if b' then ((if b then (d.onLink l g).oinc (O.TX_FLITS l) else d.onLink l g).count 3 l 0 1).count 3 l 2 (b2n (hiVc vc))
      else (if b then (d.onLink l g).oinc (O.TX_FLITS l) else d.onLink l g)) o).still = d.still := by
  cases b <;> cases b' <;> simp

@[simp] theorem still_flitOut (d : Dev) (l type vc : Nat) (body : List Byte) : (d.flitOut l type vc body).still = d.still :=
  still_flitForm d l vc _ _ _ _

@[simp] theorem still_creditBack (d : Dev) (l vc a b : Nat) : (d.creditBack l vc a b).still = d.still := by
  unfold Dev.creditBack; split <;> simp

@[simp] theorem still_packetOut (d : Dev) (l : Nat) (q : QPacket) : (d.packetOut l q).still = d.still := by
  unfold Dev.packetOut
  rw [still_creditBack, foldl_still _ _ (fun d e => still_flitOut d l _ _ _)]; simp

@[simp] theorem still_pump (d : Dev) (l f : Nat) : (d.pump l f).still = d.still := by
  induction f generalizing d with
  | zero => rfl
  | succ f ih => unfold Dev.pump; split <;> [rfl; split <;> [rfl; rw [ih, still_packetOut]]]

@[simp] theorem still_settle (d : Dev) (l f : Nat) : (d.settle l f).still = d.still := by
  induction f generalizing d with
  | zero => rfl
  | succ f ih => unfold Dev.settle; split <;> [rfl; (dsimp only; split <;> [rfl; rw [ih, still_flitOut]])]

@[simp] theorem still_drive (d : Dev) (l : Nat) : (d.drive l).still = d.still := by
  unfold Dev.drive
  rw [foldl_still _ _ (fun d e => still_settle d e _)]; simp

@[simp] theorem still_queueOn (d : Dev) (l vc a b c e : Nat) (p : FPacket) : (d.queueOn l vc a b c e p).still = d.still := by
  unfold Dev.queueOn; simp

@[simp] theorem still_localPacket (d : Dev) (i : Nat) (p : FPacket) : (d.localPacket i p).still = d.still := (rfl)

@[simp] theorem still_dropCount (d : Dev) (c r p : Nat) : (d.dropCount c r p).still = d.still := by
  unfold Dev.dropCount; dsimp only; split <;> (try split) <;> simp <;> rfl

@[simp] theorem still_sendError (d : Dev) (p : FPacket) (c r port : Nat) : (d.sendError p c r port).still = d.still := by
  unfold Dev.sendError; split <;> [rfl; (dsimp only; split <;> [simp; split <;> simp])]

@[simp] theorem still_route (d : Dev) (i v a b : Nat) (p : FPacket) : (d.route i v a b p).still = d.still := by
  unfold Dev.route Dev.dropPacket; dsimp only; split <;> [simp; (split <;> [simp; split <;> simp])]

@[simp] theorem still_originate (d : Dev) (p : FPacket) : (d.originate p).still = d.still := by unfold Dev.originate; simp

/-! ### Messages -/

@[simp] theorem still_takeCount (d : Dev) : (d.takeCount).1.still = d.still := by unfold Dev.takeCount; split <;> simp; rfl

@[simp] theorem still_inbox (d : Dev) (m : CantorMsg) : (d.inbox m).still = d.still := by unfold Dev.inbox; split <;> simp

@[simp] theorem still_hostMessage (d : Dev) (m : CantorMsg) : (d.hostMessage m).still = d.still := by
  unfold Dev.hostMessage; split <;> [simp; (split <;> [simp; split <;> simp])]

@[simp] theorem still_trayAnswer (d : Dev) (n : Nat) (m : CantorMsg) : (d.trayAnswer n m).still = d.still := by
  unfold Dev.trayAnswer
  split
  · rfl
  · split
    · rfl
    · dsimp only; split <;> split <;> (try split) <;> simp

@[simp] theorem still_toTray (d : Dev) (m : CantorMsg) : (d.toTray m).still = d.still := by
  unfold Dev.toTray; dsimp only; split <;> [simp; (split <;> [simp; split <;> simp])]; rfl

@[simp] theorem still_sendCantor (d : Dev) (m : CantorMsg) : (d.sendCantor m).still = d.still := by
  unfold Dev.sendCantor; split <;> [rfl; (dsimp only; split <;> [simp; split <;> simp])]

@[simp] theorem still_notifySend (d : Dev) (n : NotifyArg) (v k : Nat) : (d.notifySend n v k).still = d.still := by
  unfold Dev.notifySend; dsimp only; split <;> simp

@[simp] theorem still_notifyOne (d : Dev) (n : NotifyArg) (i : Nat) : (d.notifyOne n i).still = d.still := by
  unfold Dev.notifyOne; dsimp only; split <;> [rfl; (split <;> [split <;> simp; simp])]

@[simp] theorem still_notify (d : Dev) (n : NotifyArg) : (d.notify n).still = d.still :=
  foldl_still _ _ (fun d i => still_notifyOne d n i) _ _

/-! ### Errors -/

@[simp] theorem still_aer (d : Dev) (i e : Nat) (h : Option TlpHeader) : (d.aer i e h).still = d.still := by
  obtain ⟨x, o, h⟩ := Dev.aer_rest d i e h
  rw [h]; rfl

@[simp] theorem still_deviceFail (d : Dev) (c t : Nat) : (d.deviceFail c t).still = d.still := by
  unfold Dev.deviceFail; split <;> simp

/-- Raising an error touches none of these parts. -/
@[simp] theorem still_raise (d : Dev) (e : Err) : (d.raise e).still = d.still := by
  unfold Dev.raise
  simp [still_ite]

/-- A NOTE event touches none of them. -/
@[simp] theorem still_noteEvent (d : Dev) (c t eng : Nat) : (d.noteEvent c t eng).still = d.still := by unfold Dev.noteEvent; simp

end Sys2Proof.Machine
end

