-- ==== Sys2Proof/Safety.lean ====
section
/-! DEFINITION. Safety.lean: what counts as a safe state. -/

namespace Sys2Proof.Machine

/-- Device memory is in canonical form. -/
def Dev.memOk (d : Dev) : Bool := memWf d.mem.cells

end Sys2Proof.Machine
end

