-- ==== Sys2Proof/Tests/Setup.lean ====
section
/-! SUPPORT. Tests/Setup.lean: small states the tests run on. -/

namespace Sys2Proof.Tests

open Sys2Proof Sys2Proof.Machine Sys2Proof.Claims

/-! ### A core with one choir -/

/-- A restartable task of four choirs on core 0, of tenant 0. -/
def task0 : TaskRun := ⟨0, 0, 1, 2, 0, 0, 4, 64, 1, 0, 0, 0, [], [], 1, true, 0, false, false, none⟩

/-- A choir whose voices are all active, at PC 0, with registers and predicates. -/
def choirWith (v u p : List (Nat × Nat)) : Choir := { Choir.absent with mask := 2 ^ 32 - 1, v := v, u := u, p := p }

/-- A core that runs choir `h` in slot 0, the line at address 0 in its instruction cache holding word `w`. -/
def coreWith (w : Nat) (h : Choir) : Core :=
  { Core.reset with state := 2, task := some task0, started := true, choirs := [(0, h)], icache := [(0, w)] }

/-- The machine with core 0 as given. -/
def withCore (c : Core) : State := { State.reset with dev := Dev.setCore { Dev.reset with objs := [] } 0 c }

/-- The machine whose core 0 is to issue word `w` from choir `h`. -/
def one (w : Nat) (h : Choir) : State := withCore (coreWith w h)

/-- An instruction word (Table 3.1). -/
def ins (opc dst sa sb sc mod imm imm2 : Nat) (du au bu bi : Bool := false) (gp gn : Nat := 0) : Nat :=
  opc + gp * 2 ^ 8 + gn * 2 ^ 11 + dst * 2 ^ 12 + sa * 2 ^ 20 + sb * 2 ^ 28 + sc * 2 ^ 36 + b2n du * 2 ^ 44 + b2n au * 2 ^ 45 + b2n bu * 2 ^ 46 +
    b2n bi * 2 ^ 47 + mod * 2 ^ 48 + imm * 2 ^ 64 + imm2 * 2 ^ 96

/-- The one choir of these tests. -/
def c0 : ChoirRef := ⟨0, 0, 0, false⟩

/-- The device once the word is fetched and counted, and the instruction as its meaning sees it. -/
def fetched (s : State) (c : ChoirRef) (e : HwErr) : Dev × Fetched :=
  Dev.fetch (((s.dev.clockBegin c).onChoir c.core c.slot (Choir.settle 40)).coreErr c.core c.slot e) c.core c.slot

def issueDev (s : State) (c : ChoirRef) (e : HwErr) : Dev := (fetched s c e).1.issued c.core c.slot

def issueCtx (s : State) (c : ChoirRef) (e : HwErr) : Ctx :=
  let w := match (fetched s c e).2 with | .word w => w | _ => 0
  let h := ((issueDev s c e).core c.core).choir c.slot
  ⟨c.core, c.slot, w,
    h.mask &&& (if bit w 11 then h.pred (bits w 8 3) ^^^ (2 ^ 32 - 1) else h.pred (bits w 8 3)), h, e⟩

/-- What has to hold for the instruction to issue. -/
def issueOk (s : State) (c : ChoirRef) (e : HwErr) (opc : Nat) (sp : Nat → Spec) : Bool :=
  let d := issueDev s c e
  let x := issueCtx s c e
  decide ((c.core < 256 ∧ c.slot < 64 ∧ (s.dev.clockBegin c).ready c = true ∧
      (match (fetched s c e).2 with | .word _ => true | _ => false) = true) ∧
    (x.ex ≠ 0 ∧ iOpc x.w = opc ∧ insLegal (sp x.w) x.w = true ∧
      insRange (sp x.w) x.w (((d.core c.core).task.map (·.regs)).getD 0) = true ∧ ∀ v ∈ voicesOf x.ex, eatsPoison (sp x.w) x.h x.w v = false) ∧
    x.h.wait = .none ∧ x.h.load = none ∧ (d.core c.core).task.isSome = true)

theorem issues_of_ok {s : State} {c : ChoirRef} {e : HwErr} {opc : Nat} {sp : Nat → Spec} (h : issueOk s c e opc sp = true) :
    Issues s c e opc sp (issueDev s c e) (issueCtx s c e) := by
  obtain ⟨⟨core, slot, turn, word⟩, ⟨some_voice, code, legal, range, clean⟩, awake, idle, tasked⟩ := of_decide_eq_true h
  refine ⟨core, slot, turn, ⟨(fetched s c e).1, ?_, rfl⟩, rfl, rfl, rfl, rfl, rfl, some_voice, code, legal, range, clean, awake, idle, tasked⟩
  revert word
  unfold issueCtx
  change _ → fetched s c e = _
  cases hf : fetched s c e with
  | mk d r => cases r <;> simp

/-- Choir 0 of core 0 after a command. -/
def after (c : Instr) (s : State) : Option Choir :=
  match exec c s with
  | .next t => some ((t.dev.core 0).choir 0)
  | _ => none

/-- Some state and word in which an instruction issues, with more that holds there. -/
def Shows (opc : Nat) (sp : Nat → Spec) (ok : State → Dev → Ctx → Prop) : Prop := ∃ s c e d x, Issues s c e opc sp d x ∧ ok s d x

theorem shows_of {opc : Nat} {sp : Nat → Spec} {ok : State → Dev → Ctx → Prop} (s : State) (h : issueOk s c0 .none opc sp = true)
    (k : ok s (issueDev s c0 .none) (issueCtx s c0 .none)) : Shows opc sp ok := ⟨s, c0, .none, _, _, issues_of_ok h, k⟩

/-- The one choir of these tests, whose core clock goes on. -/
def c1 : ChoirRef := ⟨0, 0, 0, true⟩

theorem shows_on {opc : Nat} {sp : Nat → Spec} {ok : State → Dev → Ctx → Prop} (s : State) (h : issueOk s c1 .none opc sp = true)
    (k : ok s (issueDev s c1 .none) (issueCtx s c1 .none)) : Shows opc sp ok := ⟨s, c1, .none, _, _, issues_of_ok h, k⟩

/-- Some state and word in which an instruction issues. -/
def Runs (opc : Nat) (sp : Nat → Spec) : Prop := ∃ s c e d x, Issues s c e opc sp d x

theorem runs_of {opc : Nat} {sp : Nat → Spec} (s : State) (h : issueOk s c0 .none opc sp = true) : Runs opc sp :=
  ⟨s, c0, .none, _, _, issues_of_ok h⟩

/-- Window 0 of tenant 0, 64 KiB at 0x10000 on the north die. -/
def window0 : Window := { base := 0x10000, size := 0x10000, hostBase := 0, enc := false, keySlot := 0, l2p := 0, policy := 0, home := 0, x := true,
                          w := true, r := true }

/-- Its page, at DPA 0x20000, cached in the µTLBs of core 0 and of its Lark. -/
def mapped (s : State) : State :=
  let e : TlbEntry := ⟨0, 0, false, 1, 0, 0x20000, true, true, true⟩
  { s with dev := { s.dev with tr := { s.dev.tr with wins := [(0, window0)], utlb := [(0, [e]), (larkEng 0, [e])] } } }

/-- An address has translated to device memory. -/
def onDie : TRes → Bool
  | .dev .. => true
  | _ => false

theorem onDie_dev {r : TRes} (h : onDie r = true) : ∃ i w a, r = .dev i w a := by
  cases r <;> simp_all [onDie]

theorem all_onDie {l : List (Nat × Nat × TRes)} (h : l.all (fun r => onDie r.2.2) = true) : ∀ r ∈ l, ∃ i w a, r.2.2 = .dev i w a :=
  fun r hr => onDie_dev (List.all_eq_true.mp h r hr)

theorem pieces_onDie {l : List (TRes × Nat × Nat)} (h : l.all (fun p => onDie p.1) = true) : ∀ p ∈ l, ∃ i w a, p.1 = .dev i w a :=
  fun p hp => onDie_dev (List.all_eq_true.mp h p hp)

/-- The node of `task0`, running. -/
def node0 : Node :=
  { owner := 0, queue := 0, graph := 1, id := 2, opc := 1, body := 1, count := 0, cr := false, irq := false, state := .running, preds := [],
    left := 0, restartable := true, dispatches := 1, order := 0, readyAt := 0, dispatchedAt := 0, firstDispatch := 0, core := 0, reports := [],
    refs := [], lastPages := [], noProgress := 0, mismatches := 0, unverified := false, grace := false, timerSpent := false, chapel := 0, pool := false,
    counted := false, avoid := none, noted := false, notBefore := 0, tablePoison := false, eccLast := none }

/-- A state with one node. -/
def withNode (s : State) (x : Node) : State := { s with dev := { s.dev with prec := { s.dev.prec with nodes := [x] } } }

/-- A stream context whose program is one word. -/
def streamOf (record w : Nat) : Stream :=
  { record := record, index := 15, desc := 0, next := 0, listAt := 0, segOff := 0, segLm := 0, cursor := 0, queue := [], landed := 0,
    lens := [], entries := [], prog := [w], ready := true, bpc := 0, a := [0, 0, 0, 0], c := List.replicate 8 0, loops := [], ended := false }

/-- Core 0 with stream context 15. -/
def streaming (st : Stream) (lm : List Host.Cell := []) : State :=
  mapped (withCore { coreWith 0 (choirWith [] [] []) with streams := [(15, st)], lm := lm })

theorem streams_of (st : Stream) (lm : List Host.Cell) : Streams (streaming st lm) 0 15 task0 st :=
  ⟨by decide, by decide, rfl, rfl, rfl, rfl⟩

/-- A block of 32 bytes. -/
def block0 (begun : Bool) : Block :=
  { num := 0, addr := 0x1FFE0, len := 32, off := 0, total := 32, lm := 0x7FFE0, dest := none, last := true, begun := begun, todo := [],
    tile := none, lines := [], pages := [], sent := 0, receivers := [] }

/-! ### A device that is READY -/

/-- A function with Bus Master Enable set. -/
def func0 : Func := { Func.reset with busMaster := true, msixEnable := true }

/-- The device READY, its domains on, its host link up, tenant 0 present, chip 13, changed by `f`. -/
def ready (f : Dev → Dev) : State :=
  let d := ([(O.BOOT_PHASE, 4), (O.HOSTPORT_STATE, 2), (O.CHIP_ID, 13), (O.CHIP_ID_VALID, 1), (O.TENANT_STATE 0, 1),
      (O.CANTOR_KEY_STATE, 1), (O.CANTOR_ENABLE, 1)] ++ (rangeFrom 0 16).map (fun x => (O.PD_STATE x, 2))).foldl (fun (d : Dev) (e : Nat × Nat) => d.oset e.1 e.2) { Dev.reset with objs := [] }
  let b : Boot := { d.boot with inReset := false, running := some 0 }
  let h : HostPort := { d.host with perst := false, vfEnable := true, numVfs := 256, funcs := [(0, func0), (1, func0)] }
  ⟨f { d with time := 5000000, boot := b, host := h }, []⟩

/-- Power domain `x` is quiesced. -/
def quieted (x : Nat) (d : Dev) : Dev := { d with power := { d.power with quiesced := [(x, d.time)] } }

/-- An object of the device is set. -/
def obj (k v : Nat) (d : Dev) : Dev := d.oset k v

end Sys2Proof.Tests
end

