-- ==== Sys2Proof/Tests/Nave.lean ====
section
/-! SUPPORT. Tests/Nave.lean: one-step tests of the instructions of a core, with values from the tables of chapters 3 and 5. -/

namespace Sys2Proof.Tests

open Sys2Proof Sys2Proof.Machine

set_option Elab.async false

/-- From Table 3.4. -/
theorem test_iadd : (after (.iadd c0 .none) (one (ins 0x01 3 1 2 0 0x0 0x0 0x0) (choirWith [(32, 0x5), (64, 0xFFFFFFFF)] [] []))).map (·.vget 3 0) =
    some ((4, false)) := by decide +kernel

/-- From Table 3.4. -/
theorem test_iadd_pair : (after (.iadd c0 .none) (one (ins 0x01 4 2 6 0 0x1 0x0 0x0) (choirWith [(64, 0xFFFFFFFF), (96, 0x0), (192, 0x1), (224, 0x0)] [] []))).map (fun h => (h.vget 4 0, h.vget 5 0)) =
    some (((0, false), (1, false))) := by decide +kernel

/-- From Table 3.4. -/
theorem test_isub : (after (.isub c0 .none) (one (ins 0x02 3 1 2 0 0x0 0x0 0x0) (choirWith [(32, 0x5), (64, 0xFFFFFFFF)] [] []))).map (·.vget 3 0) =
    some ((6, false)) := by decide +kernel

/-- From Table 3.4. -/
theorem test_imul : (after (.imul c0 .none) (one (ins 0x03 3 1 2 0 0x0 0x0 0x0) (choirWith [(32, 0x5), (64, 0xFFFFFFFF)] [] []))).map (·.vget 3 0) =
    some ((0xFFFFFFFB, false)) := by decide +kernel

/-- From Table 3.4. -/
theorem test_imulhi_unsigned : (after (.imulhi c0 .none) (one (ins 0x04 3 1 2 0 0x0 0x0 0x0) (choirWith [(32, 0x5), (64, 0xFFFFFFFF)] [] []))).map (·.vget 3 0) =
    some ((4, false)) := by decide +kernel

/-- From Table 3.4. -/
theorem test_imulhi_signed : (after (.imulhi c0 .none) (one (ins 0x04 3 1 2 0 0x2 0x0 0x0) (choirWith [(32, 0x5), (64, 0xFFFFFFFF)] [] []))).map (·.vget 3 0) =
    some ((0xFFFFFFFF, false)) := by decide +kernel

/-- From Table 3.4. -/
theorem test_imad : (after (.imad c0 .none) (one (ins 0x05 3 1 2 4 0x0 0x0 0x0) (choirWith [(32, 0x5), (64, 0xFFFFFFFF), (128, 0x7)] [] []))).map (·.vget 3 0) =
    some ((2, false)) := by decide +kernel

/-- From Table 3.4. -/
theorem test_and : (after (.andCmd c0 .none) (one (ins 0x06 3 1 2 0 0x0 0x0 0x0) (choirWith [(32, 0xC), (64, 0xA)] [] []))).map (·.vget 3 0) =
    some ((0b1000, false)) := by decide +kernel

/-- From Table 3.4. -/
theorem test_or : (after (.orCmd c0 .none) (one (ins 0x07 3 1 2 0 0x0 0x0 0x0) (choirWith [(32, 0xC), (64, 0xA)] [] []))).map (·.vget 3 0) =
    some ((0b1110, false)) := by decide +kernel

/-- From Table 3.4. -/
theorem test_xor : (after (.xor c0 .none) (one (ins 0x08 3 1 2 0 0x0 0x0 0x0) (choirWith [(32, 0xC), (64, 0xA)] [] []))).map (·.vget 3 0) =
    some ((0b0110, false)) := by decide +kernel

/-- From Table 3.4. -/
theorem test_shl_mod_32 : (after (.shl c0 .none) (one (ins 0x09 3 1 2 0 0x0 0x0 0x0) (choirWith [(32, 0x5), (64, 0x21)] [] []))).map (·.vget 3 0) =
    some ((10, false)) := by decide +kernel

/-- From Table 3.4. -/
theorem test_shr : (after (.shr c0 .none) (one (ins 0x0A 3 1 2 0 0x0 0x0 0x0) (choirWith [(32, 0x80000000), (64, 0x4)] [] []))).map (·.vget 3 0) =
    some ((0x08000000, false)) := by decide +kernel

/-- From Table 3.4. -/
theorem test_sar : (after (.sar c0 .none) (one (ins 0x0B 3 1 2 0 0x0 0x0 0x0) (choirWith [(32, 0x80000000), (64, 0x4)] [] []))).map (·.vget 3 0) =
    some ((0xF8000000, false)) := by decide +kernel

/-- From Table 3.4. -/
theorem test_imin_signed : (after (.imin c0 .none) (one (ins 0x0C 3 1 2 0 0x2 0x0 0x0) (choirWith [(32, 0x5), (64, 0xFFFFFFFF)] [] []))).map (·.vget 3 0) =
    some ((0xFFFFFFFF, false)) := by decide +kernel

/-- From Table 3.4. -/
theorem test_imin_unsigned : (after (.imin c0 .none) (one (ins 0x0C 3 1 2 0 0x0 0x0 0x0) (choirWith [(32, 0x5), (64, 0xFFFFFFFF)] [] []))).map (·.vget 3 0) =
    some ((5, false)) := by decide +kernel

/-- From Table 3.4. -/
theorem test_imax_signed : (after (.imax c0 .none) (one (ins 0x0D 3 1 2 0 0x2 0x0 0x0) (choirWith [(32, 0x5), (64, 0xFFFFFFFF)] [] []))).map (·.vget 3 0) =
    some ((5, false)) := by decide +kernel

/-- From Table 3.4. -/
theorem test_popc : (after (.popc c0 .none) (one (ins 0x0E 3 1 0 0 0x0 0x0 0x0) (choirWith [(32, 0xF0F1)] [] []))).map (·.vget 3 0) =
    some ((9, false)) := by decide +kernel

/-- From Table 3.4. -/
theorem test_sel : (after (.sel c0 .none) (one (ins 0x0F 3 1 2 1 0x0 0x0 0x0) (choirWith [(32, 0x5), (64, 0x6)] [] [(1, 0x0)]))).map (·.vget 3 0) =
    some ((6, false)) := by decide +kernel

/-- From the example of chapter 3. -/
theorem test_iadd_immediate_uniform : (after (.iadd c0 .none) (one (ins 0x01 3 1 0 0 0x0 0x10 0x0 (du := true) (au := true) (bi := true)) (choirWith [] [(1, 0x5)] []))).map (·.uget 3) =
    some ((0x15, false)) := by decide +kernel

/-- From Table 3.4. -/
theorem test_fadd : (after (.fadd c0 .none) (one (ins 0x10 3 1 2 0 0x0 0x0 0x0) (choirWith [(32, 0x3F800000), (64, 0x40000000)] [] []))).map (·.vget 3 0) =
    some ((0x40400000, false)) := by decide +kernel

/-- From Table 3.4. -/
theorem test_fmul : (after (.fmul c0 .none) (one (ins 0x11 3 1 2 0 0x0 0x0 0x0) (choirWith [(32, 0x3FC00000), (64, 0x40000000)] [] []))).map (·.vget 3 0) =
    some ((0x40400000, false)) := by decide +kernel

/-- From Table 3.4. -/
theorem test_ffma : (after (.ffma c0 .none) (one (ins 0x12 3 1 2 4 0x0 0x0 0x0) (choirWith [(32, 0x3FC00000), (64, 0x40000000), (128, 0x3F800000)] [] []))).map (·.vget 3 0) =
    some ((0x40800000, false)) := by decide +kernel

/-- From R242. -/
theorem test_fmin_zeros : (after (.fmin c0 .none) (one (ins 0x13 3 1 2 0 0x0 0x0 0x0) (choirWith [(32, 0x0), (64, 0x80000000)] [] []))).map (·.vget 3 0) =
    some ((0x80000000, false)) := by decide +kernel

/-- From R242. -/
theorem test_fmax_nan : (after (.fmax c0 .none) (one (ins 0x14 3 1 2 0 0x0 0x0 0x0) (choirWith [(32, 0x7FC00000), (64, 0x3F800000)] [] []))).map (·.vget 3 0) =
    some ((0x3F800000, false)) := by decide +kernel

/-- From Table 5.4. -/
theorem test_fdiv_by_zero : (after (.fdiv c0 .none) (one (ins 0x15 3 1 2 0 0x0 0x0 0x0 (gp := 1)) (choirWith [(32, 0x3F800000), (64, 0x0)] [] [(1, 0x1)]))).map (fun h => (h.vget 3 0, h.flags)) =
    some (((0x7F800000, false), 8)) := by decide +kernel

/-- From Table 3.4. -/
theorem test_fsqrt : (after (.fsqrt c0 .none) (one (ins 0x16 3 1 0 0 0x0 0x0 0x0) (choirWith [(32, 0x40800000)] [] []))).map (·.vget 3 0) =
    some ((0x40000000, false)) := by decide +kernel

/-- From Table 3.4. -/
theorem test_dadd : (after (.dadd c0 .none) (one (ins 0x20 8 2 4 0 0x0 0x0 0x0) (choirWith [(64, 0x0), (96, 0x3FF00000), (128, 0x0), (160, 0x40000000), (192, 0x0), (224, 0x0)] [] []))).map (fun h => (h.vget 8 0, h.vget 9 0)) =
    some (((0, false), (0x40080000, false))) := by decide +kernel

/-- From Table 3.4. -/
theorem test_dmul : (after (.dmul c0 .none) (one (ins 0x21 8 2 4 0 0x0 0x0 0x0) (choirWith [(64, 0x0), (96, 0x3FF80000), (128, 0x0), (160, 0x40000000), (192, 0x0), (224, 0x0)] [] []))).map (fun h => (h.vget 8 0, h.vget 9 0)) =
    some (((0, false), (0x40080000, false))) := by decide +kernel

/-- From Table 3.4. -/
theorem test_dfma : (after (.dfma c0 .none) (one (ins 0x22 8 2 4 6 0x0 0x0 0x0) (choirWith [(64, 0x0), (96, 0x3FF80000), (128, 0x0), (160, 0x40000000), (192, 0x0), (224, 0x3FF00000)] [] []))).map (fun h => (h.vget 8 0, h.vget 9 0)) =
    some (((0, false), (0x40100000, false))) := by decide +kernel

/-- From Table 3.4. -/
theorem test_dmin : (after (.dmin c0 .none) (one (ins 0x23 8 2 4 0 0x0 0x0 0x0) (choirWith [(64, 0x0), (96, 0x3FF80000), (128, 0x0), (160, 0x40000000), (192, 0x0), (224, 0x0)] [] []))).map (fun h => (h.vget 8 0, h.vget 9 0)) =
    some (((0, false), (0x3FF80000, false))) := by decide +kernel

/-- From Table 3.4. -/
theorem test_dmax : (after (.dmax c0 .none) (one (ins 0x24 8 2 4 0 0x0 0x0 0x0) (choirWith [(64, 0x0), (96, 0x3FF80000), (128, 0x0), (160, 0x40000000), (192, 0x0), (224, 0x0)] [] []))).map (fun h => (h.vget 8 0, h.vget 9 0)) =
    some (((0, false), (0x40000000, false))) := by decide +kernel

/-- From Table 3.4. -/
theorem test_ddiv : (after (.ddiv c0 .none) (one (ins 0x25 8 2 4 0 0x0 0x0 0x0) (choirWith [(64, 0x0), (96, 0x3FF00000), (128, 0x0), (160, 0x40000000), (192, 0x0), (224, 0x0)] [] []))).map (fun h => (h.vget 8 0, h.vget 9 0)) =
    some (((0, false), (0x3FE00000, false))) := by decide +kernel

/-- From Table 3.4. -/
theorem test_dsqrt : (after (.dsqrt c0 .none) (one (ins 0x26 8 2 0 0 0x0 0x0 0x0) (choirWith [(64, 0x0), (96, 0x40100000), (128, 0x0), (160, 0x0), (192, 0x0), (224, 0x0)] [] []))).map (fun h => (h.vget 8 0, h.vget 9 0)) =
    some (((0, false), (0x40000000, false))) := by decide +kernel

/-- From R245. -/
theorem test_cvt_to_integer : (after (.cvt c0 .none) (one (ins 0x30 3 1 0 0 0x5 0x0 0x0) (choirWith [(32, 0x40200000)] [] []))).map (fun h => (h.vget 3 0, h.flags)) =
    some (((2, false), 1)) := by decide +kernel

/-- From R245. -/
theorem test_cvt_clamps : (after (.cvt c0 .none) (one (ins 0x30 3 1 0 0 0x5 0x0 0x0) (choirWith [(32, 0x7F800000)] [] []))).map (fun h => (h.vget 3 0, h.flags)) =
    some (((0x7FFFFFFF, false), 0x10)) := by decide +kernel

/-- From R124. -/
theorem test_isetp_signed : (after (.isetp c0 .none) (one (ins 0x40 1 1 2 0 0x12 0x0 0x0) (choirWith [(32, 0xFFFFFFFF), (64, 0x5)] [] []))).map (fun h => bit (h.pred 1) 0) =
    some (true) := by decide +kernel

/-- From R31. -/
theorem test_isetp_p0_stays : (after (.isetp c0 .none) (one (ins 0x40 0 1 2 0 0x1 0x0 0x0) (choirWith [(32, 0x5), (64, 0x5)] [] []))).map (·.pred 0) =
    some ((2 ^ 32 - 1)) := by decide +kernel

/-- From Table 5.5. -/
theorem test_fsetp_unordered : (after (.fsetp c0 .none) (one (ins 0x41 1 1 2 0 0x6 0x0 0x0) (choirWith [(32, 0x7FC00000), (64, 0x3F800000)] [] []))).map (fun h => bit (h.pred 1) 0) =
    some (true) := by decide +kernel

/-- From R124. -/
theorem test_dsetp : (after (.dsetp c0 .none) (one (ins 0x42 1 2 4 0 0x4 0x0 0x0) (choirWith [(96, 0x40000000), (160, 0x3FF00000)] [] []))).map (fun h => bit (h.pred 1) 0) =
    some (true) := by decide +kernel

/-- From R124. -/
theorem test_plop_andn : (after (.plop c0 .none) (one (ins 0x43 1 2 3 0 0x3 0x0 0x0) (choirWith [] [] [(2, 0x3), (3, 0x1)]))).map (fun h => h.pred 1 % 4) =
    some (0b10) := by decide +kernel

/-- From R124. -/
theorem test_vote_ballot : (after (.vote c0 .none) (one (ins 0x44 3 2 0 0 0x2 0x0 0x0 (du := true)) (choirWith [] [] [(2, 0x5)]))).map (·.uget 3) =
    some ((0b101, false)) := by decide +kernel

/-- From R124. -/
theorem test_vote_all : (after (.vote c0 .none) (one (ins 0x44 1 2 0 0 0x1 0x0 0x0) (choirWith [] [] [(2, 0x5)]))).map (·.pred 1) =
    some (0) := by decide +kernel

/-- From R42. -/
theorem test_bra_uniform : (after (.bra c0 .none) (one (ins 0x50 0 0 0 0 0x0 0x4 0x8) (choirWith [] [] []))).map (fun h => (h.pc, h.dstack.length)) =
    some ((64, 0)) := by decide +kernel

/-- From R42. -/
theorem test_bra_divergent : (after (.bra c0 .none) (one (ins 0x50 0 0 0 0 0x0 0x4 0x8 (gp := 1)) (choirWith [] [] [(1, 0xF)]))).map (fun h => (h.pc, h.mask, h.dstack.map (·.pc))) =
    some ((64, 0xF, [16, 128])) := by decide +kernel

/-- From Table 3.5. -/
theorem test_brx : (after (.brx c0 .none) (one (ins 0x51 0 2 0 0 0x0 0x0 0x8 (au := true)) (choirWith [] [(2, 0x100), (3, 0x0)] []))).map (·.pc) =
    some (0x100) := by decide +kernel

/-- From R151. -/
theorem test_call : (after (.call c0 .none) (one (ins 0x52 0 0 0 0 0x0 0x4 0x0) (choirWith [] [] []))).map (fun h => (h.pc, h.rstack)) =
    some ((64, [16])) := by decide +kernel

/-- From R45. -/
theorem test_exit : (after (.exitCmd c0 .none) (one (ins 0x54 0 0 0 0 0x0 0x0 0x0) (choirWith [] [] []))).map (·.ended) =
    some (true) := by decide +kernel

/-- From Table 3.5. -/
theorem test_nop : (after (.nop c0 .none) (one (ins 0x55 0 0 0 0 0x0 0x0 0x0) (choirWith [] [] []))).map (·.pc) =
    some (16) := by decide +kernel

/-- From Table 3.7. -/
theorem test_sr_voice : (after (.srRead c0 .none) (one (ins 0xC0 3 0 0 0 0x0 0x0 0x0) (choirWith [] [] []))).map (·.vget 3 31) =
    some ((31, false)) := by decide +kernel

/-- From Table 3.7. -/
theorem test_sr_active : (after (.srRead c0 .none) (one (ins 0xC0 3 0 0 0 0x0 0x1 0x0 (du := true)) (choirWith [] [] []))).map (·.uget 3) =
    some ((0xFFFFFFFF, false)) := by decide +kernel

/-- From R137. -/
theorem test_sr_write_fpctl : (after (.srWrite c0 .none) (one (ins 0xC1 0 1 0 0 0x0 0x18 0x0 (au := true)) (choirWith [] [(1, 0xFF)] []))).map (·.fpctl) =
    some (0xF) := by decide +kernel

/-- From Table 3.5. -/
theorem test_mov : (after (.mov c0 .none) (one (ins 0xC2 3 1 0 0 0x0 0x0 0x0) (choirWith [(32, 0x7)] [] []))).map (·.vget 3 0) =
    some ((7, false)) := by decide +kernel

/-- From R149. -/
theorem test_vperm_rotate : (after (.vperm c0 .none) (one (ins 0xE0 3 1 2 0 0x1 0x0 0x0) (choirWith [(37, 0x9), (64, 0x5)] [] []))).map (·.vget 3 0) =
    some ((9, false)) := by decide +kernel

/-- From R148. -/
theorem test_assert_true : (after (.assert c0 .none) (one (ins 0xD1 0 0 0 0 0x0 0x3 0x0) (choirWith [] [] []))).map (·.pc) =
    some (16) := by decide +kernel

end Sys2Proof.Tests
end

