-- ==== Sys2Proof/Tests/Slice0.lean ====
section
/-! SUPPORT. Tests/Slice0.lean: for each check of well-formedness a command that it refuses, and tests of single steps whose expected values are
the spec's own worked examples. -/

namespace Sys2Proof.Tests

open Sys2Proof Sys2Proof.Machine Sys2Proof.Claims

set_option Elab.async false

/-! ### Commands that are not well formed -/

/-- No command of a list is well formed. -/
def ill (l : List Instr) : Prop := ∀ c ∈ l, Instr.wf c = false

/-- A response, and a request to an endpoint, of the Cantor network. -/
def anyMsg (op : Nat) (resp : Bool) : CantorMsg := { cantorZero with op := op, resp := resp }

/-- A packet of the fabric whose class is `cls` and whose operation header is of kind `kind`. -/
def fab0 (cls kind : Nat) : FPacket := ⟨0, 0, 0, cls, 1, false, 0, 0, 0, leBytes 40 (kind * 2 ^ 8)⟩

/-- A choir, a core, a stall, a context, a die or a cloister that the device does not have. -/
theorem test_ill_cores :
    Instr.wf (.iadd ⟨256, 0, 0, false⟩ .none) = false ∧ Instr.wf (.bra ⟨0, 64, 0, false⟩ .none) = false ∧ Instr.wf (.taskStart 256) = false ∧
      Instr.wf (.storeBufferDrain 0 ⟨4, .none⟩) = false ∧ Instr.wf (.taskAbort 0 256 0) = false ∧ Instr.wf (.taskAbort 0 0 256) = false ∧
      Instr.wf (.larkRequestIssue 256 .none) = false ∧ Instr.wf (.lda 0 16) = false ∧ Instr.wf (.emit 256 0) = false ∧
      Instr.wf (.starlingDelivery 2 0) = false ∧ Instr.wf (.starlingDelivery 0 8) = false ∧ Instr.wf (.comparatorFault 64) = false := by decide +kernel

/-- An L2 request, a place of the L2, a direction, a walk or a completion out of range. -/
theorem test_ill_translation :
    Instr.wf (.l2Lookup ⟨0, 0, 1, false, 0, 0, 0, 0, 0, 0⟩ .none) = false ∧ Instr.wf (.l2Lookup ⟨261, 0, 0, false, 0, 0, 0, 0, 0, 0⟩ .none) = false ∧
      Instr.wf (.crossingRetry 2) = false ∧ Instr.wf (.l2SpareSteering 96 0 0) = false ∧ Instr.wf (.l2SpareSteering 0 32 0) = false ∧
      Instr.wf (.pageWalk 0x9000 0 0 0 .none) = false ∧ Instr.wf (.pageWalk 0 257 0 0 .none) = false ∧ Instr.wf (.pageWalk 0 0 (2 ^ 64) 0 .none) = false ∧
      Instr.wf (.pageWalk 0 0 0 4 .none) = false ∧ Instr.wf (.atsCompletion 0 ⟨0, 0, 12288, 0, true, true, 0, true⟩) = false ∧
      Instr.wf (.atsInvalidateRequest 257 0 0 0) = false ∧ Instr.wf (.prgResponse 0 512 0) = false := by decide +kernel

/-- A function, a register, a size or an offset of the host port, a queue, a tenant or a packet's queue out of range. -/
theorem test_ill_host :
    Instr.wf (.doorbell 257 0 0 false) = false ∧ Instr.wf (.doorbell 0 16 0 false) = false ∧ Instr.wf (.doorbell 0 0 (2 ^ 32) false) = false ∧
      Instr.wf (.barRead 0 1 0 4) = false ∧ Instr.wf (.barRead 0 0 0 0) = false ∧ Instr.wf (.pfBar2Access true 0 [] 1 false) = false ∧
      Instr.wf (.pfBar2Access false (2 ^ 39) [] 1 false) = false ∧ Instr.wf (.vfBar2Write 256 0 [0] false) = false ∧
      Instr.wf (.msixTableAccess 0 true 0 4 0) = false ∧ Instr.wf (.msixUnmask 0 4096) = false ∧ Instr.wf (.flr 256) = false ∧
      Instr.wf (.hostCompletion 16384 0 [] false .none) = false ∧ Instr.wf (.hostCompletion 0 4 [] false .none) = false ∧
      Instr.wf (.configWrite 0 4096 0) = false ∧ Instr.wf (.task 0 16 0) = false ∧ Instr.wf (.nopPacket 257 0 0) = false ∧
      Instr.wf (.urgentFloorRequest 1024) = false ∧ Instr.wf (.perstDeassert 4) = false ∧ Instr.wf (.bar0DiscardedWrite 0 0 4097 false) = false := by decide +kernel

/-- A path, an owner, a mask, a key slot, a stack, a channel, a bank, a group or a port out of range. -/
theorem test_ill_memory :
    Instr.wf (.queueEnable (.ht 256)) = false ∧ Instr.wf (.logPop (.fp 4096) 1) = false ∧ Instr.wf (.contextTeardown 256 0) = false ∧
      Instr.wf (.hbmRead 0 257 .clean) = false ∧ Instr.wf (.hbmWrite 0 (2 ^ 32) 0 ⟨false, .clean⟩) = false ∧ Instr.wf (.keySlotFailure 257) = false ∧
      Instr.wf (.stackTempRead 8 0) = false ∧ Instr.wf (.refresh 256 0 0) = false ∧ Instr.wf (.refresh 0 128 0) = false ∧ Instr.wf (.refresh 0 0 4) = false ∧
      Instr.wf (.enterTest .hk 32) = false ∧ Instr.wf (.tgStart .hk 256) = false ∧ Instr.wf (.tgDone ⟨256, []⟩) = false ∧ Instr.wf (.tgDone ⟨0, [⟨0, 2, 0, 1⟩]⟩) = false ∧ Instr.wf (.dpReadBurst 257 0 .none) = false ∧
      Instr.wf (.dpRegisterWrite 256 4 0) = false ∧ Instr.wf (.dictObjectWrite .hk 65536 0 0 0 [0]) = false ∧
      Instr.wf (.dictObjectWrite .hk 0 0 0 8 [0]) = false ∧ Instr.wf (.dictObjectWrite .hk 0 0 0 0 []) = false := by decide +kernel

/-- A message or a packet that is not what its command takes. -/
theorem test_ill_messages :
    Instr.wf (.cantorRead true (anyMsg 2 false)) = false ∧ Instr.wf (.cantorWrite true (anyMsg 2 true)) = false ∧
      Instr.wf (.cantorReadBurst true (anyMsg 1 false)) = false ∧ Instr.wf (.cantorResponse true (anyMsg 1 false)) = false ∧
      Instr.wf (.i3cRelay false (anyMsg 1 false)) = false ∧ Instr.wf (.cantorTx .hk { cantorZero with payload := List.replicate 257 0 }) = false ∧
      Instr.wf (.notify ⟨0, 0, 0, 0, 0, 0⟩) = false ∧ Instr.wf (.notify ⟨9, 0, 0, 0, 0, 0⟩) = false ∧
      Instr.wf (.errorPacketReceive (fab0 1 0)) = false ∧ Instr.wf (.enter (fab0 4 1)) = false ∧ Instr.wf (.ack (fab0 1 8)) = false := by decide +kernel

/-- A link, a lane, a preset, a sixteenth or a margin out of range. -/
theorem test_ill_links :
    Instr.wf (.linkDown 20) = false ∧ Instr.wf (.packetRoute 21 (fab0 1 1) .none) = false ∧ Instr.wf (.presetRequest 0 8 0 0) = false ∧
      Instr.wf (.presetAck 0 0 16 0 false) = false ∧ Instr.wf (.timeFlitSend 0 16000) = false ∧
      Instr.wf (.handshake 0 ⟨true, true, 4096, 0, 0, 0, 0, 0, 0⟩) = false ∧ Instr.wf (.equalizationLoop 0 ⟨[], 0, 0, 0, 0⟩) = false := by decide +kernel

/-- A domain, an octant, a lane, a number of readings, a slot, a rope or a value out of range. -/
theorem test_ill_management :
    Instr.wf (.pdOn .hk 16) = false ∧ Instr.wf (.domainWake 16 true ⟨[], [], [], 0⟩) = false ∧ Instr.wf (.clockLoop 8) = false ∧
      Instr.wf (.thresholdLoop 0 72 0) = false ∧ Instr.wf (.thermalSensorRead ⟨[], []⟩) = false ∧ Instr.wf (.vrPgRise 0) = false ∧
      Instr.wf (.relay 0 { cantorZero with payload := List.replicate 257 0 } none) = false ∧ Instr.wf (.utcSet (2 ^ 64)) = false ∧
      Instr.wf (.cloneAllow (2 ^ 64)) = false ∧ Instr.wf (.setEventReceiver 256) = false ∧ Instr.wf (.sensorSample ⟨1, [], [], [], [], [], [], 0, 0, 0, 0, 0, 0, 0⟩) = false ∧
      Instr.wf (.ropeReading 4 ⟨1, 1, 1, 1, 1, 1⟩) = false ∧ Instr.wf (.ropeReading 0 ⟨1, 1, 1, 1, 0, 1⟩) = true ∧ Instr.wf (.valveCloseDelay 16) = false := by decide +kernel

/-- What holds of the device after a command that completes. -/
def shows (o : Host.Outcome State Fault Refusal) (f : State → Bool) : Bool :=
  match o with
  | .next t => f t
  | _ => false

/-- The command is refused as ill-formed. -/
def refusedIll (o : Host.Outcome State Fault Refusal) : Bool :=
  match o with
  | .refused .illFormed => true
  | _ => false

/-- A command that is not well formed is refused. -/
theorem test_ill_is_refused :
    refusedIll (exec (.taskStart 256) State.reset) = true ∧ refusedIll (exec (.pdOn .hk 16) State.reset) = true := by decide +kernel

/-! ### Values of the spec -/

/-- Chapter 7's example of a slice's random sequence: the ways of its two victims are the partition's ways 3 and 2. -/
theorem test_victim_sequence :
    lfsrStep 0x00000001 = 0x80200003 ∧ lfsrStep 0x80200003 = 0xC0300002 ∧ (0x80200003 : Nat) % 4 = 3 ∧ (0xC0300002 : Nat) % 4 = 2 := by decide +kernel

/-- Chapter 15's example: where DPA 0x40_1234_5678 lies. -/
theorem test_memory_place :
    groupOf 0x4012345678 = 20 ∧ channelOf 0x4012345678 = 169 ∧ pcOf 0x4012345678 = 0 ∧ dpaOf 169 0 0x00123578 = 0x4012345678 := by decide +kernel

/-- Chapter 15's example: the low doubleword of the record in RETIRE_PENDING. -/
theorem test_retire_record : Retire.code ⟨0, 0x401234, 1, 2, 169⟩ = 0x4012340102A90000 := by decide +kernel

/-- Chapter 16's example: the links and virtual channels by which a packet leaves chips 13, 5, 21 and 53. -/
def hopS (chip e : Nat) : State :=
  ready fun d => obj O.CHIP_ID chip (obj (O.ROUTE_TABLE 50) e ((List.range 20).foldl (fun (d : Dev) l => obj (O.LINK_STATE l) 3 d) d))
def hopP : FPacket := ⟨0, 0, 0x2A, 1, 1, false, 13, 50, 0, List.replicate 16 0⟩
theorem test_route :
    (hopS 13 0xC0001404).dev.forward hopP = .inl (5, 1) ∧ (hopS 5 0xE0001C06).dev.forward hopP = .inl (7, 5) ∧
      (hopS 21 0xE0004408).dev.forward hopP = .inl (17, 5) ∧ (hopS 53 0xA000000A).dev.forward hopP = .inl (10, 5) := by decide +kernel

/-- The same example: with TL_7 down, chip 5 sends on TL_6; with both down it drops the packet for ERR_LINK, reason 1. -/
theorem test_route_spread :
    Dev.forward (obj (O.LINK_STATE 7) 1 (hopS 5 0xE0001C06).dev) hopP = .inl (6, 5) ∧
      Dev.forward (obj (O.LINK_STATE 6) 1 (obj (O.LINK_STATE 7) 1 (hopS 5 0xE0001C06).dev)) hopP = .inr (0x0F, 1, 7) := by decide +kernel

/-- Chapter 16's exchange of time: an offset of 5.5625 ns and a delay of 209.8125 ns, in sixteenths. -/
def timeS : State :=
  ready fun d => Dev.onLink (obj O.TIME_PARENT 2 (obj O.TIME_STATE 2 (obj O.TIME_STEP_THRESHOLD 1000 (obj (O.LINK_STATE 2) 3 (obj (O.LINK_ENABLE 2) 1 { d with time := 1000420 })))))
    2 fun k => { k with txTimes := [16000000] }
theorem test_time_exchange :
    shows (exec (.timeFlitReceive 2 4 ⟨16003456, 16000000, 16003446, 2, true, 1, 0, true, 0⟩) timeS) (fun t =>
      t.dev.fab.offsets = [89] ∧ t.dev.oget (O.LINK_DELAY 2) = 3357 ∧ t.dev.oget O.TIME_DEPTH = 2 ∧ t.dev.fab.slew = 89) = true := by decide +kernel

/-- Chapter 18's example: a read burst of 8 bytes at DP_ADDR 0x7104_0200 on the PF's port reads LINK_STATE of TL_4, 3 for UP; one of 4 bytes at
0x7003_0019 reads the entry of DEST 50. -/
def portS (x : DPort) (k v : Nat) : State := ready fun d => (obj k v d).setPort 0 x
def port0 : DPort := (ready id).dev.port 0
theorem test_port_read :
    shows (exec (.dpReadBurst 0 0x80000007 .none) (portS { port0 with addr := 0x71040200 } (O.LINK_STATE 4) 3)) (fun t =>
      (t.dev.port 0).goLen = 8 ∧ (t.dev.port 0).index = 0x7104 ∧ (t.dev.port 0).sub = 2 ∧ (t.dev.port 0).off = 0) = true ∧
    shows (exec (.dpBurstDone 0) (portS { port0 with goAddr := 0x71040200, goLen := 8, busy := true, stage := 1 } (O.LINK_STATE 4) 3)) (fun t =>
      (t.dev.port 0).buf = leBytes 8 3) = true ∧
    shows (exec (.dpBurstDone 0) (portS { port0 with goAddr := 0x70030019, goLen := 4, busy := true, stage := 1 } (O.ROUTE_TABLE 50) 0xC0001404)) (fun t =>
      (t.dev.port 0).buf = leBytes 4 0xC0001404) = true := by decide +kernel

/-- The same example: the packed word lands at byte 204, the entry of DEST 51, and DP_STATUS reads 0x4008_0000. -/
def burst0 : DPort :=
  { port0 with goAddr := 0x70030019, goHi := 0x04000000, goLen := 4, dir := true, busy := true, stage := 4, count := 8, buf := leBytes 8 0xC0001404 }
theorem test_port_write :
    shows (exec (.dpBurstDone 0) (portS burst0 (O.ROUTE_TABLE 50) 0xC0001404)) (fun t =>
      t.dev.oget (O.ROUTE_TABLE 51) = 0xC0001404 ∧ t.dev.oget (O.ROUTE_TABLE 50) = 0xC0001404 ∧ (t.dev.port 0).statusWord = 0x40080000) = true := by
  decide +kernel

/-- Chapter 18's example: 62.25 °C on STACK_0 reads F9 00. -/
theorem test_stack_temp :
    shows (exec (.stackTempRead 0 249) (ready id)) (fun t => leBytes 2 (t.dev.oget (O.STACK_TEMP 0)) = [0xF9, 0x00]) = true := by decide +kernel

/-- An empty queue idles, and a command at its front is carried out (assumption 2). -/
theorem test_step :
    shows (step State.reset) (fun t => t = State.reset) = true ∧
      shows (step { State.reset with pending := [.idcode, .bypass] }) (fun t =>
        t.pending = [.bypass] ∧ t.dev.out.head? = some (.tdo 0x10880B47)) = true := by decide +kernel

end Sys2Proof.Tests
end

