-- ==== Sys2Proof/Tests/WitnessCache.lean ====
section
/-! SUPPORT. Tests/WitnessCache.lean: for each statement about the L2, the crossing, translation and the memory controllers, states and commands
that meet its hypotheses. -/

namespace Sys2Proof.Tests

open Sys2Proof Sys2Proof.Machine Sys2Proof.Claims

set_option Elab.async false

/-! ### The L2 and the crossing -/

/-- A request of tenant 0 for the last line of the north die's first 64 KiB. -/
def req0 (write : Bool) : L2Req := ⟨260, 0, 0xFF80, write, 1, 5, 0, 1, 15, 512⟩

/-- The device READY, with a line of an owner in L2. -/
def lineState (owner : Nat) : State :=
  ready fun d => { d with l2 := { d.l2 with lines := [(0x1FF, ⟨owner, 15, false, 0, 7, 0⟩)] } }

/-- A fetch of the line of `req0` for an owner, with `n` requests to serve, changed by `f`. -/
def fetchState (owner n : Nat) (f : L2 → L2 := id) : State :=
  ready fun d => { d with l2 := f { d.l2 with mshrs := [⟨0x1FF, some 15, { req0 false with owner := owner },
    List.replicate n ({ req0 false with owner := owner }, false)⟩] } }

/-- What keeps a request for a line that is absent from being taken does not hold. -/
def l2Takes (d : Dev) (r : L2Req) : Prop :=
  r.ok = true ∧ d.quiescing (2 + sliceOf (r.dpa / 128) / 48) = false ∧ d.l2.held = [] ∧ d.logs.badSlots.contains r.key = false ∧
    d.l2.crossFailed = false

/-- The hypotheses of LookupsHitMergeOrWait are met: a quiesced slice, a request behind one of its owner that waits, a read and a write that
find their line, a read that finds none and takes the last way, the first being no way of its partition, and requests that find a
fetch of their owner, full or not, or of another. -/
theorem witness_LookupsHitMergeOrWait :
    (∃ (s : State) (r : L2Req), r.ok = true ∧ s.dev.quiescing (2 + sliceOf (r.dpa / 128) / 48) = true) ∧
    (∃ (s : State) (r : L2Req), r.ok = true ∧ s.dev.quiescing (2 + sliceOf (r.dpa / 128) / 48) = false ∧ s.dev.l2Blocked r = true) ∧
    (∀ write, ∃ (s : State) (r : L2Req) (l : L2Line), r.ok = true ∧ s.dev.quiescing (2 + sliceOf (r.dpa / 128) / 48) = false ∧
      l2Present s.dev r.owner r.key r.dpa l ∧ r.write = write) ∧
    (∃ (s : State) (r : L2Req), l2Takes s.dev r ∧ mget s.dev.l2.lines (r.dpa / 128) = none ∧ r.write = false ∧
      s.dev.l2.mshrs.any (fun m => m.line = r.dpa / 128) = false ∧ s.dev.l2NoAlloc r = false ∧ s.dev.mshrFree r = true ∧
      freeWay s.dev r 15 ∧ ∀ u < 15, ¬ freeWay s.dev r u) ∧
    ∀ e ∈ [(0, 16), (1, 1), (0, 17)], ∃ (s : State) (r : L2Req) (m : Mshr), l2Takes s.dev r ∧
      s.dev.l2.mshrs.find? (fun m => m.line = r.dpa / 128) = some m ∧ m.first.owner = e.1 ∧ r.owner = 0 ∧ m.reqs.length = e.2 := by
  refine ⟨⟨ready (quieted (2 + sliceOf 0x1FF / 48)), req0 false, by decide +kernel⟩,
    ⟨ready fun d => { d with l2 := { d.l2 with held := [(req0 false, false)] } }, req0 false, by decide +kernel⟩, fun write => ?_,
    ⟨ready (obj (O.L2_PARTITION 15) (2 ^ 15)), req0 false, by delta l2Takes freeWay; decide +kernel⟩, fun e he => ?_⟩
  · refine ⟨lineState 0, req0 write, ⟨0, 15, false, 0, 7, 0⟩, ?_⟩
    delta l2Present
    cases write <;> decide +kernel
  · refine ⟨fetchState e.1 e.2, req0 false, ⟨0x1FF, some 15, { req0 false with owner := e.1 }, List.replicate e.2 ({ req0 false with owner := e.1 }, false)⟩, ?_⟩
    delta l2Takes
    fin_cases he <;> decide +kernel

/-- The hypotheses of FillsInstallTheLine are met. -/
theorem witness_FillsInstallTheLine : ∃ (s : State) (a : Nat) (r : L2Req) (w : Nat),
    s.dev.l2.mshrs.find? (fun m => m.line = a) = some ⟨a, some w, r, [(r, false)]⟩ ∧ r.write = false ∧
    s.dev.l2.crossFailed = false ∧ s.dev.l2.held = [] ∧ s.dev.l2.resps = [] ∧ s.dev.l2.inWay (setOf a) w = none :=
  ⟨fetchState 0 1, 0x1FF, req0 false, 15, by decide +kernel⟩

/-- The hypotheses of CrossingFailuresAndSteering are met: a failure, the eighth in a row, a failed crossing, the last module and a
sub-array that is and one that is not being steered. -/
theorem witness_CrossingFailuresAndSteering :
    (∃ s : State, s.dev.l2.crossFailed = false ∧ dget 0 s.dev.l2.crossFails 1 = 7) ∧ (∃ s : State, s.dev.l2.crossFailed = true) ∧
    (∃ s : State, bits (s.dev.oget O.CROSSING_MODULES) 8 8 = 0) ∧ (∃ s : State, bits (s.dev.oget O.CROSSING_MODULES) 8 8 ≠ 0) ∧
    (∃ s : State, s.dev.l2.steering.contains (95, 31, 65535) = false) ∧ (∃ s : State, s.dev.l2.steering.contains (95, 31, 65535) = true) :=
  ⟨⟨ready fun d => { d with l2 := { d.l2 with crossFails := [(1, 7)] } }, by decide +kernel⟩,
   ⟨ready fun d => { d with l2 := { d.l2 with crossFailed := true } }, by decide +kernel⟩,
   ⟨ready (obj O.CROSSING_MODULES 0x10), by decide +kernel⟩, ⟨ready (obj O.CROSSING_MODULES 0x1010), by decide +kernel⟩,
   ⟨ready id, by decide +kernel⟩, ⟨ready fun d => { d with l2 := { d.l2 with steering := [(95, 31, 65535)] } }, by decide +kernel⟩⟩

/-- The hypotheses of MaintenanceClearsItsSelection are met. -/
theorem witness_MaintenanceClearsItsSelection :
    (∃ s p, mayWrite s p 0x3220 6 ∧ s.dev.oget (O.PD_STATE 2) = 2 ∧ s.dev.oget (O.PD_STATE 3) = 2 ∧ s.dev.oget O.MAINT_STATUS = 1) ∧
    (∃ s p, mayWrite s p 0x3220 6 ∧ s.dev.oget (O.PD_STATE 2) = 2 ∧ s.dev.oget (O.PD_STATE 3) = 2 ∧ s.dev.oget O.MAINT_STATUS ≠ 1) ∧
    (∀ scan ≤ 1024, ∃ (s : State) (m : Maint), s.dev.l2.maint = some m ∧ keysRise s.dev.l2.lines = true ∧ m.scan = scan ∧
      mget s.dev.l2.lines 0x1FF = some ⟨0, 15, true, 0, 7, 0⟩) :=
  ⟨⟨ready (obj O.MAINT_STATUS 1), .hk, by delta mayWrite; decide +kernel⟩, ⟨ready id, .hk, by delta mayWrite; decide +kernel⟩,
   fun scan _ => ⟨ready fun d => { d with l2 := { d.l2 with maint := some ⟨0, 0, 0, 0, 0, scan⟩, lines := [(0x1FF, ⟨0, 15, true, 0, 7, 0⟩)] } },
     _, rfl, by rfl, rfl, by rfl⟩⟩

/-! ### Translation -/

/-- Page tables in device memory for the page of `window0`: tables at 0x100000, 0x108000 and 0x110000, the leaf at DPA 0x20000. -/
def walkState : State :=
  ready fun d => obj (O.PT_ROOT 0) 0x100000 { d with
    tr := { d.tr with wins := [(0, window0)] },
    mem := { d.mem with cells := [(0x100000, 3), (0x100001, 0x80), (0x100002, 0x10), (0x108000, 3), (0x108002, 0x11), (0x110008, 0x1D),
      (0x11000A, 2)] } }

/-- The hypotheses of WalkedLeavesAreInstalled are met: with a cached leaf, with a walk, and with and without a reload. -/
theorem witness_WalkedLeavesAreInstalled :
    (∃ (s : State) (win : Nat) (w : Window) (d1 : _) (e : _) (i : _) (w' : _) (x : _), s.dev.windowAt 0 0x1FFFF = some (win, w) ∧ w.home ≠ 3 ∧ permits w.r w.w w.x 3 = true ∧
      s.dev.tr.reloads.contains (dieOfEngine 0) = false ∧ s.dev.tlbFind 0 (dieOfEngine 0) 0 win 0x1FFFF = (d1, some e) ∧ leafChecks d1 win w e 0x1FFFF 3 = .dev i w' x) ∧
    (∃ (s : State) (win : Nat) (w : Window) (d1 : _) (d2 : _) (e : _) (i : _) (w' : _) (x : _), s.dev.windowAt 0 0x1FFFF = some (win, w) ∧ w.home ≠ 3 ∧ permits w.r w.w w.x 3 = true ∧
      s.dev.tr.reloads.contains (dieOfEngine 0) = false ∧ s.dev.tlbFind 0 (dieOfEngine 0) 0 win 0x1FFFF = (d1, none) ∧ d1.walk (dieOfEngine 0) 0 win 0x1FFFF = (d2, .inl e) ∧
      leafChecks d2 win w e 0x1FFFF 3 = .dev i w' x) ∧
    ∀ r, ∃ (s : State) (eng : Nat), engineOk eng = true ∧ s.dev.tr.reloads.contains (dieOfEngine eng) = r ∧ (s.dev.errLog 256).entries.length < 8 :=
  ⟨⟨mapped (ready id), 0, window0, _, _, _, _, _, by decide +kernel, by decide +kernel, by decide +kernel, by decide +kernel, rfl, rfl⟩,
   ⟨walkState, 0, window0, _, (walkState.dev.tlbFind 0 0 0 0 0x1FFFF).1.walk 0 0 0 0x1FFFF |>.1, ⟨0, 0, false, 1, 0, 0x20000, true, true, true⟩, 0, window0,
    0x2FFFF, by decide +kernel, by decide +kernel, by decide +kernel, by decide +kernel, rfl, by decide +kernel, by decide +kernel⟩,
   fun r => ⟨ready fun d => { d with tr := { d.tr with reloads := if r then [1] else [0] } }, 0xFF, by cases r <;> decide +kernel⟩⟩

end Sys2Proof.Tests
end

