-- ==== Sys2Proof/Tests/WitnessClr.lean ====
section
/-! SUPPORT. Tests/WitnessClr.lean: for each statement about the Clerestory, containment and the lifetime record, states and commands that meet
its hypotheses, at boundaries of their ranges. -/

namespace Sys2Proof.Tests

open Sys2Proof Sys2Proof.Machine Sys2Proof.Claims

set_option Elab.async false

/-- Part of the Clerestory is set. -/
def clr (f : Cleres → Cleres) (d : Dev) : Dev := { d with clr := f d.clr }

/-- The kernel ring of 4 KiB in host memory at 0x10000. -/
def ringed (d : Dev) : Dev := obj O.CLR_RING_BASE 0x10000 (obj O.CLR_RING_SIZE 4096 (clr (fun c => { c with unset := false }) d))

/-- That ring full, with the read of GET outstanding. -/
def fullRing (d : Dev) : Dev :=
  clr (fun c => { c with put := 4032, get := 0 })
    (ringed { d with host := { d.host with reads := [⟨0, 0, 0x10008, 8, useClrGet, 0, .ring, true, false⟩] } })

/-! ### The Clerestory -/

theorem fullRing_waits (s : State) (put : s.dev.clr.put = 4032) (get : s.dev.clr.get = 0) (size : s.dev.oget O.CLR_RING_SIZE = 4096)
    (h1 : s.dev.clrUnset = false) (h2 : s.dev.oget O.CLR_RING_SPACE = 0) (h3 : ∃ x ∈ s.dev.host.reads, x.use = useClrGet ∧ x.arg = 0)
    (h4 : s.dev.clr.staged = []) : RingWaits s.dev :=
  ⟨h1, h2, h3, fun n hn => by rw [put, get, size]; simp [ringRoom, ringPlace]; omega, by simp [h4]⟩

/-- A sample of every block is due, with tokens for it or one fewer. -/
def sampling (tokens : Nat) : State :=
  ready fun d => obj O.SAMPLE_PERIOD 1000 (obj O.SAMPLE_MASK 15 (obj O.CLR_TOKENS tokens (fullRing d)))

/-- The hypotheses of CountersAndSamplesAreRecorded are met. -/
theorem witness_CountersAndSamplesAreRecorded :
    (∃ (s : State) (p : Path), mayWrite s p 0x9030 0 ∧ countersOk s.dev ∧ s.dev.clr.counters = [(0, 5), (3 * 65536 + 65535, 2 ^ 64 + 1)]) ∧
    (∃ s : State, ¬ sampleDue s.dev) ∧
    (∃ s : State, sampleDue s.dev ∧ countersOk s.dev ∧ s.dev.clrUnset = true) ∧
    (∃ s : State, sampleDue s.dev ∧ countersOk s.dev ∧ s.dev.clrUnset = false ∧ s.dev.oget O.SAMPLE_MASK = 15 ∧ s.dev.oget O.CLR_TOKENS = 40255) ∧
    (∃ s : State, sampleDue s.dev ∧ countersOk s.dev ∧ s.dev.clrUnset = false ∧ s.dev.oget O.SAMPLE_MASK = 15 ∧
      s.dev.oget O.CLR_TOKENS = 64 + 16384 + 6144 + 16384 + 1280 ∧ s.dev.clr.stagedBytes = 0 ∧ RingWaits s.dev) ∧
    (∃ s : State, s.dev.time % 1000000 ≠ 0) ∧
    (∃ s : State, s.dev.time % 1000000 = 0 ∧ s.dev.clr.lost ≠ [] ∧ RingWaits s.dev) ∧
    (∃ (s : State) (p : Path), mayWrite s p 0x9010 1 ∧ s.dev.oget O.CLR_RING_SPACE ≠ 1 ∧ s.dev.clr.put ≠ s.dev.clr.get ∧
      s.dev.oget O.CLR_RING_BASE = 0) ∧
    (∃ (s : State) (p : Path), mayWrite s p 0x9010 1 ∧ s.dev.oget O.CLR_RING_SPACE ≠ 1 ∧ s.dev.clr.put = s.dev.clr.get) := by
  refine ⟨⟨ready (clr fun c => { c with counters := [(0, 5), (3 * 65536 + 65535, 2 ^ 64 + 1)] }), .hk, ?_⟩, ⟨ready id, ?_⟩,
    ⟨ready (obj O.SAMPLE_PERIOD 1000), ?_⟩, ⟨sampling 40255, ?_⟩,
    ⟨sampling 40256, ?_, ?_, ?_, ?_, ?_, ?_, fullRing_waits _ ?_ ?_ ?_ ?_ ?_ ?_ ?_⟩, ⟨ready fun d => { d with time := 4999999 }, ?_⟩,
    ⟨ready fun d => fullRing (clr (fun c => { c with lost := [(4, 1)] }) d), ?_, ?_, fullRing_waits _ ?_ ?_ ?_ ?_ ?_ ?_ ?_⟩,
    ⟨ready (clr fun c => { c with put := 64 }), .hk, ?_⟩, ⟨ready id, .hk, ?_⟩⟩
  all_goals (try delta mayWrite)
  all_goals (try delta sampleDue)
  all_goals (try delta countersOk)
  all_goals decide +kernel

/-- A running task that a snapshot may name. -/
def snapping (f : Dev → Dev) : State :=
  ready fun d => f { (d.setCore 0 { Core.reset with state := 2, task := some task0, started := true }) with prec := { d.prec with nodes := [{ node0 with queue := 15 }] } }

/-- A snapshot record of 8 KiB. -/
def snap0 : ClrRec := ⟨4, 0, 8192, 1, []⟩

/-- A watch of the kernel in queue 0, and its capture. -/
def armed0 : Armed := ⟨256, 0, List.replicate 16 0, 0, 0, 1, 2⟩
def cap0 (started : Bool) (status : Nat) : Capture := ⟨armed0, 0, 0, status, false, false, false, 7, started, 0, 256, false, [], []⟩

/-- The kernel's watch ring of 4 KiB, at 64 KiB in the kernel's window 0, home on the south die. -/
def watched (f : Dev → Dev) : State :=
  let w : Window := { window0 with base := 0, size := 2 ^ 40, home := 2, x := false }
  let e : TlbEntry := ⟨256, 0, false, 0x10000 / 65536, 0, 0x10000, true, true, false⟩
  ready fun d => f (obj (O.WATCH_BUFS 512) 0x10000 (obj (O.WATCH_BUFS 513) 4096 { d with tr := { d.tr with wins := [(64 * 256, w)], utlb := [(0x4000, [e])] } }))

/-- The states after the three writes of a record without data whose capture has started. -/
def capS : State := watched (clr fun c => { c with captures := [{ cap0 true 4 with len := 64 }], capTokens := 64 })
def capHdr : List Byte := Capture.header { cap0 true 4 with len := 64 } 4 0 0
def capW1 : Dev × VRes := capS.dev.vaWrite 0x4000 256 (0x10000 + 64 + 8) (capHdr.drop 8) false
def capW2 : Dev × VRes := capW1.1.vaWrite 0x4000 256 (0x10000 + 64) (capHdr.take 8) false
def capW3 : Dev × VRes := capW2.1.vaWrite 0x4000 256 0x10000 (leBytes 8 64) false

/-- The hypotheses of SnapshotsAndWatchesAreWritten are met. -/
theorem witness_SnapshotsAndWatchesAreWritten :
    (∃ (s : State) (p : Path), mayWrite s p 0x9050 0 ∧ bits (2 * 2 ^ 32 + 65536 + 512) 9 7 ≠ 0 ∧ 256 < bits (257 : Nat) 0 9) ∧
    (∃ (s : State) (p : Path), mayWrite s p 0x9050 0 ∧ ∀ q < 16,
      ((s.dev.nodeIn 256 q 65535 7).filter fun x => x.state = .running && x.opc = 1) = none) ∧
    (∀ full, ∃ (s : State) (p : Path), mayWrite s p 0x9050 0 ∧
      ((s.dev.nodeIn 0 15 1 2).filter fun x => x.state = .running && x.opc = 1) = some { node0 with queue := 15 } ∧
      (∀ r < 15, ((s.dev.nodeIn 0 r 1 2).filter fun x => x.state = .running && x.opc = 1) = none) ∧ (s.dev.core node0.core).task.isSome = true ∧
      s.dev.clr.snap.isSome = full) ∧
    (∀ k, 1 ≤ k → k ≤ 3 → ∃ (s : State) (r : ClrRec), s.dev.clr.snap = none ∧ s.dev.clr.staged[1]? = some r ∧ r.kind = k) ∧
    (∃ (s : State) (r : ClrRec), s.dev.clr.snap = some r ∧ s.dev.clrUnset = false ∧ s.dev.clr.snapTokens + 1 = r.length) ∧
    storeError .clean ∧
    (∃ (s : State) (r : ClrRec), s.dev.clr.snap = some r ∧ s.dev.clrUnset = false ∧ r.length = s.dev.clr.snapTokens ∧ s.dev.clr.staged = [] ∧
      s.dev.oget O.CLR_RING_SPACE = 0 ∧ ringRoom (s.dev.oget O.CLR_RING_SIZE) s.dev.clr.put s.dev.clr.get r.length = true ∧ 0 < r.length) ∧
    (∃ s : State, s.dev.clr.captures = []) ∧
    (∃ (s : State) (c : Capture), s.dev.clr.captures = [c] ∧ c.started = false ∧ (s.dev.watchBuf c.watch.owner).2 = 0) ∧
    (∀ st, st ≤ 5 → ∃ (s : State) (c : Capture), s.dev.clr.captures = [c] ∧ c.started = false ∧ c.status = st ∧ (s.dev.watchBuf c.watch.owner).2 ≠ 0 ∧
      ringRoom (s.dev.watchBuf c.watch.owner).2 (s.dev.wring c.watch.owner).put (s.dev.wring c.watch.owner).get c.bytes = true) ∧
    (∃ (s : State) (c : Capture), s.dev.clr.captures = [c] ∧ c.started = true ∧ c.torn = false ∧ c.stale = false ∧ s.dev.clr.capTokens < c.len) := by
  refine ⟨⟨ready id, .hk, ?_⟩, ⟨snapping id, .hk, ?_⟩, fun full => ⟨snapping (clr fun c => { c with snap := if full then some snap0 else none }), .hk, ?_⟩,
    fun k _ _ => ⟨ready (clr fun c => { c with snap := none, staged := [snap0, ⟨k, 0, 64, 1, []⟩] }), ⟨k, 0, 64, 1, []⟩, rfl, rfl, rfl⟩,
    ⟨ready fun d => ringed (clr (fun c => { c with snap := some snap0, snapTokens := 8191 }) d), snap0, ?_⟩, trivial,
    ⟨ready fun d => obj O.CLR_RING_SIZE 16384 (ringed (clr (fun c => { c with snap := some snap0, snapTokens := 8192 }) d)), snap0, ?_⟩, ⟨ready id, ?_⟩,
    ⟨ready (clr fun c => { c with captures := [cap0 false 0] }), cap0 false 0, ?_⟩,
    fun st h => ⟨watched (clr fun c => { c with captures := [cap0 false st] }), cap0 false st, ?_⟩,
    ⟨watched (clr fun c => { c with captures := [cap0 true 0], capTokens := 255 }), cap0 true 0, ?_⟩⟩
  all_goals (try delta mayWrite)
  all_goals decide +kernel +revert

/-- The hypotheses about the writing of a record without data are met: the header after its first doubleword, that doubleword, and PUT. -/
theorem witness_WatchRecordsAreWritten :
    (capS.dev.clr.captures = [{ cap0 true 4 with len := 64 }] ∧ (64 : Nat) ≤ capS.dev.clr.capTokens ∧ capS.dev.watchBuf 256 = (0x10000, 4096)) ∧
      capW1 = (capW1.1, .ok [] false) ∧ capW2 = (capW2.1, .ok [] false) ∧ capW3 = (capW3.1, .ok [] false) :=
  ⟨by decide +kernel, Prod.ext rfl (by decide +kernel), Prod.ext rfl (by decide +kernel), Prod.ext rfl (by decide +kernel)⟩

/-! ### Containment -/

/-- The kernel's log holds `n` entries. -/
def logged (n : Nat) (d : Dev) : Dev :=
  { d with logs := { d.logs with logs := [(256, ⟨List.replicate n ⟨0, 0, 0, 0, 0x1FF, 0, 0, 0, 0, false, false, false, false, .note, 0, 1⟩, 3, n⟩)] } }

/-- `n` handlings wait, for tenants other than 0. -/
def waiting (n : Nat) (d : Dev) : Dev := { d with logs := { d.logs with queue := (List.range n).map fun i => ⟨.contained, i + 1, 1, 0, 0, false, false⟩ } }

/-- An error. -/
def err0 (sev : Sev) (owner : Nat) : Err := { cause := 5, detail := 1, sev := sev, owner := owner }

/-- The cases of ErrorsAreLoggedAndHandled are met: a teardown starts with 63 waiting and is escalated with 64, an error is folded, a device
error fails the device, a note is logged for the kernel or a tenant; a log holds 7, 8 and 15 entries. -/
theorem witness_ErrorsAreLoggedAndHandled :
    (∃ (d : Dev) (e : Err), e.sev = .contained ∧ e.owner < 256 ∧ d.tearing e.owner = false ∧ d.logs.queue.length = 63) ∧
    (∃ (d : Dev) (e : Err), e.sev = .contained ∧ e.owner < 256 ∧ d.tearing e.owner = false ∧ d.logs.queue.length = 64) ∧
    (∃ (d : Dev) (e : Err), e.sev = .contained ∧ e.owner < 256 ∧ d.tearing e.owner = true ∧ d.oget (O.TENANT_STATE e.owner) ≠ 0) ∧
    (∃ (d : Dev) (e : Err), e.sev = .device ∧ d.failed = false) ∧ (∃ (_ : Dev) (e : Err), e.sev = .note ∧ e.owner = 511) ∧
    (∀ n, n ∈ [0, 7, 8, 15, 16] → ∃ d : Dev, (d.errLog 256).entries.length = n) := by
  refine ⟨⟨(ready (waiting 63)).dev, err0 .contained 0, ?_⟩, ⟨(ready (waiting 64)).dev, err0 .contained 0, ?_⟩,
    ⟨(ready (obj (O.TENANT_STATE 0) 2)).dev, err0 .contained 0, ?_⟩, ⟨(ready id).dev, err0 .device 511, ?_⟩, ⟨(ready id).dev, err0 .note 511, ?_⟩,
    fun n h => ⟨(ready (logged n)).dev, ?_⟩⟩
  case refine_6 => simp only [List.mem_cons, List.not_mem_nil, or_false] at h
                   rcases h with rfl | rfl | rfl | rfl | rfl <;> decide +kernel
  all_goals decide +kernel

/-- A teardown of tenant 255 at a step. -/
def tearDown (step : Nat) : State :=
  ready fun d => obj (O.TENANT_STATE 255) 2 { d with logs := { d.logs with teardowns := [⟨255, step, 5, 1, 0, false, false⟩] } }

/-- Two tandem cores whose signatures differ or agree. -/
def paired (sig : Nat) : State :=
  ready fun d => (d.setCore 2 { coreWith 0 (choirWith [] [] []) with task := some { task0 with tandem := 1 } }).setCore 3
    { coreWith 0 (choirWith [] [] []) with task := some { task0 with tandem := 2 }, sig := sig, sigRef := 1 }

/-- The hypotheses of TeardownsAndComparatorsAct are met. -/
theorem witness_TeardownsAndComparatorsAct :
    (∃ s : State, s.dev.failed = true) ∧ (∃ s : State, ∀ x ∈ s.dev.logs.teardowns, x.tenant ≠ 255) ∧
    (∀ n, 2 ≤ n → n ≤ 9 → ∃ (s : State) (x : Teardown), s.dev.failed = false ∧ s.dev.logs.teardowns.find? (fun x => x.tenant = 255) = some x ∧ x.step = n ∧
      x.release = false ∧ x.flr = false) ∧
    (∀ n, n ∈ [1, 16] → ∃ (s : State) (p : Path), mayWrite s p 0x8010 5 ∧ (s.dev.errLog (s.dev.sel p).logSel).entries.length = n) ∧
    (∃ s : State, s.dev.keyDraw 256 = 0) ∧ (∃ s : State, s.dev.logs.badSlots.contains 256 = true) ∧
    (∃ s : State, s.dev.keyDraw 256 ≠ 0 ∧ s.dev.logs.badSlots.contains 256 = false) ∧
    (∃ (s : State) (t : TaskRun), (s.dev.core 3).task = some t ∧ t.tandem ≠ 2) ∧
    (∀ sig, sig ∈ [1, 2] → ∃ (s : State) (t : TaskRun), (s.dev.core 3).task = some t ∧ (t.tandem = 2 ∧ t.unverified = false ∧ (s.dev.core 3).started = true ∧
      (s.dev.core 3).exc = none) ∧ (s.dev.core 3).sigRef = 1 ∧ (s.dev.core 3).sig = sig ∧ (s.dev.core (3 - 1)).task.isSome = true ∧
      (s.dev.core (3 - 1)).exc = none) ∧
    (∀ due, ∃ s : State, s.dev.tandemTasks 63 = [] ∧ s.dev.inTandem 63 = true ∧ s.dev.testDue 63 = due) ∧
    (∃ (s : State) (t : TaskRun), s.dev.tandemTasks 63 = [(254, t)] ∧ t.restartable = false) := by
  refine ⟨⟨ready (obj O.DEVICE_STATUS 1), ?_⟩, ⟨ready id, ?_⟩, fun n _ _ => ⟨tearDown n, ⟨255, n, 5, 1, 0, false, false⟩, ?_⟩,
    fun n h => ⟨ready (logged n), .hk, ?_⟩, ⟨ready id, ?_⟩, ⟨ready fun d => { d with logs := { d.logs with badSlots := [256] } }, ?_⟩,
    ⟨ready fun d => { d with logs := { d.logs with keyGen := [(256, 9)] } }, ?_⟩,
    ⟨ready fun d => d.setCore 3 { coreWith 0 (choirWith [] [] []) with task := some task0 }, task0, ?_⟩,
    fun sig h => ⟨paired sig, { task0 with tandem := 2 }, ?_⟩, fun due => ⟨ready fun d => obj O.TANDEM_SERVICE (2 ^ 64 - 1) { d with time := if due then 5000000 else 5000001 }, ?_⟩,
    ⟨ready fun d => d.setCore 254 { coreWith 0 (choirWith [] [] []) with task := some { task0 with tandem := 1, restartable := false } }, { task0 with tandem := 1, restartable := false }, ?_⟩⟩
  case refine_3 =>
    rename_i h2 h9
    have : n = 2 ∨ n = 3 ∨ n = 4 ∨ n = 5 ∨ n = 6 ∨ n = 7 ∨ n = 8 ∨ n = 9 := by omega
    rcases this with rfl | rfl | rfl | rfl | rfl | rfl | rfl | rfl <;> decide +kernel
  all_goals (try simp only [List.mem_cons, List.not_mem_nil, or_false] at h)
  all_goals (try rcases h with rfl | rfl)
  all_goals (try delta mayWrite)
  all_goals decide +kernel +revert

/-! ### Lifetime -/

/-- Part of the lifetime record is set. -/
def lif (f : Life → Life) (d : Dev) : Dev := { d with life := f d.life }

/-- Octants and dies have read 25 degrees, and octant 7 `x`. -/
def felt (x : Int) (f : Life → Life) : State :=
  ready (lif fun l => f { l with peaks := (List.range 10).map fun k => (k, if k = 7 then x else 100) })

/-- A commit ends in 1 ns, or now. -/
def busied (b : Bool) (d : Dev) : Dev := lif (fun l => { l with busy := some (d.time + b2n b) }) d

/-- The crypt is read only. -/
def readOnly (d : Dev) : Dev := obj O.CRYPT_STATE 2 d

/-- A value of an object waits to be committed. -/
def committing (fails : List (Nat × Nat)) (f : Dev → Dev) : State :=
  ready fun d => f { d with dict := { d.dict with commits := [O.KEY_REVOKED], commitFails := fails } }

/-- The hypotheses of LifetimeIsRecorded are met. -/
theorem witness_LifetimeIsRecorded :
    (∃ (s : State) (p : Path), mayWrite s p 0xB003 1) ∧
    (∃ (s : State) (p : Path), mayWrite s p 0xA004 0 ∧ s.dev.cryptReadOnly = true) ∧
    (∀ b, ∃ (s : State) (p : Path), mayWrite s p 0xA004 0 ∧ s.dev.cryptReadOnly = false ∧ s.dev.committing = b) ∧
    (∃ d : Dev, d.life.again = false) ∧ (∀ b, ∃ d : Dev, d.life.again = true ∧ d.cryptReadOnly = false ∧ d.committing = b) ∧
    (∀ b, ∃ s : State, s.dev.boot.running.isSome = true ∧ s.dev.oget O.POWER_ON_SECONDS = 86400 ∧ s.dev.life.hour = 23 ∧
      s.dev.cryptReadOnly = false ∧ s.dev.committing = b) ∧
    (∃ s : State, s.dev.oget O.POWER_ON_SECONDS = 3599) ∧
    (∃ s : State, s.dev.boot.running = none) ∧
    (∀ m, ∀ x : Int, x ∈ [99, 100, 219, 220, 221] → ∃ s : State, s.dev.boot.running.isSome = true ∧ s.dev.life.peak = m ∧ s.dev.life.p = 220 ∧ s.dev.life.v = 100 ∧
      ((rangeFrom 0 10).map s.dev.secondMax).foldl max (-32768) = max x 100) ∧
    (∃ s : State, s.dev.life.peak = true ∧ s.dev.life.p = 219 ∧ ((rangeFrom 0 10).map s.dev.secondMax).foldl max (-32768) = 100) ∧
    (∀ st, st = 2 ∨ st = 3 → ∃ s : State, s.dev.oget (O.PD_STATE (4 + 7)) = st) ∧
    (∃ (s : State) (k : Nat), mget s.dev.dict.commitFails k = none ∧ s.dev.dict.commits.contains k = false) ∧
    (∃ (s : State) (k : Nat), mget s.dev.dict.commitFails k = none ∧ s.dev.dict.commits.contains k = true ∧ s.dev.cryptReadOnly = false) ∧
    (∃ (s : State) (k : Nat), mget s.dev.dict.commitFails k = none ∧ s.dev.dict.commits.contains k = true ∧ s.dev.cryptReadOnly = true) ∧
    (∀ n, n = 1 ∨ n = 2 → ∃ (s : State) (k : Nat), mget s.dev.dict.commitFails k = some n ∧ s.dev.dict.commits.contains k = true ∧ s.dev.cryptReadOnly = true) := by
  refine ⟨⟨ready id, .tc, ?_⟩, ⟨ready readOnly, .hk, ?_⟩, fun b => ⟨ready (busied b), .hk, ?_⟩,
    ⟨(ready id).dev, ?_⟩, fun b => ⟨(ready fun d => lif (fun l => { l with again := true }) (busied b d)).dev, ?_⟩,
    fun b => ⟨ready fun d => lif (fun l => { l with hour := 23 }) (obj O.POWER_ON_SECONDS 86400 (busied b d)), ?_⟩, ⟨ready (obj O.POWER_ON_SECONDS 3599), ?_⟩,
    ⟨ready fun d => { d with boot := { d.boot with running := none } }, ?_⟩,
    fun m x h => ⟨felt x fun l => { l with peak := m, p := 220, v := 100 }, ?_⟩, ⟨felt 0 fun l => { l with peak := true, p := 219, v := 100 }, ?_⟩,
    fun st h => ⟨ready (obj (O.PD_STATE 11) st), ?_⟩, ⟨committing [] id, O.MIN_SVN, ?_⟩, ⟨committing [] id, O.KEY_REVOKED, ?_⟩,
    ⟨committing [] readOnly, O.KEY_REVOKED, ?_⟩, fun n h => ⟨committing [(O.KEY_REVOKED, n)] readOnly, O.KEY_REVOKED, ?_⟩⟩
  case refine_9 =>
    simp only [List.mem_cons, List.not_mem_nil, or_false] at h
    cases m <;> rcases h with rfl | rfl | rfl | rfl | rfl <;> decide +kernel
  all_goals (try rcases h with rfl | rfl)
  all_goals (try delta mayWrite)
  all_goals decide +kernel +revert

end Sys2Proof.Tests
end

