-- ==== Sys2Proof/Tests/WitnessCore.lean ====
section
/-! SUPPORT. Tests/WitnessCore.lean: for each statement about device memory as a core sees it, tasks, the matrix unit, the Lark, Starling
and the caches, states and commands that meet its hypotheses. -/

namespace Sys2Proof.Tests

open Sys2Proof Sys2Proof.Machine Sys2Proof.Claims

set_option Elab.async false

/-! ### Global memory -/

/-- A choir whose uniform pair U2 holds the last word of the page, which its L1 line holds. -/
def globState (w : Nat) (f : Core → Core) : State :=
  mapped (withCore (f { coreWith w (choirWith [] [(2, 0x1FFFC)] []) with
    l1 := [(0x5FF, ⟨0, 2 ^ 128 - 1, 0, 7 * 2 ^ 992, 0, 0, 0, 0, 0⟩)], l1order := [(0x5FF % 64, [0])] }))

/-- The hypotheses of GlobalLoadsForwardOrHit are met. -/
theorem witness_GlobalLoadsForwardOrHit : Shows 0x64 (specLoad true) fun _ d x => ∃ t d1 rs, globFair d x (acting x) 0 t d1 rs ∧
    accScope x < 3 ∧ bits (iMod x.w) 10 2 ≠ 2 ∧ x.e = .none ∧ (∀ v ∈ acting x, (nearBytes (d1.core x.n) x.slot (dpaOf rs v) (accBytes x)).isSome = true) ∧
    (d1.core x.n).choir x.slot = x.h ∧ ((d1.core x.n).task.map (·.tandem)) = some 0 :=
  shows_of (globState (ins 0x64 4 2 0 0 0x102 0 0 (au := true)) id) (by decide +kernel)
    ⟨task0, _, _, ⟨by decide +kernel, by decide +kernel, by decide +kernel, rfl, all_onDie (by decide +kernel)⟩, by decide +kernel⟩

/-- A load of the last word of the page, whose line L1 does not hold, with MSHRs outstanding; L2 has one way for its partition. -/
def missState (ms : List L1Mshr) : State :=
  let s := globState (ins 0x64 4 2 0 0 0x102 0 0 (au := true)) fun c => { c with l1 := [], l1order := [], mshrs := ms }
  { s with dev := s.dev.oset (O.L2_PARTITION 0) (2 ^ 15) }

/-- The request of a core for line `a`. -/
def lineReq (a : Nat) : L2Req := ⟨0, 0, 128 * a, false, 0, 0, 0, 0, 0, 0⟩

/-- What the first clauses of LoadsWaitForTheirLines assume. -/
def Misses (ok : Dev → Ctx → L2Req → List L1Mshr → Prop) : Prop :=
  Shows 0x64 (specLoad true) fun _ d x => ∃ t d1 rs i w0 p, globFair d x (acting x) 0 t d1 rs ∧
    (accScope x < 3 ∧ accOrder x = 0 ∧ bits (iMod x.w) 10 2 ≠ 2 ∧ x.e = .none ∧ (d1.core x.n).choir x.slot = x.h ∧
      ((d1.core x.n).task.map (·.tandem)) = some 0 ∧
      (∀ v ∈ acting x, dpaOf rs v / 128 = 0x5FF ∧ (d1.core x.n).sbLook x.slot false (dpaOf rs v) (accBytes x) = .none) ∧
      mget (d1.core x.n).l1 0x5FF = none) ∧
    rs.head?.map (·.2.2) = some (.dev i w0 p) ∧ ok d1 x (winReq x.n t.owner w0 p false 0 0 0) (d1.core x.n).mshrs

/-- The hypotheses of LoadsWaitForTheirLines are met: a line with an MSHR of seven and of eight secondary misses, a full file, a free
MSHR, and a fill. -/
theorem witness_LoadsWaitForTheirLines :
    (Misses fun _ _ _ ms => ∃ m, ms.find? (fun m => m.req.dpa = 128 * 0x5FF) = some m ∧ m.slots.length = 8) ∧
    (Misses fun _ _ _ ms => ∃ m, ms.find? (fun m => m.req.dpa = 128 * 0x5FF) = some m ∧ m.slots.length = 9) ∧
    (Misses fun _ _ _ ms => ms.find? (fun m => m.req.dpa = 128 * 0x5FF) = none ∧ ms.length = 64) ∧
    (Misses fun d1 _ r ms => (ms.find? (fun m => m.req.dpa = 128 * 0x5FF) = none ∧ ms.length = 63 ∧ d1.quiescing (2 + sliceOf 0x5FF / 48) = false) ∧
      d1.l2.held = [] ∧ d1.logs.badSlots.contains r.key = false ∧ d1.l2.crossFailed = false ∧ mget d1.l2.lines 0x5FF = none ∧
      d1.l2.mshrs.any (fun m => m.line = 0x5FF) = false ∧ d1.l2NoAlloc r = false ∧ d1.mshrFree r = true ∧ freeWay d1 r 15 ∧
      ∀ u < 15, ¬ freeWay d1 r u) ∧
    (∃ (s : State) (a w n slot : Nat) (r : L2Req) (l : LoadWait),
      (s.dev.l2.mshrs.find? (fun m => m.line = a) = some ⟨a, some w, r, [(r, true)]⟩ ∧ r.write = false ∧ r.requester = n ∧
        r.dpa = 128 * a ∧ s.dev.l2.crossFailed = false ∧ s.dev.l2.held = [] ∧ s.dev.l2.resps = [] ∧ s.dev.l2.inWay (setOf a) w = none ∧
        s.dev.reachable r.dpa = true) ∧
      ((s.dev.core n).mshrs = [⟨r, [slot]⟩] ∧ mget (s.dev.core n).l1 a = none ∧ ((s.dev.core n).task.map (·.tandem)) = some 0 ∧
        ((s.dev.core n).choir slot).load = some l ∧ ∀ u, u ≠ slot → ((s.dev.core n).choir u).load = none) ∧
      l.vals = [] ∧ l.todo = [] ∧ l.lines = [a] ∧ l.await = [] ∧ l.order = 0 ∧ l.scope < 3 ∧ l.hint ≠ 2 ∧ l.uni = false ∧ l.size = 16 ∧
      l.voices.Pairwise (fun v u => v.1 ≠ u.1) ∧ l.voices.length = 2 ∧ ∀ v ∈ l.voices, v.1 < 32 ∧ v.2.1 = false ∧ v.2.2.1 / 128 = a) :=
  ⟨shows_of (missState [⟨lineReq 0x5FF, List.replicate 8 1⟩]) (by decide +kernel)
      ⟨task0, _, _, _, _, _, ⟨by decide +kernel, by decide +kernel, by decide +kernel, rfl, all_onDie (by decide +kernel)⟩, by decide +kernel, rfl,
        ⟨lineReq 0x5FF, List.replicate 8 1⟩, by decide +kernel⟩,
    shows_of (missState [⟨lineReq 0x5FF, List.replicate 9 1⟩]) (by decide +kernel)
      ⟨task0, _, _, _, _, _, ⟨by decide +kernel, by decide +kernel, by decide +kernel, rfl, all_onDie (by decide +kernel)⟩, by decide +kernel, rfl,
        ⟨lineReq 0x5FF, List.replicate 9 1⟩, by decide +kernel⟩,
    shows_of (missState ((List.range 64).map fun i => ⟨lineReq i, [1]⟩)) (by decide +kernel)
      ⟨task0, _, _, _, _, _, ⟨by decide +kernel, by decide +kernel, by decide +kernel, rfl, all_onDie (by decide +kernel)⟩, by decide +kernel, rfl,
        by decide +kernel⟩,
    shows_of (missState ((List.range 63).map fun i => ⟨lineReq i, [1]⟩)) (by decide +kernel)
      ⟨task0, _, _, _, _, _, ⟨by decide +kernel, by decide +kernel, by decide +kernel, rfl, all_onDie (by decide +kernel)⟩, by decide +kernel, rfl,
        by delta freeWay; decide +kernel⟩,
    ⟨let l : LoadWait := ⟨4, 16, false, false, 2 ^ 31 + 1, 2, 0, 1, [(0, false, 0x2FF80, 0x1FF80), (31, false, 0x2FFF0, 0x1FFF0)], [], [], [0x5FF], [], 0⟩
      let s := withCore { coreWith 0 { choirWith [] [] [] with wait := .load, load := some l } with mshrs := [⟨lineReq 0x5FF, [0]⟩] }
      { s with dev := { s.dev with l2 := { s.dev.l2 with mshrs := [⟨0x5FF, some 15, lineReq 0x5FF, [(lineReq 0x5FF, true)]⟩] } } },
      0x5FF, 15, 0, 0, lineReq 0x5FF, _, by decide +kernel, ⟨rfl, rfl, rfl, rfl, fun u hu => by
        change ((mget [(0, _)] u).getD Choir.absent).load = none
        simp [mget, hu, Choir.absent]⟩, by decide +kernel⟩⟩

/-- The hypotheses of GlobalStoresEnterTheBuffer are met. -/
theorem witness_GlobalStoresEnterTheBuffer : Shows 0x65 (specStore true) fun _ d x => ∃ t d1 rs, globFair d x (voicesOf x.ex) 1 t d1 rs ∧
    accOrder x = 0 ∧ ((d1.core x.n).task.map (·.tandem)) = some 0 ∧ ((d1.core x.n).choir x.slot).wait = .none ∧
    ((d1.core x.n).stallEntries (x.slot % 4)).length + ((voicesOf x.ex).map fun v => dpaOf rs v / 32).dedup.length ≤ 16 ∧
    (∀ v ∈ voicesOf x.ex, dpaOf rs v % accBytes x = 0) :=
  shows_of (globState (ins 0x65 0 2 4 0 0x002 0 0 (au := true)) fun c =>
      { c with sb := List.replicate 15 ⟨0, false, 1, 1, 7, false, 0, 0, 0, 0, 0, 0, 1, 0, []⟩ })
    (by decide +kernel)
    ⟨task0, _, _, ⟨by decide +kernel, by decide +kernel, by decide +kernel, rfl, all_onDie (by decide +kernel)⟩, by decide +kernel⟩

/-- The hypotheses of GlobalAtomicsActInL2 are met: one voice, on a line that L2 holds. -/
theorem witness_GlobalAtomicsActInL2 : Shows 0x72 (specAtom true) fun _ d x => ∃ t d1 i w a v l,
    globFair d x (acting x) 2 t d1 [(v, globAddrOf x v, .dev i w a)] ∧ (acting x = [v] ∧ accOrder x = 0 ∧ bit (iMod x.w) 10 = false ∧ x.e = .none ∧
    d.windowAt t.owner (globAddrOf x v) = some (i, w) ∧ w.home ≠ 3 ∧ a % accBytes x = 0) ∧
    (((d1.core x.n).task.map (·.tandem)) = some 0 ∧ (d1.core x.n).choir x.slot = x.h ∧ mget (d1.core x.n).l1 (a / 128) = none ∧
    (d1.core x.n).sb.any (fun y => y.slot = x.slot && !y.host && y.sector / 4 = a / 128) = false ∧
    d1.reachable a = true) ∧ l2Present d1 t.owner w.key a l ∧ l.poison = 0 ∧ d1.oget O.STREAM_ENABLE = 0 :=
  shows_of (let s := globState (ins 0x72 4 2 6 0 0x002 0 0 (au := true) (gp := 1)) fun c =>
      { c with l1 := [], choirs := [(0, choirWith [] [(2, 0x1FFFC)] [(1, 2 ^ 31)])] }
    { s with dev := { s.dev with l2 := { s.dev.l2 with lines := [(0x5FF, ⟨0, 0, false, 0, 7 * 2 ^ 992, 0⟩)] } } }) (by decide +kernel)
    ⟨task0, _, 0, window0, 0x2FFFC, 31, ⟨0, 0, false, 0, 7 * 2 ^ 992, 0⟩,
      ⟨by decide +kernel, by decide +kernel, by decide +kernel, rfl, all_onDie (by decide +kernel)⟩, by decide +kernel, by decide +kernel,
      by delta l2Present; decide +kernel⟩

/-! ### Copies and the store buffer -/

/-- The hypotheses of AsyncCopiesAreQueued are met: a copy of 64 bytes to the last bytes of LM. -/
theorem witness_AsyncCopiesAreQueued : Shows 0x90 specAcopy fun _ d x => ∃ t d1 rs, (d.core x.n).task = some t ∧ t.tandem < 2 ∧
    (let dir := bits (iMod x.w) 12 2
     let len := iImm x.w
     let src := fun v => srcA x (if dir = 0 then 2 else 1) v
     let dst := fun v => srcB x (if dir = 1 then 2 else 1) v
     len % 32 = 0 ∧ 32 ≤ len ∧ len ≤ 65536 ∧
     (∀ v ∈ voicesOf x.ex, src v % 32 = 0 ∧ dst v % 32 = 0 ∧ (dir ≠ 0 → src v + len ≤ 0x80000) ∧ (dir = 0 → dst v + len ≤ 0x80000) ∧
       (dir = 2 → dst v < 0x200000 ∧ dst v % 0x80000 + len ≤ 0x80000 ∧
         (x.n / 4 * 4 + dst v / 0x80000 = x.n ∨ x.n / 4 * 4 + dst v / 0x80000 ∈ d.gangOf x.n))) ∧
     d.acopyTrans x.n t.owner (if dir = 1 then 1 else 0) len
       (if dir = 2 then [] else (voicesOf x.ex).map fun v => (v, if dir = 0 then src v else dst v)) = (d1, rs) ∧
     sortVoices t (larkEng x.n) (if dir = 1 then 1 else 0) rs = .ok) :=
  shows_of (mapped (one (ins 0x90 0 2 4 0 0 64 0x80 (au := true) (bu := true)) (choirWith [] [(2, 0x1FFC0), (4, 0x7FFC0)] [])))
    (by decide +kernel)
    (by
      refine ⟨task0, _, _, ?_, ?_, ?_, ?_, ?_, ?_, rfl, ?_⟩
      all_goals decide +kernel)

/-- Core 0 with copies in its Lark's queue. -/
def copyState (a : Acopy) : State := mapped (withCore { coreWith 0 (choirWith [] [] []) with acopies := [a] })

/-- What each clause of AsyncCopiesMoveData assumes of the core. -/
def Copying (s : State) (t : TaskRun) (a : Acopy) : Prop :=
  (s.dev.core 0).task = some t ∧ t.tandem = 0 ∧ (s.dev.core 0).exc = none ∧ (s.dev.core 0).acopies[0]? = some a

theorem copying_of (a : Acopy) : Copying (copyState a) task0 a := ⟨rfl, rfl, rfl, rfl⟩

theorem found_onDie {d : Dev} {l : List (TRes × Nat × Nat)}
    (h : l.all (fun p => match p.1 with | .dev _ _ b => !d.lost b | _ => false) = true) :
    ∀ p ∈ l, ∃ i w b, p.1 = .dev i w b ∧ d.lost b = false := by
  intro p hp
  have := List.all_eq_true.mp h p hp
  split at this
  · exact ⟨_, _, _, ‹_›, by simpa using this⟩
  · simp at this

/-- The hypotheses of AsyncCopiesMoveData are met, in each direction, and with a core clock open. -/
theorem witness_AsyncCopiesMoveData :
    (∃ s t a, Copying s t a ∧ a.dir = 2 ∧ a.dst < 0x200000 ∧ a.len % 32 = 0 ∧ s.dev.clockOf 0 = none ∧ a.act < 64 ∧
      (((s.dev.core 0).act a.act).landed a.len).isSome = true) ∧
    (∃ s t a k, Copying s t a ∧ a.dir = 2 ∧ a.dst < 0x200000 ∧ a.len % 32 = 0 ∧ s.dev.clockOf 0 = some k ∧ a.act < 64) ∧
    (∃ s t a d1 ps, Copying s t a ∧ a.dir = 1 ∧ s.dev.translateAll (larkEng 0) t.owner 1 (copyPieces a.dst a.len) = (d1, .inl ps) ∧
      ∀ p ∈ ps, ∃ i w b, p.1 = .dev i w b ∧ d1.lost b = false) ∧
    (∃ s t a d1 ps d2 l, Copying s t a ∧ a.dir = 0 ∧ a.requested = false ∧
      s.dev.translateAll (larkEng 0) t.owner 0 (copyPieces a.src a.len) = (d1, .inl ps) ∧ (∀ p ∈ ps, ∃ i w b, p.1 = .dev i w b) ∧
      ps.foldl (fun (acc : Dev × List Chunk × Bool) p =>
        match p.1 with
        | .dev _ w b => let r := acc.1.larkRead 0 t.owner w b p.2.2; (r.1, acc.2.1 ++ r.2.1, acc.2.2 || r.2.2)
        | _ => acc) (d1, [], false) = (d2, l, false)) :=
  ⟨⟨copyState ⟨0, 2, 0, 0x1FFFC0, 64, 63, 0, 0, 0, false, [], [], []⟩, task0, _, copying_of _, by decide +kernel⟩,
   ⟨let s := copyState ⟨0, 2, 0, 0x1FFFC0, 64, 63, 0, 0, 0, false, [], [], []⟩
    { s with dev := s.dev.setClock 0 (some ⟨[0], [], []⟩) }, task0, _, ⟨[0], [], []⟩, copying_of _, by decide +kernel⟩,
   ⟨copyState ⟨0, 1, 0, 0x10000, 64, 63, 0, 0, 0, false, [], [], []⟩, task0, _, _, _, copying_of _, rfl, rfl,
    found_onDie (by decide +kernel)⟩,
   ⟨copyState ⟨0, 0, 0x10000, 0, 64, 64, 0, 0, 0, false, [], [], []⟩, task0, _, _, _, _, _, copying_of _, rfl, rfl, rfl,
    pieces_onDie (by decide +kernel), rfl⟩⟩

/-- Core 0 with one store-buffer entry. -/
def sbState (e : SbEntry) : State :=
  withCore { coreWith 0 (choirWith [] [] []) with sb := [e], l1 := [(1, ⟨0, 0, 0, 0, 0, 0, 0, 0, 0⟩)] }

/-- What the clauses of StoreBuffersDrainInOrder that drain an entry assume. -/
def Drains (s : State) (e : SbEntry) : Prop :=
  (s.dev.core 0).sb.filter (fun e => e.slot % 4 = 3) = [e] ∧ ((s.dev.core 0).task.map (·.tandem)) = some 0 ∧
    ∀ slot rest sc, ((s.dev.core 0).choir slot).wait ≠ .stores rest sc

theorem sb_drains (e : SbEntry) (h : e.slot % 4 = 3) : Drains (sbState e) e := by
  refine ⟨?_, rfl, fun slot rest sc => ?_⟩
  · change [e].filter _ = [e]
    simp [h]
  · have : ((sbState e).dev.core 0).choirs = [(0, choirWith [] [] [])] := rfl
    by_cases hs : slot = 0
    · subst hs; simp [Core.choir, this, mget, choirWith, Choir.absent]
    · simp [Core.choir, this, mget, hs, Choir.absent]

/-- The core without an entry. -/
def lostAfter (s : State) (e : SbEntry) : Bool :=
  (s.dev.setCore 0 { s.dev.core 0 with sb := (s.dev.core 0).sb.erase e }).lost (128 * (e.sector / 4))

/-- The hypotheses of StoreBuffersDrainInOrder are met: an empty stall, and an entry for L1, for L2 by its scope and by its hint, and for
the host. -/
theorem witness_StoreBuffersDrainInOrder :
    (∃ s : State, (s.dev.core 0).sb.filter (fun e => e.slot % 4 = 3) = []) ∧
    (∃ s e l, Drains s e ∧ e.host = false ∧ e.scope < 3 ∧ mget (s.dev.core 0).l1 (e.sector / 4) = some l) ∧
    (∃ s e, Drains s e ∧ e.host = false ∧ 3 ≤ e.scope ∧ mget (s.dev.core 0).l1 (e.sector / 4) = none ∧ lostAfter s e = false) ∧
    (∃ s e, Drains s e ∧ e.host = false ∧ e.hint = 2 ∧ mget (s.dev.core 0).l1 (e.sector / 4) = none ∧ lostAfter s e = false) ∧
    (∃ s e, Drains s e ∧ e.host = true ∧ e.mask = 2 ^ 32 - 1) :=
  ⟨⟨State.reset, rfl⟩, ⟨_, _, _, sb_drains ⟨3, false, 7, 1, 9, false, 2, 0, 0, 0, 0, 0, 1, 0, []⟩ rfl, rfl, by decide, rfl⟩,
   ⟨_, _, sb_drains ⟨63, false, 9, 1, 9, false, 3, 0, 0, 0, 0, 0, 1, 0, []⟩ rfl, rfl, by decide, rfl, by decide +kernel⟩,
   ⟨_, _, sb_drains ⟨63, false, 9, 1, 9, false, 2, 0, 0, 0, 2, 0, 1, 0, []⟩ rfl, rfl, rfl, rfl, by decide +kernel⟩,
   ⟨_, _, sb_drains ⟨63, true, 9, 2 ^ 32 - 1, 9, false, 6, 0, 0, 0, 0, 0, 1, 0, []⟩ rfl, rfl, rfl⟩⟩

/-- A core whose load waits for the bytes at DPA 0x100, with store-buffer entries. -/
def heldLoad (sb : List SbEntry) : State :=
  withCore { coreWith 0 { choirWith [] [] [] with wait := .reissue [(false, 0x100, 4)] } with sb := sb }

/-- An entry of the choir overlaps the bytes that a load waits for. -/
def heldBy (s : State) (c : ChoirRef) (bs : List (Bool × Nat × Nat)) : Prop :=
  ∃ b ∈ bs, ∃ y ∈ (s.dev.core c.core).sb, y.slot = c.slot ∧ y.host = b.1 ∧ y.sector = b.2.1 / 32 ∧
    y.mask &&& ((2 ^ b.2.2 - 1) * 2 ^ (b.2.1 % 32)) ≠ 0

/-- The hypotheses of HeldLoadsIssueAgain are met: an entry overlaps, and none does. -/
theorem witness_HeldLoadsIssueAgain :
    (∃ (s : State) (c : ChoirRef) (bs : _), c.core < 256 ∧ c.slot < 64 ∧ ((s.dev.core c.core).choir c.slot).wait = .reissue bs ∧
      s.dev.clockOf c.core = none ∧ heldBy s c bs) ∧
    (∃ (s : State) (c : ChoirRef) (bs : _), c.core < 256 ∧ c.slot < 64 ∧ ((s.dev.core c.core).choir c.slot).wait = .reissue bs ∧
      s.dev.clockOf c.core = none ∧ ¬ heldBy s c bs ∧
      (Dev.clockBegin (s.dev.onChoir c.core c.slot fun h => { h with wait := .none }) c).ready c = true) :=
  ⟨⟨heldLoad [⟨0, false, 8, 8, 1, false, 0, 0, 0, 512, 0, 0, 1, 0, []⟩], c0, _, by decide, by decide, rfl, rfl,
    _, List.mem_singleton_self _, _, List.mem_singleton_self _, rfl, rfl, by decide, by decide⟩,
   ⟨heldLoad [], c0, _, by decide, by decide, rfl, rfl, by delta heldBy; decide +kernel, by decide +kernel⟩⟩

/-! ### Tasks -/

/-- The hypotheses of StartedTasksBeginClean are met, by a task without streams. -/
theorem witness_StartedTasksBeginClean : ∃ (s : State) (t : TaskRun), (s.dev.core 255).task = some t ∧ (s.dev.core 255).started = false ∧
    (s.dev.core 255).exc = none ∧ (s.dev.core 255).state ≠ 4 ∧ (s.dev.core 255).boot = 0 ∧ t.tandem = 0 ∧ bits t.body 206 5 = 0 :=
  ⟨{ State.reset with dev := Dev.reset.setCore 255 { Core.reset with state := 1, task := some { task0 with first := 255 } } }, _, rfl, rfl, rfl,
    by decide, rfl, rfl, rfl⟩

/-- The hypotheses of TasksEndReported are met: a core whose choirs have ended, with a line and a store, the last of its task, and one
with a cause. -/
theorem witness_TasksEndReported :
    (∃ (s : State) (t : TaskRun) (x : Node), ((s.dev.core 0).task = some t ∧ t.tandem = 0 ∧ s.dev.completable 0 = true ∧ (s.dev.core 0).exc = none) ∧
      s.dev.node t.order = some x ∧ x.state = .running ∧ x.dispatches = t.dispatch ∧
      (∀ y ∈ (s.dev.core 0).sb, y.host = false → s.dev.reachable (128 * (y.sector / 4)) = true) ∧
      (∀ y ∈ (s.dev.core 0).l1, s.dev.reachable (128 * y.1) = true) ∧
      0 ∈ t.cores ∧ ∀ m ∈ t.cores, m ≠ 0 → ((s.dev.core m).task.map (·.order)) = some t.order → (s.dev.core m).isDone = true) ∧
    (∃ (s : State) (t : TaskRun) (e : Exc) (x : Node), ((s.dev.core 0).task = some t ∧ (s.dev.core 0).exc = some e ∧ e.cause ≠ 0 ∧ e.recs = [] ∧ 0 ∈ t.cores) ∧
      s.dev.node t.order = some x ∧ x.state = .running ∧ x.dispatches = t.dispatch) :=
  ⟨⟨withNode (withCore { coreWith 0 { choirWith [] [] [] with mask := 0 } with
      sb := [⟨0, false, 9, 1, 9, false, 2, 0, 0, 0, 0, 0, 1, 0, []⟩], l1 := [(1, ⟨0, 1, 1, 7, 0, 0, 0, 0, 0⟩)] }) node0, task0, node0,
    by decide +kernel, by decide +kernel, rfl, rfl, by decide +kernel, by decide +kernel, by decide +kernel, by decide +kernel⟩,
   ⟨withNode (withCore { coreWith 0 (choirWith [] [] []) with exc := some ⟨0x27, 0, 0, 0, 1, 3, 0, []⟩ }) node0, task0, ⟨0x27, 0, 0, 0, 1, 3, 0, []⟩, node0,
    by decide +kernel, by decide +kernel, rfl, rfl⟩⟩

/-- The hypotheses of DeadlocksAreDetected are met: a core that has been quiet long enough, one that is not quiet, and one not yet. -/
theorem witness_DeadlocksAreDetected :
    (∃ (s : State) (t : TaskRun), (s.dev.core 0).task = some t ∧ 0 ∈ t.cores ∧
      ∀ m ∈ t.cores, s.dev.quiet m = true ∧ 65536 ≤ (s.dev.core m).quietFor) ∧
    (∃ (s : State) (t : TaskRun), (s.dev.core 0).task = some t ∧ 0 ∈ t.cores ∧ s.dev.quiet 0 = false) ∧
    (∃ (s : State) (t : TaskRun), (s.dev.core 0).task = some t ∧ 0 ∈ t.cores ∧ s.dev.quiet 0 = true ∧ (s.dev.core 0).quietFor < 65536) :=
  ⟨⟨withCore { coreWith 0 { choirWith [] [] [] with wait := .bar 3 } with quietFor := 65536 }, task0, by decide +kernel⟩,
   ⟨one 0 (choirWith [] [] []), task0, by decide +kernel⟩,
   ⟨withCore { coreWith 0 { choirWith [] [] [] with wait := .bar 3 } with quietFor := 65535 }, task0, by decide +kernel⟩⟩

/-! ### The matrix unit -/

/-- An FP64 instruction of 16 × 16 × 1 on a lone core: A at LM 0, B at LM 0x7FF80, slices 128 bytes apart. -/
def descFp64 : Nat :=
  4 * 2 ^ 8 + 4 * 2 ^ 12 + 16 * 2 ^ 16 + 16 * 2 ^ 32 + 1 * 2 ^ 48 + 0x7FF80 * 2 ^ 160 + 128 * 2 ^ 192 + 128 * 2 ^ 224

/-- Core 0 with one matrix instruction queued, which read `x` at 0x1000 as it issued. -/
def matState (x : Nat) (desc : Option Nat) (poison : Bool) : State :=
  withCore { coreWith 0 (choirWith [] [] []) with mmq := [⟨1, 0, 0x1000, 0, 0, 1, (x, poison), desc, none⟩], mmIssued := 1 }

/-- The case of decoding that a state is in. -/
def decodeCase (s : State) : Nat :=
  let c := s.dev.core 0
  match c.mmq[firstUndecoded c]? with
  | none => 0
  | some q =>
    let r := q.image
    let tag := c.tagBefore (firstUndecoded c) (mdTile r.1)
    let fits := decide (mdIn r.1 ≠ 1 ∨ tag.1 = 0 ∨ tag = (1 + matAcc (mdA r.1), matEdge (mdA r.1)))
    let legal := mdLegal (decide (s.dev.oget O.BLOCK8_PERMIT = 1)) 1 0 r.1 && fits
    if r.2 then 1
    else if mdRange 0 r.1 then (if legal then 4 else 3)
    else if 4 ≤ mdA r.1 ∧ mdA r.1 ≤ 11 then 2 else if legal then 0 else 5

/-- The first instruction of core 3's queue, which heads the queues of its sub-gang of four. -/
def gangHead (res : Option MatRes) : MatInstr := ⟨1, 0, 0x1000, 0, 0, 1, (0, false), some (descFp64 + 2 ^ 94), res⟩

/-- A sub-gang of four cores; the first of them holds `q`. -/
def gangState (q : MatInstr) : State :=
  let c := fun (q : MatInstr) => { coreWith 0 (choirWith [] [] []) with mmq := [q] }
  { State.reset with dev := { Dev.reset with nave := { Dev.reset.nave with
      cores := [(0, c q), (1, c (gangHead none)), (2, c (gangHead none)), (3, c (gangHead none))] } } }

/-- What holds of the four cores holds of the sub-gang. -/
theorem every_gang {P : Nat → Prop} (h : P 0 ∧ P 1 ∧ P 2 ∧ P 3) :
    ∀ m ∈ rangeFrom (matFirst 3 (descFp64 + 2 ^ 94)) (matCores (descFp64 + 2 ^ 94)), P m := by
  have e : rangeFrom (matFirst 3 (descFp64 + 2 ^ 94)) (matCores (descFp64 + 2 ^ 94)) = [0, 1, 2, 3] := by decide +kernel
  rw [e]
  intro m hm
  simp only [List.mem_cons, List.not_mem_nil, or_false] at hm
  rcases hm with rfl | rfl | rfl | rfl
  · exact h.1
  · exact h.2.1
  · exact h.2.2.1
  · exact h.2.2.2

/-- The hypotheses of MatrixUnitDecodesStartsAndCompletes are met: a poisoned descriptor, one out of LM's range, an illegal one in range and
out of it, and a legal one; a sub-gang of four cores whose instructions agree, and one of which one core's has started; an instruction
that can complete. -/
theorem witness_MatrixUnitDecodesStartsAndCompletes :
    (∀ k ∈ [1, 2, 3, 4, 5], ∃ (s : State), (s.dev.core 0).task = some task0 ∧ (s.dev.core 0).exc = none ∧ decodeCase s = k) ∧
    (∃ (s : State) (q : MatInstr) (x : _), (s.dev.core 3).mmq.head? = some q ∧ q.desc = some x ∧ mdGang x ≠ 0 ∧ q.res = none ∧
      (∀ m ∈ rangeFrom (matFirst 3 x) (matCores x), (s.dev.core m).exc = none ∧ ∃ p y, (s.dev.core m).mmq.head? = some p ∧ p.desc = some y ∧
        mdGang y = mdGang x ∧ p.res = none ∧ mdAgree p y = mdAgree q x) ∧ 3 ∈ rangeFrom (matFirst 3 x) (matCores x)) ∧
    (∃ (s : State) (q : MatInstr) (x : _), (s.dev.core 3).mmq.head? = some q ∧ q.desc = some x ∧ mdGang x ≠ 0 ∧ q.res = none ∧
      (∀ m ∈ rangeFrom (matFirst 3 x) (matCores x), ∀ p y, (s.dev.core m).mmq.head? = some p → p.desc = some y → mdGang y = mdGang x) ∧
      ∃ m ∈ rangeFrom (matFirst 3 x) (matCores x), ∀ p, (s.dev.core m).mmq.head? = some p → p.desc = none ∨ p.res.isSome = true) ∧
    (∃ (s : State) (q : MatInstr) (rest : _) (x : _), ((s.dev.core 0).mmq = q :: rest ∧ q.desc = some x ∧ (s.dev.core 0).exc = none) ∧ (mdGang x ≠ 0 → q.res.isSome = true) ∧
      keysRise (s.dev.core 0).mmFlags = true ∧ ∀ f ∈ (s.dev.core 0).mmFlags, f.1 < q.token) := by
  refine ⟨?_, ⟨gangState (gangHead none), gangHead none, _, rfl, rfl, by decide +kernel, rfl, every_gang ?_, by decide +kernel⟩,
    ⟨gangState (gangHead (some ⟨⟨0, 0, [], []⟩, [], 0, 0, 0⟩)), gangHead none, _, rfl, rfl, by decide +kernel, rfl, every_gang ?_, 0, by decide +kernel, ?_⟩,
    ⟨matState 0 (some descFp64) false, _, _, _, ⟨rfl, rfl, rfl⟩, by decide +kernel⟩⟩
  · intro k hk
    simp only [List.mem_cons, List.not_mem_nil, or_false] at hk
    rcases hk with rfl | rfl | rfl | rfl | rfl
    · exact ⟨matState descFp64 none true, rfl, rfl, by decide +kernel⟩
    · exact ⟨matState (descFp64 + 128 * 2 ^ 160) none false, rfl, rfl, by decide +kernel⟩
    · exact ⟨matState (descFp64 + 1) none false, rfl, rfl, by decide +kernel⟩
    · exact ⟨matState descFp64 none false, rfl, rfl, by decide +kernel⟩
    · exact ⟨matState (descFp64 + 8 * 2 ^ 8 + 128 * 2 ^ 160) none false, rfl, rfl, by decide +kernel⟩
  · refine ⟨?_, ?_, ?_, ?_⟩ <;> exact ⟨rfl, gangHead none, _, rfl, rfl, rfl, rfl, rfl⟩
  · refine ⟨?_, ?_, ?_, ?_⟩ <;> (rintro p y hp hy; cases hp; cases hy; rfl)
  · rintro p hp
    cases hp
    exact .inr rfl

/-- The hypotheses of MatrixFp64EqualsScalarLoop are met. -/
theorem witness_MatrixFp64EqualsScalarLoop : ∃ (s : State) (q : MatInstr) (rest : _) (x : _), ∃ r j : Nat, (s.dev.core 0).mmq = q :: rest ∧ q.desc = some x ∧ (s.dev.core 0).exc = none ∧
    mdGang x = 0 ∧ mdA x = 4 ∧ mdB x = 4 ∧ mdBlock x = false ∧ mdScale x = false ∧ mdStore x = false ∧ mdFtz x = false ∧ mdIn x < 2 ∧
    q.res = none ∧ keysRise (s.dev.core 0).mmFlags = true ∧ r < min 16 (mdM x) ∧ j < min 16 (mdN x) :=
  ⟨matState 0 (some descFp64) false, _, _, _, 15, 15, rfl, rfl, by decide +kernel⟩

/-! ### The Lark, Bilxel and Starling -/

/-- A state whose next Bilxel word has an opcode. -/
def Bilxel (op : Nat) : Prop := ∃ (s : State) (t : TaskRun) (st : Stream) (w : _), Streams s 0 15 t st ∧ st.prog[st.bpc]? = some w ∧ bits w 26 6 = op ∧ bits st.record 82 2 = 1 ∧
  st.ended = false ∧ st.ready = true

theorem bilxel_of (op : Nat) (h : bits (op * 2 ^ 26) 26 6 = op) : Bilxel op :=
  ⟨streaming (streamOf (2 ^ 82) (op * 2 ^ 26)), task0, _, _, streams_of _ _, rfl, h, show bits (2 ^ 82) 82 2 = 1 by decide +kernel, rfl, rfl⟩

/-- The hypotheses of BilxelInstructionsCompute are met. -/
theorem witness_BilxelInstructionsCompute : Bilxel 1 ∧ Bilxel 2 ∧ Bilxel 3 ∧ Bilxel 4 ∧ Bilxel 5 ∧ Bilxel 6 ∧ Bilxel 0x3F :=
  ⟨bilxel_of _ rfl, bilxel_of _ rfl, bilxel_of _ rfl, bilxel_of _ rfl, bilxel_of _ rfl, bilxel_of _ rfl, bilxel_of _ rfl⟩

/-- What every clause of EmitQueuesABlock assumes. -/
def Emits (s : State) (st : Stream) (w : Nat) : Prop :=
  Streams s 0 15 task0 st ∧ st.prog[st.bpc]? = some w ∧ bits w 26 6 = 7 ∧ bits st.record 82 2 = 1 ∧ st.ended = false ∧ st.ready = true

/-- The ring of an EMIT's context: where the block lands, and its footprint. -/
def ringLm (st : Stream) (w : Nat) : Nat :=
  let f := footprint st.record ((bits w 0 11 + 1) * 32)
  if bits st.record 224 32 + bits st.record 192 32 < st.cursor + f then bits st.record 224 32 else st.cursor
def landsInRing (st : Stream) : Prop :=
  bits st.record 448 64 = 0 ∨ ∃ j < 64, bit (bits st.record 448 64) j = true ∧ task0.first + j = 0
def panelFits (st : Stream) (w : Nat) : Prop :=
  bits st.record 96 2 ≠ 0 → (bits w 0 11 + 1) * 32 = 128 * (bits st.record 102 10 + 1)

/-- The hypotheses of EmitQueuesABlock are met: a full queue, a source of Starling that is no receiver, a block larger than its ring, one not
of its panel's size, one that ends beyond LM, and one that fills its ring. -/
theorem witness_EmitQueuesABlock :
    (∃ (s : State) (st : Stream) (w : _), Emits s st w ∧ 16 ≤ st.queue.length) ∧
    (∃ (s : State) (st : Stream) (w : _), Emits s st w ∧ st.queue.length < 16 ∧ ¬ landsInRing st) ∧
    (∃ (s : State) (st : Stream) (w : _), Emits s st w ∧ st.queue.length < 16 ∧ landsInRing st ∧ bits st.record 192 32 < footprint st.record ((bits w 0 11 + 1) * 32)) ∧
    (∃ (s : State) (st : Stream) (w : _), Emits s st w ∧ st.queue.length < 16 ∧ landsInRing st ∧ footprint st.record ((bits w 0 11 + 1) * 32) ≤ bits st.record 192 32 ∧
      bits st.record 96 2 ≠ 0 ∧ (bits w 0 11 + 1) * 32 ≠ 128 * (bits st.record 102 10 + 1)) ∧
    (∃ (s : State) (st : Stream) (w : _), Emits s st w ∧ st.queue.length < 16 ∧ landsInRing st ∧ footprint st.record ((bits w 0 11 + 1) * 32) ≤ bits st.record 192 32 ∧
      panelFits st w ∧ bit st.record 81 = false ∧ 0x80000 < ringLm st w + footprint st.record ((bits w 0 11 + 1) * 32)) ∧
    (∃ (s : State) (st : Stream) (w : _), Emits s st w ∧ st.queue.length < 16 ∧ landsInRing st ∧ footprint st.record ((bits w 0 11 + 1) * 32) ≤ bits st.record 192 32 ∧
      panelFits st w ∧ (bit st.record 81 = false → ringLm st w + footprint st.record ((bits w 0 11 + 1) * 32) ≤ 0x80000)) :=
  ⟨⟨_, { streamOf (2 ^ 82) (7 * 2 ^ 26) with queue := List.replicate 16 (block0 false) }, _, ⟨streams_of _ [], rfl, rfl, rfl, rfl, rfl⟩, by decide⟩,
   ⟨_, streamOf (2 ^ 82 + 2 ^ 449) (7 * 2 ^ 26), _, ⟨streams_of _ [], rfl, rfl, by decide +kernel, rfl, rfl⟩, by decide +kernel, by delta landsInRing; decide +kernel⟩,
   ⟨_, streamOf (2 ^ 82 + 31 * 2 ^ 192) (7 * 2 ^ 26), _, ⟨streams_of _ [], rfl, rfl, rfl, rfl, rfl⟩, by decide +kernel, .inl (by decide +kernel), by decide +kernel⟩,
   ⟨_, streamOf (2 ^ 82 + 2 ^ 96 + 4 * 2 ^ 98 + 0xFFFF * 2 ^ 192) (7 * 2 ^ 26), _, ⟨streams_of _ [], rfl, rfl, by decide +kernel, rfl, rfl⟩, by decide +kernel,
    .inl (by decide +kernel), by decide +kernel⟩,
   ⟨_, { streamOf (2 ^ 82 + 64 * 2 ^ 192 + 0x7FFE0 * 2 ^ 224) (7 * 2 ^ 26) with cursor := 0x80000 }, _, ⟨streams_of _ [], rfl, rfl, by decide +kernel, rfl, rfl⟩,
    by decide +kernel, .inl (by decide +kernel), by delta panelFits ringLm; decide +kernel⟩,
   ⟨_, { streamOf (2 ^ 82 + 32 * 2 ^ 192 + 0x7FFE0 * 2 ^ 224) (7 * 2 ^ 26) with cursor := 0x7FFE0 }, _, ⟨streams_of _ [], rfl, rfl, rfl, rfl, rfl⟩,
    by decide +kernel, .inl (by decide +kernel), by delta panelFits ringLm; decide +kernel⟩⟩

/-- A block of 32 bytes whose request has not issued. -/
def blockTo (begun : Bool) : Block := { block0 begun with todo := [(0x1FFE0, 32)] }

/-- A context that has made its last block, `b`. -/
def last (record : Nat) (b : Block) : Stream := { streamOf record 0 with ended := true, queue := [b] }

theorem idles_of (record : Nat) (b : Block) (lm : List Host.Cell) (h : bits record 82 2 ≠ 1) : LarkIdles (streaming (last record b) lm).dev 0 task0 where
  core := by decide
  task := rfl
  lone := rfl
  started := rfl
  sound := rfl
  running := rfl
  copies := fun a ha => by cases ha
  keys := rfl
  full := fun y hy => by
    cases List.mem_singleton.1 hy
    exact ⟨show (15 : Nat) < 16 by decide, .inl rfl, fun e => absurd e h⟩
  room := show (0 : Nat) < 256 by decide
  turn := show (16 : Nat) ≤ 16 by decide

/-- The one context of such a core is the only one that may issue, its one block. -/
theorem only_one {record : Nat} {b b' : Block} {lm : List Host.Cell} {k : Nat} {st' : Stream}
    (h : issuable (streaming (last record b) lm).dev 0 k task0 st' b') : k = 15 ∧ st' = last record b ∧ b' = b := by
  obtain ⟨h1, h2, -⟩ := h
  change mget [(15, last record b)] k = some st' at h1
  by_cases hk : k = 15
  · subst hk
    cases h1
    refine ⟨rfl, rfl, ?_⟩
    have := List.mem_of_find?_eq_some h2
    simpa [last] using this
  · simp [mget, hk] at h1

/-- What every clause of BlocksIssueBelowTheLimit that issues assumes of the context and its block. -/
structure Asks (record : Nat) (b : Block) (lm : List Host.Cell) : Prop where
  idles : LarkIdles (streaming (last record b) lm).dev 0 task0
  may : issuable (streaming (last record b) lm).dev 0 15 task0 (last record b) b
  tile : b.tile = none
  addr : b.addr % 32 = 0
  todo : b.todo.head? = some (0x1FFE0, 32)
  reads : ((streaming (last record b) lm).dev.core 0).reads = []

theorem Asks.first {record : Nat} {b : Block} {lm : List Host.Cell} (_ : Asks record b lm) (k : Nat) (st' : Stream) (b' : Block)
    (h : issuable (streaming (last record b) lm).dev 0 k task0 st' b') : (15 + 16 - 16) % 17 ≤ (k + 16 - 16) % 17 := by
  rw [(only_one h).1]

/-- The device as the Lark's turn is the context's, and the translation of the block there. -/
def turned (record : Nat) (b : Block) (lm : List Host.Cell) : Dev := served (streaming (last record b) lm).dev 0 15
def turnedTo (record : Nat) (b : Block) (lm : List Host.Cell) : Dev × (List LarkPage ⊕ LarkRes) :=
  (turned record b lm).larkTrans 0 task0 (if bit record 81 then 1 else 0) (rangePages b.addr b.len)

theorem asks_of (record : Nat) (b : Block) (lm : List Host.Cell) (h : bits record 82 2 ≠ 1) (h1 : b.issued = false)
    (h2 : blockMay (streaming (last record b) lm).dev 0 15 task0 (last record b) b) (h3 : b.tile = none) (h4 : b.addr % 32 = 0)
    (h5 : b.todo.head? = some (0x1FFE0, 32)) : Asks record b lm :=
  ⟨idles_of record b lm h, ⟨rfl, by show [b].find? (fun b => !b.issued) = some b; simp [h1], h2⟩, h3, h4, h5, rfl⟩

/-- A page that came by a host window. -/
def hostPage : LarkPage := ⟨0x1F, ⟨0, 0x1F000, 0x1F000, true, false, 0⟩, 0x1F, 0, 0, 0⟩

/-- A Lark with 256 requests in flight. -/
def flying : State :=
  let s := withCore (coreWith 0 (choirWith [] [] []))
  { s with dev := { s.dev with host := { s.dev.host with reads := List.replicate 256 ⟨0, 0, 0, 32, 3, 0, .ring, true, false⟩ } } }

/-- The hypotheses of BlocksIssueBelowTheLimit are met: no block that may issue; a Lark with 256 requests in flight; a block whose
translation fails; an OUT block; an IN block from device memory; one that has begun, from the host. -/
theorem witness_BlocksIssueBelowTheLimit :
    (∃ (s : State) (t : TaskRun), LarkIdles s.dev 0 t ∧ ∀ i st b, ¬ issuable s.dev 0 i t st b) ∧
    (∃ (s : State) (t : TaskRun), ((s.dev.core 0).task = some t ∧ (s.dev.core 0).started = true ∧ (s.dev.core 0).exc = none ∧ t.tandem ≠ 2) ∧
      s.dev.larkFeedAll 0 t = s.dev ∧ 256 ≤ s.dev.larkFlight 0) ∧
    (∃ x b lm c det a recs, Asks x b lm ∧ b.begun = false ∧ (turnedTo x b lm).2 = .inr (.fail c det a recs)) ∧
    (∃ x b lm ps, Asks x b lm ∧ b.begun = false ∧ bit x 81 = true ∧ (turnedTo x b lm).2 = .inl ps ∧
      ((turnedTo x b lm).1.larkPut 0 task0 ps (rangeWrites 0x1FFE0 (((turnedTo x b lm).1.core 0).blockChunks x b.lm (b.off + (0x1FFE0 - b.addr)) 32))).2 = none) ∧
    (∃ x b lm ps, Asks x b lm ∧ b.begun = false ∧ bit x 81 = false ∧ (turnedTo x b lm).2 = .inl ps ∧ (pageOf ps 0x1FFE0).via.host = false ∧
      bits x 448 64 = 0 ∧ ((turnedTo x b lm).1.larkFetch 0 task0.owner false (pageOf ps 0x1FFE0) 0x1FFE0 32).2.2 = none) ∧
    (∃ x b lm, Asks x b lm ∧ b.begun = true ∧ bit x 81 = false ∧ (pageOf b.pages 0x1FFE0).via.host = true ∧ bits x 448 64 = 0 ∧
      hostPieces (turned x b lm).larkRequest 3 0x1FFE0 32 = [(0x1FFE0, 32)]) := by
  refine ⟨⟨streaming (last 0 (block0 true)), task0, idles_of 0 _ _ (by decide), ?_⟩,
    ⟨flying, task0, ⟨rfl, rfl, rfl, by decide⟩, rfl, by decide +kernel⟩,
    ⟨0, { blockTo false with addr := 0x9FFE0 }, [(0, 1)], _, _, _, _, asks_of _ _ _ (by decide) rfl (.inr (.inr ?_)) rfl rfl rfl, rfl, rfl⟩,
    ⟨2 ^ 81, blockTo false, [(0, 1)], _, asks_of _ _ _ (by decide +kernel) rfl (.inr (.inr ?_)) rfl rfl rfl, rfl, by decide +kernel, rfl, by decide +kernel⟩,
    ⟨0, blockTo false, [(0, 1)], _, asks_of _ _ _ (by decide) rfl (.inr (.inr ?_)) rfl rfl rfl, rfl, by decide +kernel, rfl, by decide +kernel⟩,
    ⟨0, { blockTo true with pages := [hostPage] }, [], asks_of _ _ _ (by decide) rfl (.inl rfl) rfl rfl rfl, rfl, by decide +kernel⟩⟩
  · intro i st b h
    obtain ⟨rfl, rfl, rfl⟩ := only_one h
    have := h.2.1
    simp [last, block0] at this
  all_goals (rw [if_pos (by decide +kernel)]; decide +kernel)

/-- The hypotheses of LandedBlocksAreInLm are met: an IN block in order, one in skewed order, and an OUT block. -/
theorem witness_LandedBlocksAreInLm :
    (∃ (s : State) (st : Stream) (b : Block), Streams s 0 15 task0 st ∧ bits st.record 448 64 = 0 ∧
      st.queue.find? (fun b => (s.dev.core 0).whole 15 b) = some b ∧ bit st.record 81 = false ∧ b.tile = none ∧ b.len % 32 = 0 ∧
      bits st.record 160 32 + 8 ≤ b.lm ∧ bits st.record 96 2 = 0 ∧ b.off + b.len ≤ b.total) ∧
    (∃ (s : State) (st : Stream) (b : Block), Streams s 0 15 task0 st ∧ bits st.record 448 64 = 0 ∧
      st.queue.find? (fun b => (s.dev.core 0).whole 15 b) = some b ∧ bit st.record 81 = false ∧ b.tile = none ∧ b.len % 32 = 0 ∧
      bits st.record 160 32 + 8 ≤ b.lm ∧ bits st.record 96 2 ≠ 0 ∧ 4 ≤ bits st.record 98 4 ∧ bits st.record 98 4 ≤ 11 ∧ b.off % 32 = 0 ∧
      b.total = 128 * (bits st.record 102 10 + 1) ∧ b.off + b.len ≤ b.total) ∧
    (∃ (s : State) (st : Stream) (b : Block), Streams s 0 15 task0 st ∧ bits st.record 448 64 = 0 ∧
      st.queue.find? (fun b => (s.dev.core 0).whole 15 b) = some b ∧ bit st.record 81 = true) :=
  ⟨⟨_, { streamOf 0 0 with queue := [block0 true] }, block0 true, streams_of _ [], by decide +kernel, rfl, by decide +kernel⟩,
   ⟨_, { streamOf (2 ^ 96 + 4 * 2 ^ 98) 0 with queue := [{ block0 true with total := 128, off := 96 }] }, _, streams_of _ [], by decide +kernel, rfl,
    by decide +kernel⟩,
   ⟨_, { streamOf (2 ^ 81) 0 with queue := [block0 true] }, _, streams_of _ [], by decide +kernel, rfl, by decide +kernel⟩⟩

/-- A core 0 that is a source of Starling to core 1, which receives. -/
def starling (b : Block) (r : Stream) : State :=
  let s := streaming { streamOf (2 ^ 449) 0 with queue := [b] }
  { s with dev := s.dev.setCore 1 { coreWith 0 (choirWith [] [] []) with streams := [(15, r)] } }

/-- The entry that slot 7 of die 0 serves, when that is context 15 of core 0. -/
def servesFirst (s : State) : Bool :=
  ((((s.dev.starlingReady 0 7).filter (fun e => dget 0 s.dev.nave.rr 0 ≤ e.1)) ++ s.dev.starlingReady 0 7).head?) = some (0, 0, 15)

/-- The hypotheses of StarlingServesGroupsRoundRobin are met: nothing to deliver; 128 bytes of a longer block to a receiver; a block's last
bytes. -/
theorem witness_StarlingServesGroupsRoundRobin :
    (∃ s : State, s.dev.starlingReady 1 7 = []) ∧
    (∃ (s : State) (st r : Stream) (b : Block) (lm cur : Nat), servesFirst s = true ∧ (s.dev.core 0).task = some task0 ∧
      mget (s.dev.core 0).streams 15 = some st ∧ st.queue.find? (fun b => (s.dev.core 0).whole 15 b) = some b ∧
      b.sent + 32 * (((blockData st b).drop (b.sent / 32)).take 4).length < b.len ∧ b.receivers = [1] ∧ (s.dev.core 1).exc = none ∧
      mget (s.dev.core 1).streams 15 = some r ∧ r.placeAs b.dest b.total = some (lm, cur) ∧ b.off + b.sent = 0 ∧ r.blockOk b.total lm = none ∧
      bits r.record 96 2 = 0) ∧
    (∃ (s : State) (st r : Stream) (b : Block) (lm cur : Nat), servesFirst s = true ∧ (s.dev.core 0).task = some task0 ∧
      mget (s.dev.core 0).streams 15 = some st ∧ st.queue.find? (fun b => (s.dev.core 0).whole 15 b) = some b ∧
      b.len ≤ b.sent + 32 * (((blockData st b).drop (b.sent / 32)).take 4).length ∧ b.receivers = [1] ∧ (s.dev.core 1).exc = none ∧
      mget (s.dev.core 1).streams 15 = some r ∧ some (r.segLm, r.cursor) = some (lm, cur) ∧ b.off + b.sent ≠ 0 ∧ r.blockOk b.total lm = none) :=
  ⟨⟨State.reset, rfl⟩,
   ⟨starling { block0 true with addr := 0x10000, len := 256, total := 256, receivers := [1], sent := 0, lines := [(512, 0, 0), (513, 0, 0)] }
      (streamOf (256 * 2 ^ 192) 0), _, _, _, _, _, by decide +kernel, rfl, rfl, rfl, by decide +kernel, rfl, rfl, rfl, rfl, rfl, by decide +kernel, by decide +kernel⟩,
   ⟨starling { block0 true with addr := 0x10000, len := 256, total := 256, receivers := [1], sent := 128, lines := [(512, 0, 0), (513, 0, 0)] }
      (streamOf (256 * 2 ^ 192) 0), _, _, _, _, _, by decide +kernel, rfl, rfl, rfl, by decide +kernel, rfl, rfl, rfl, rfl, by decide +kernel, by decide +kernel⟩⟩

/-- Core 0 with a choir that waits for counter 63, an arrival and a Lark completion kept in its open clock. -/
def clockDev (x : Option Exc) (l : List (Nat × Nat × Exc)) : Dev :=
  let u := fun rank op => ActUpd.mk 0 63 rank op 0 ⟨0x22, 0, 0, 0, 1, 0, 0, []⟩
  (withCore { coreWith 0 { choirWith [] [] [] with wait := .act 63 0 } with exc := x, acts := [(63, ⟨0, 1, 1, 64, 0, 0, 0, 0⟩)] }).dev.setClock 0
    (some ⟨[0], [u 4 (.arrive 0 1 0), u 0 (.landed 64)], l⟩)

/-- The hypotheses of ClocksEndInOrder are met. -/
theorem witness_ClocksEndInOrder : ∃ (d : Dev) (n : Nat) (k : Clock), d.clockOf n = some k ∧ (∀ u ∈ k.upds, u.rank < 12) ∧ k.upds.length = 2 ∧
    ∃ m slot i p, m / 4 = n / 4 ∧ ((d.core m).choir slot).wait = .act i p :=
  ⟨clockDev none [], 0, _, rfl, by decide +kernel, rfl, 0, 0, 63, 0, rfl, by decide +kernel⟩

/-- A batch cause with one record, one that forbids retry and one that does not. -/
def batchCause : Exc := ⟨1, 0, 0, 1, 1, 0, 0, [⟨0, 2, 0, 1, 0, 0, 0, true, 0, 0x38, 0, 0, 0, false, false, false, true, 1, 0x10000, 0⟩]⟩
def finalCause : Exc := ⟨0x23, 0, 0, 2, 1, 0, 0, []⟩
def againCause : Exc := ⟨5, 0, 0, 3, 1, 0, 0, []⟩

/-- The hypotheses of ExceptionsOfAClockMeet are met, in each clause. -/
theorem witness_ExceptionsOfAClockMeet :
    (batchCause.forbids = false ∧ finalCause.forbids = true ∧ againCause.forbids = false ∧ batchCause.batch = true ∧ againCause.batch = false) ∧
    (∃ (d : Dev) (n : Nat), (d.core n).task.isSome = true ∧ d.clockOf n = none ∧ (d.core n).exc = none) ∧
    (∃ (d : Dev) (n : Nat), (d.core n).task.isSome = true ∧ d.clockOf n = none ∧ (d.core n).exc ≠ none) ∧
    (∃ (d : Dev) (n : Nat) (k : Clock), (d.core n).task.isSome = true ∧ d.clockOf n = some k ∧ (d.core n).exc = none) ∧
    (∃ (d : Dev) (n : Nat) (k : Clock), (d.core n).task.isSome = true ∧ d.clockOf n = some k ∧ (d.core n).exc ≠ none ∧
      k.excs.filter (fun x => x.1 = n) = []) ∧
    (∃ (d : Dev) (n : Nat) (k : Clock), (d.core n).task.isSome = true ∧ d.clockOf n = some k ∧ (d.core n).exc ≠ none ∧
      let mine := (k.excs.filter fun x => x.1 = n).map (·.2)
      mine ≠ [] ∧ mine.Pairwise (fun x y => x.1 ≤ y.1)) :=
  ⟨by decide +kernel, ⟨(clockDev none []).setClock 0 none, 0, by decide +kernel⟩,
    ⟨(clockDev (some againCause) []).setClock 0 none, 0, by decide +kernel⟩, ⟨clockDev none [], 0, _, rfl, rfl, rfl⟩,
    ⟨clockDev (some againCause) [], 0, _, by decide +kernel, rfl, by decide +kernel, by decide +kernel⟩,
    ⟨clockDev (some batchCause) [(0, 1, batchCause), (0, 3, againCause)], 0, _, by decide +kernel, rfl, by decide +kernel, by decide +kernel⟩⟩

end Sys2Proof.Tests
end

