-- ==== Sys2Proof/Tests/WitnessFabric.lean ====
section
/-! SUPPORT. Tests/WitnessFabric.lean: for each statement about the timebase, the links, the router and the operations of the link complexes,
states and commands that meet its hypotheses, at boundaries of their ranges. -/

namespace Sys2Proof.Tests

open Sys2Proof Sys2Proof.Machine Sys2Proof.Claims

set_option Elab.async false

/-! ### The timebase and the links -/

/-- The hypotheses of TimebaseSwitchesOrFails are met. -/
theorem witness_TimebaseSwitchesOrFails :
    (∃ s : State, s.dev.oget O.TIMEBASE_SOURCE = 0 ∧ s.dev.oget O.SPARE_STATE = 0 ∧ s.dev.oget O.SPARE_ENABLE = 1) ∧
    (∃ s : State, ¬ (s.dev.oget O.TIMEBASE_SOURCE = 0 ∧ s.dev.oget O.SPARE_STATE = 0 ∧ s.dev.oget O.SPARE_ENABLE = 1) ∧ s.dev.boot.inReset = false) :=
  ⟨⟨ready (obj O.SPARE_ENABLE 1), by decide +kernel⟩, ⟨ready id, by decide +kernel⟩⟩

/-- Link 19 enabled, in a state of Table 16.3, changed by `f`. -/
def linked (st : Nat) (f : Link → Link) (g : Dev → Dev := id) : State :=
  ready fun d => g ((obj (O.LINK_ENABLE 19) 1 (obj (O.LINK_STATE 19) st d)).onLink 19 f)

/-- A HANDSHAKE of chip 4095. -/
def shake0 : Handshake := ⟨true, true, 4095, 19, 0, 64, 256, 0, 5⟩

/-- The hypotheses of LinksTrainAndGoDown are met. -/
theorem witness_LinksTrainAndGoDown :
    (∃ s : State, s.dev.linkPowered 19 = true ∧ s.dev.oget (O.LINK_ENABLE 19) ≠ 0 ∧ s.dev.oget (O.LINK_STATE 19) = 1) ∧
    (∃ s : State, s.dev.linkPowered 19 = true ∧ s.dev.oget (O.LINK_ENABLE 19) ≠ 0 ∧ s.dev.oget (O.LINK_STATE 19) = 2) ∧
    (∃ s : State, s.dev.oget (O.LINK_STATE 19) = 2 ∧ (s.dev.link 19).partner = some shake0 ∧ (s.dev.link 19).seen = true ∧ (s.dev.link 19).told = true) ∧
    (∃ s : State, s.dev.oget (O.LINK_STATE 19) = 2 ∧ (s.dev.time :: (s.dev.link 19).fails.filter fun t => s.dev.time < t + 1000000000).length = 2) ∧
    (∃ s : State, s.dev.oget (O.LINK_STATE 19) = 2 ∧ (s.dev.time :: (s.dev.link 19).fails.filter fun t => s.dev.time < t + 1000000000).length = 3) ∧
    (∃ s : State, s.dev.up 19 = false ∧ s.dev.fab.ops = []) ∧ (∃ s : State, s.dev.up 19 = true ∧ s.dev.fab.ops = []) ∧
    (∃ (s : State) (p : Path), mayWrite s p 0x7113 1 ∧ s.dev.up 19 = true) ∧
    (∃ (s : State) (p : Path), mayWrite s p 0x7113 1 ∧ s.dev.up 19 = false ∧ s.dev.oget (O.LINK_STATE 19) = 0 ∧ s.dev.linkPowered 19 = true) ∧
    (∃ (s : State) (p : Path), mayWrite s p 0x7113 1 ∧ s.dev.oget (O.LINK_STATE 19) ≠ 0) := by
  refine ⟨⟨linked 1 id, ?_⟩, ⟨linked 2 id, ?_⟩, ⟨linked 2 fun k => { k with partner := some shake0, seen := true, told := true }, ?_⟩,
    ⟨linked 2 fun k => { k with fails := [4999999] }, ?_⟩, ⟨linked 2 fun k => { k with fails := [4999999, 4999998] }, ?_⟩, ⟨linked 4 id, ?_⟩,
    ⟨linked 3 id, ?_⟩, ⟨linked 3 id, .hk, ?_⟩, ⟨linked 0 id, .hk, ?_⟩, ⟨linked 1 id, .hk, ?_⟩⟩ <;> (try delta mayWrite) <;> decide +kernel

/-- A flit of a one-flit packet on VC 7; and with its CRC, or one more. -/
def flit1 (seq : Nat) : Flit := ⟨seq, 0, false, 0, 0, 0, 1, 7, List.replicate 240 0, 0, 0, false⟩
def flit0 (seq n : Nat) : Flit := { flit1 seq with crc := flitCheck (flit1 seq) + n }

theorem flit0_crc (seq n : Nat) : (flit0 seq n).crc = flitCheck (flit0 seq n) + n := by simp [flit0, flitCheck, flitHeader]
theorem flit0_good (seq n : Nat) (h : n = 0) : (flit0 seq n).crc = flitCheck (flit0 seq n) := by
  rw [flit0_crc]; generalize flitCheck (flit0 seq n) = x; omega
theorem flit0_bad (seq n : Nat) (h : n ≠ 0) : (flit0 seq n).crc ≠ flitCheck (flit0 seq n) := by
  rw [flit0_crc]; generalize flitCheck (flit0 seq n) = x; omega

/-- The hypotheses of FlitsAreReceivedAndReplayed are met: a broken flit, the next one after SEQ wraps, one taken before, one too early; a flit
to replay that is 2 µs old, asked for, and one that is younger. -/
theorem witness_FlitsAreReceivedAndReplayed :
    (∃ s : State, s.dev.up 19 = false ∧ s.dev.oget (O.LINK_STATE 19) ≠ 2 ∧ s.dev.fab.inbox = []) ∧
    (∃ s : State, quietLink s.dev 19 ∧ s.dev.fab.inbox = [] ∧ (s.dev.link 19).rxAck = 4095) ∧
    ((flit0 0 1).lost = false ∧ (flit0 0 1).crc ≠ flitCheck (flit0 0 1)) ∧
    (∀ q ∈ [0, 4095, 2047, 2048], (flit0 q 0).crc = flitCheck (flit0 q 0) ∧ (flit0 q 0).seq < 4096 ∧ (flit0 q 0).vc < 8) ∧
    (∃ s : State, s.dev.up 19 = true ∧ (s.dev.link 19).replay = [(4998000, flit1 4095)] ∧ (s.dev.link 19).replaySeq = 4095 ∧ (s.dev.link 19).replayRun = 6 ∧
      (s.dev.link 19).asked = true ∧ 4998000 + 2000 = s.dev.time) ∧
    (∃ s : State, s.dev.up 19 = true ∧ (s.dev.link 19).replay = [(4998001, flit1 4095)] ∧ (s.dev.link 19).replaySeq ≠ 4095 ∧
      (s.dev.link 19).asked = false ∧ s.dev.time < 4998001 + 2000) := by
  refine ⟨⟨linked 4 id, by decide +kernel⟩, ⟨linked 3 id, by delta quietLink; decide +kernel⟩, ⟨rfl, ?_⟩, ?_,
    ⟨linked 3 fun k => { k with replay := [(4998000, flit1 4095)], replaySeq := 4095, replayRun := 6, asked := true }, by decide +kernel⟩,
    ⟨linked 3 fun k => { k with replay := [(4998001, flit1 4095)] }, by decide +kernel⟩⟩
  · exact flit0_bad 0 1 (by decide)
  · intro q hq
    have hs : q < 4096 := by fin_cases hq <;> decide
    exact ⟨flit0_good q 0 rfl, hs, by simp [flit0, flit1]⟩

/-- A TIME flit of the parent that echoes the last one sent, 16 hops of delay each way, with an offset of `o` sixteenths. -/
def timeFlit0 (o : Nat) : TimeFlit := ⟨80000000 - 100, 79999000, 79999000 + 100 + 2 * o, 2, true, 253, 7, true, 0⟩

/-- The hypotheses of FabricTimeFollowsTheParent are met. -/
theorem witness_FabricTimeFollowsTheParent :
    (∀ sent, ∃ s : State, s.dev.up 19 = true ∧ (s.dev.link 19).sentTime (s.dev.time16 15999) = sent ∧ s.dev.oget O.TIME_ROOT = 1 ∧
      s.dev.oget O.TIME_STATE = 2) ∧ (∃ s : State, s.dev.up 19 = false) ∧
    (∃ s : State, s.dev.up 19 = true ∧ s.dev.oget O.TIME_ROOT ≠ 1 ∧ s.dev.oget O.TIME_PARENT = 19 ∧ s.dev.oget O.TIME_STATE = 1 ∧
      s.dev.fab.offsets = [] ∧ (timeFlit0 0).echoTx ∈ (s.dev.link 19).txTimes ∧
      s.dev.oget O.TIME_STEP_THRESHOLD = 100 ∧ (timeFlit0 1600).echoTx ∈ (s.dev.link 19).txTimes) ∧
    (∃ (s : State) (p : Path), mayWrite s p 0x7010 7 ∧ s.dev.oget O.TIME_ROOT = 1) ∧
    (∃ (s : State) (p : Path), mayWrite s p 0x7010 7 ∧ s.dev.oget O.TIME_ROOT ≠ 1) ∧
    (∃ s : State, s.dev.up 19 = true ∧ (s.dev.link 19).presets.length = 8 ∧ (s.dev.link 19).token = 255) ∧
    (∃ s : State, s.dev.up 19 = true ∧ s.dev.quiescing (linkDomain 19) = true) ∧
    (∀ frozen, ∃ s : State, s.dev.up 19 = true ∧ s.dev.quiescing (linkDomain 19) = false ∧ decide (s.dev.oget (O.EQ_FREEZE 19) = 1) = frozen) := by
  refine ⟨fun sent => ⟨linked 3 (fun k => { k with txTimes := [79999999 + b2n sent] }) fun d => obj O.TIME_ROOT 1 (obj O.TIME_STATE 2 d), ?_⟩, ⟨linked 4 id, ?_⟩,
    ⟨linked 3 (fun k => { k with txTimes := [0, 0, 0, 79999000] }) fun d => obj O.TIME_PARENT 19 (obj O.TIME_STATE 1 (obj O.TIME_STEP_THRESHOLD 100 d)), ?_⟩,
    ⟨ready (obj O.TIME_ROOT 1), .hk, ?_⟩, ⟨ready id, .hk, ?_⟩, ⟨linked 3 fun k => { k with token := 255 }, ?_⟩,
    ⟨linked 3 id (quieted (linkDomain 19)), ?_⟩, fun frozen => ⟨linked 3 id (obj (O.EQ_FREEZE 19) (b2n frozen)), ?_⟩⟩ <;> (try delta mayWrite) <;>
    decide +kernel +revert

/-! ### The router -/

/-- A response of 32 flits for chip 4095, after its last hop but one. -/
def packet0 : FPacket := ⟨0, 63, 0, 2, 32, false, 7, 4095, 0, List.replicate 100 1⟩

/-- A route to chip 4095 over link 19 on the HIGH VCs, with `n` shared credits. -/
def routed (n : Nat) : State := linked 3 (fun k => { k with shared := n }) (obj (O.ROUTE_TABLE 4095) (2 ^ 31 + 2 ^ 29 + 19))

/-- An ERROR packet for a COLLECTIVE of tenant 0. -/
def errorPkt (kind : Nat) : FPacket :=
  { packet0 with cls := 4, content := leBytes 8 0 ++ leBytes 16 (1 * 2 ^ 40) ++ leBytes 16 (kind + 5 * 2 ^ 16 + 9 * 2 ^ 32 + 255 * 2 ^ 64) }

/-- An operation of tenant 0 in group 5: rank `rank` of a tree in which rank 1 is the child of rank 0 and the parent of ranks 2 and 3. -/
def op0 (rank phase : Nat) : FabOp :=
  { order := 3, opc := 8, owner := 0, group := 5, opseq := 9, attempt := 255, die := 0, phase := phase, since := 0, entered := [], sentAt := none,
    release := none, exitSent := false, key := 77, rank := rank, table := [0, 1, 2 + 1 * 2 ^ 12, 3 + 1 * 2 ^ 12], dtable := [], lead := 0, limit := 5, window := 4, srcPieces := [], dstPieces := [],
    src := 0, dst := 0, op := 1, mode := 0, root := 0, todo := [], pulls := [], serve := [], vals := [], result := [], sentUp := false, filled := true, next := 0, acks := 0,
    hreq := [], hbuf := [] }

/-- The node of that operation. -/
def opNode : Node := { node0 with order := 3, opc := 8 }

/-- A state with that operation, on a device with `window0` mapped for the link complexes. -/
def opState (o : FabOp) (f : Dev → Dev := id) : State :=
  ready fun d => f { d with
    fab := { d.fab with ops := [o] }, prec := { d.prec with nodes := [opNode] },
    tr := { d.tr with wins := [(0, window0)], utlb := [(0x2000, [⟨0, 0, false, 1, 0, 0x20000, true, true, true⟩])] } }

/-- The hypotheses of PacketsAreRoutedOrDropped are met: a packet that fits the credits, and the same with a credit less; a packet without a
route; ERROR packets that name an operation and that do not. -/
theorem witness_PacketsAreRoutedOrDropped :
    (∃ s : State, fpBad packet0 = false ∧ packet0.dest ≠ s.dev.oget O.CHIP_ID ∧ s.dev.forward packet0 = .inl (19, 6) ∧ s.dev.fab.inbox = [] ∧
      ∀ x ∈ (s.dev.link 19).waiting ++ [⟨6, 20, 0, 0, 0, { packet0 with hops := 64 }⟩], (s.dev.link 19).canSend x = false) ∧
    (∃ s : State, s.dev.forward packet0 = .inl (19, 6) ∧ s.dev.fab.inbox = [] ∧ s.dev.quiescing (linkDomain 19) = false ∧ (s.dev.link 19).waiting = [] ∧
      (s.dev.link 19).canSend ⟨6, 20, 0, 0, 0, { packet0 with hops := 64 }⟩ = true ∧ (s.dev.link 19).ded.length = 8) ∧
    (∃ s : State, s.dev.forward { packet0 with hops := 64 } = .inr (0x38, 2, 255) ∧ s.dev.wantsError packet0 = false ∧ s.dev.fab.inbox = []) ∧
    (∃ (s : State) (o : FabOp), let p := errorPkt 4
      p.cls = 4 ∧ bits (leNat ((p.content.drop 8).take 16)) 40 8 = 1 ∧ bits (leNat ((p.content.drop 24).take 16)) 0 8 = 4 ∧
      s.dev.fab.ops.find? (fun (o : FabOp) => o.owner = p.owner && o.opseq = bits (leNat ((p.content.drop 24).take 16)) 32 32 &&
        (if bits (leNat ((p.content.drop 24).take 16)) 0 8 = 8 then o.opc = 6 else o.opc ≠ 6 && o.group = bits (leNat ((p.content.drop 24).take 16)) 16 16 &&
          o.attempt = bits (leNat ((p.content.drop 24).take 16)) 64 8)) = some o) ∧
    (let p := errorPkt 5; bits (leNat ((p.content.drop 24).take 16)) 0 8 ≠ 4 ∧ bits (leNat ((p.content.drop 24).take 16)) 0 8 ≠ 8) :=
  ⟨⟨routed 31, by decide +kernel⟩, ⟨routed 32, by decide +kernel⟩, ⟨routed 32, by decide +kernel⟩, ⟨opState (op0 1 2), op0 1 2, by decide +kernel⟩,
   by decide +kernel⟩

/-! ### Operations -/

/-- A packet of kind `kind` for that operation. -/
def opPkt (kind src : Nat) (load : List Byte) (f : OpHdr → OpHdr := id) : FPacket :=
  { packet0 with dest := 13, cls := 3, content := OpHdr.bytes (f { kind := kind, group := 5, opseq := 9, attempt := 255, src := src }) ++ load }

theorem reaches_of {s : State} {kind : Nat} {p : FPacket} {o : FabOp} {x : Node}
    (h : decide (((opHdrOf p).kind = kind ∧ 1 ≤ p.cls ∧ p.cls ≤ 3) ∧ s.dev.ownerLive p.owner = true ∧ s.dev.fab.inbox = [] ∧
      s.dev.fab.ops.find? (fun o => (opHdrOf p).names p.owner o) = some o ∧ (∀ y ∈ s.dev.fab.ops, y.order = o.order → y = o) ∧
      s.dev.node o.order = some x ∧ (opHdrOf p).attempt = o.attempt) = true) : Reaches s kind p o x := by
  obtain ⟨head, live, quiet, found, sole, node, attempt⟩ := of_decide_eq_true h
  exact ⟨head, live, quiet, found, sole, node, attempt⟩

/-- A descriptor of 8 FP32 elements at 0x10000. -/
def desc0 : Nat := 5 + 2 ^ 8 + 2 ^ 80 + 8 * 2 ^ 128

/-- Rank 1's own last element, the same in the tensor and locally. -/
def pull0 : Pull := ⟨2, 0, 0, 7, 1, 1, 0, 7, 0, 7⟩

/-- An operation that has asked for `pull0` and a box of another rank. -/
def dataOp : FabOp := { op0 1 2 with dst := desc0, pulls := [pull0, { pull0 with src := 3, scol := 6 }] }

/-- The result of reading or writing lines is lines. -/
def gotLines : OpRes → Bool
  | .lines _ => true
  | _ => false

theorem lines_of {r : Dev × OpRes} (h : gotLines r.2 = true) : ∃ ls, r = (r.1, .lines ls) := by
  rcases r with ⟨d, _ | _ | _ | _⟩ <;> simp_all [gotLines]

/-- A remote COPY with its last byte sent and `n` WRITEs to be acknowledged. -/
def copyOp (n : Nat) : FabOp := { op0 0 2 with opc := 6, group := 0, next := 64, acks := n }

/-- Its state. -/
def copyState0 (n : Nat) : State :=
  ready fun d => { d with fab := { d.fab with ops := [copyOp n] }, prec := { d.prec with nodes := [{ opNode with opc := 6, body := 64 * 2 ^ 256 }] } }

/-- The hypotheses of FabricOperationsExchangePackets are met by ENTER, RELEASE and ABORT. -/
theorem witness_FabricOperationsExchangePackets_barriers :
    (∃ (s : State) (p : FPacket) (o : FabOp) (x : Node), Reaches s 1 p o x ∧ o.phase = 1 ∧ leNat ((opLoad p).take 16) % 2 ^ 120 = o.key ∧
      2 * (opHdrOf p).src + leNat ((opLoad p).take 16) / 2 ^ 120 % 2 ∉ o.entered ∧
      ∃ c ∈ o.kids o.rank, 2 * c ∉ o.entered ++ [2 * (opHdrOf p).src + leNat ((opLoad p).take 16) / 2 ^ 120 % 2]) ∧
    (∃ (s : State) (p : FPacket), (opHdrOf p).kind = 1 ∧ 1 ≤ p.cls ∧ p.cls ≤ 3 ∧ s.dev.ownerLive p.owner = true ∧ s.dev.fab.inbox = [] ∧
      s.dev.fab.ops.find? (fun o => (opHdrOf p).names p.owner o) = none ∧
      (opHdrOf p).opseq = dget 0 s.dev.fab.opseq (65536 * p.owner + (opHdrOf p).group)) ∧
    (∃ (s : State) (p : FPacket), (opHdrOf p).kind = 1 ∧ 1 ≤ p.cls ∧ p.cls ≤ 3 ∧ s.dev.ownerLive p.owner = true ∧ s.dev.fab.inbox = [] ∧
      s.dev.fab.ops.find? (fun o => (opHdrOf p).names p.owner o) = none ∧
      dget 0 s.dev.fab.opseq (65536 * p.owner + (opHdrOf p).group) + 1 = (opHdrOf p).opseq ∧ p ∉ s.dev.fab.early ∧ s.dev.fab.early.length = 1023) ∧
    (∃ (s : State) (p : FPacket), (opHdrOf p).kind = 1 ∧ s.dev.fab.ops.find? (fun o => (opHdrOf p).names p.owner o) = none ∧
      dget 0 s.dev.fab.opseq (65536 * p.owner + (opHdrOf p).group) < (opHdrOf p).opseq ∧ s.dev.fab.early.length = 1024) ∧
    (∃ (s : State) (p : FPacket) (o : FabOp) (x : Node), Reaches s 2 p o x ∧ o.phase = 1 ∧ o.release = none ∧ o.kids o.rank = [] ∧ s.dev.time = leNat ((opLoad p).take 8)) ∧
    (∃ (s : State) (p : FPacket) (o : FabOp) (x : Node), Reaches s 3 p o x ∧ (opHdrOf p).fatal = false ∧ o.rank ≠ 0 ∧ (opHdrOf p).src = reParent (o.entry o.rank) ∧ o.kids o.rank = [] ∧
      s.dev.fab.early = [] ∧ o.phase = 4) ∧
    (∃ (s : State) (p : FPacket) (o : FabOp) (x : Node), Reaches s 3 p o x ∧ (opHdrOf p).fatal = false ∧ o.rank ≠ 0 ∧ (opHdrOf p).src = reParent (o.entry o.rank) ∧ o.kids o.rank = [] ∧
      s.dev.fab.early = [] ∧ o.phase = 2) ∧
    (∃ (s : State) (p : FPacket) (o : FabOp) (x : Node), Reaches s 3 p o x ∧ (opHdrOf p).fatal = true ∧ (opHdrOf p).group ≠ 0) :=
  ⟨⟨opState (op0 1 1), opPkt 1 2 (leBytes 16 77), op0 1 1, opNode, reaches_of (by decide +kernel), by decide +kernel⟩,
   ⟨opState (op0 1 1) fun d => { d with fab := { d.fab with opseq := [(5, 10)] } }, opPkt 1 2 (leBytes 16 77) (fun h => { h with opseq := 10 }), by decide +kernel⟩,
   ⟨opState (op0 1 1) fun d => { d with fab := { d.fab with opseq := [(5, 9)], early := List.replicate 1023 packet0 } },
     opPkt 1 2 (leBytes 16 77) (fun h => { h with opseq := 10 }), by decide +kernel⟩,
   ⟨opState (op0 1 1) fun d => { d with fab := { d.fab with early := List.replicate 1024 packet0 } }, opPkt 1 2 (leBytes 16 77) (fun h => { h with opseq := 10 }),
     by decide +kernel⟩,
   ⟨opState (op0 2 1), opPkt 2 1 (leBytes 8 5000000), op0 2 1, opNode, reaches_of (by decide +kernel), by decide +kernel⟩,
   ⟨opState (op0 2 4), opPkt 3 1 [], op0 2 4, opNode, reaches_of (by decide +kernel), by decide +kernel⟩,
   ⟨opState (op0 2 2), opPkt 3 1 [], op0 2 2, opNode, reaches_of (by decide +kernel), by decide +kernel⟩,
   ⟨opState (op0 2 2), opPkt 3 1 [] (fun h => { h with fatal := true }), op0 2 2, opNode, reaches_of (by decide +kernel), by decide +kernel⟩⟩

/-- A PULL of the last element by rank 3, the DATA that answers `pull0`, and a WRITE of the page's last 32 bytes. -/
def pullPkt : FPacket := opPkt 4 3 [] fun h => { h with col := 7, rows := 1, cols := 1 }
def dataPkt : FPacket := opPkt 5 2 [1, 0, 0, 0, 0] fun h => { h with col := 7, rows := 1, cols := 1 }
def writePkt : FPacket := opPkt 8 0 (leBytes 8 0x1FFE0 ++ List.replicate 32 1) fun h => { h with cols := 32 }

/-- What serving that PULL reads, and what storing that DATA writes. -/
def srcOp : FabOp := { op0 1 2 with src := desc0 }
def pullRead : Dev × OpRes :=
  let bs := boxBits srcOp.src (opHdrOf pullPkt).lead (opHdrOf pullPkt).row (opHdrOf pullPkt).col (opHdrOf pullPkt).rows (opHdrOf pullPkt).cols
  ((opState srcOp).dev.onOp srcOp.order fun o => { o with serve := o.serve ++ [pullPkt] }).opRead opNode srcOp (elementPages (bs.map some))
    (linesOf (bs.map some))
def pullLines : List VLine := match pullRead.2 with
  | .lines l => l
  | _ => []
def dataWrite : Dev × OpRes :=
  (opState dataOp).dev.storeBox opNode dataOp pull0 (unpackVals (tdBits dataOp.dst) (pull0.rows * pull0.cols) (opLoad dataPkt))

theorem pullRead_lines : pullRead = (pullRead.1, .lines pullLines) := Prod.ext rfl (by decide +kernel)
theorem dataWrite_lines : ∃ l, dataWrite = (dataWrite.1, .lines l) := lines_of (by decide +kernel)

/-- The hypotheses of FabricOperationsExchangePackets are met by PULL, DATA, UP, DOWN, WRITE and ACK. -/
theorem witness_FabricOperationsExchangePackets_data :
    (∃ (s : State) (p : FPacket) (o : FabOp) (x : Node), Reaches s 4 p o x ∧ o.phase = 1) ∧
    (∃ (s : State) (p : FPacket) (o : FabOp) (x : Node), ∃ (d1 : Dev) (ls : List VLine), Reaches s 4 p o x ∧ o.phase = 2 ∧ o.serve = [] ∧ p.src ≠ s.dev.oget O.CHIP_ID ∧
      (let h := opHdrOf p
       let bs := boxBits o.src h.lead h.row h.col h.rows h.cols
       (s.dev.onOp o.order fun o => { o with serve := o.serve ++ [p] }).opRead x o (elementPages (bs.map some))
         (linesOf (bs.map some)) = (d1, .lines ls)) ∧ d1.fab.inbox = []) ∧
    (∃ (s : State) (p : FPacket) (o : FabOp) (x : Node) (q : Pull) (d1 : Dev), Reaches s 5 p o x ∧ o.phase = 2 ∧ o.filled = true ∧ o.todo = [] ∧ o.pulls.length ≠ 1 ∧
      (let h := opHdrOf p
       o.pulls.find? (fun q => q.src = h.src && q.lead = h.lead && q.srow = h.row && q.scol = h.col && q.rows = h.rows && q.cols = h.cols)) = some q ∧
      (∃ l, s.dev.storeBox x o q (unpackVals (tdBits o.dst) (q.rows * q.cols) (opLoad p)) = (d1, .lines l)) ∧ d1.op o.order = some o ∧
      (∀ y ∈ d1.fab.ops, y.opc = 7 → y.phase = 2 → y.order = o.order) ∧ d1.fab.inbox = []) ∧
    (∃ (s : State) (p : FPacket) (o : FabOp) (x : Node), Reaches s 6 p o x ∧ o.op ≠ 4 ∧ o.phase ≠ 2) ∧ (∃ (s : State) (p : FPacket) (o : FabOp) (x : Node), Reaches s 7 p o x ∧ o.phase ≠ 2) ∧
    (∃ (s : State) (p : FPacket) (d1 : Dev) (i : List Byte) (w : Bool), (opHdrOf p).kind = 8 ∧ 1 ≤ p.cls ∧ p.cls ≤ 3 ∧ s.dev.ownerLive p.owner = true ∧
      s.dev.fab.inbox = [] ∧ p.src ≠ s.dev.oget O.CHIP_ID ∧ leNat ((opLoad p).take 8) = 0x1FFE0 ∧ (s.dev.windowAt 0 0x1FFE0).map (·.2.home) = some 0 ∧
      s.dev.vaWrite 0x2000 p.owner (leNat ((opLoad p).take 8)) (((opLoad p).drop 8).take (opHdrOf p).cols) false = (d1, .ok i w) ∧ d1.fab.inbox = []) ∧
    (∀ n ∈ [1, 2], ∃ (s : State) (p : FPacket) (o : FabOp) (x : Node), (opHdrOf p).kind = 9 ∧ 1 ≤ p.cls ∧ p.cls ≤ 3 ∧ s.dev.ownerLive p.owner = true ∧
      s.dev.fab.inbox = [] ∧ s.dev.fab.ops.find? (fun o => o.opc = 6 && o.owner = p.owner && o.opseq = (opHdrOf p).opseq) = some o ∧
      s.dev.node o.order = some x ∧ s.dev.op o.order = some o ∧ (opHdrOf p).detail = 0 ∧ cpLength x.body ≤ o.next ∧ o.acks = n) := by
  refine ⟨⟨opState (op0 1 1), pullPkt, op0 1 1, opNode, reaches_of (by decide +kernel), by decide +kernel⟩,
    ⟨opState srcOp, pullPkt, srcOp, opNode, pullRead.1, pullLines, reaches_of (by decide +kernel), by decide +kernel, by decide +kernel, by decide +kernel,
      pullRead_lines, by decide +kernel⟩,
    ⟨opState dataOp, dataPkt, dataOp, opNode, pull0, dataWrite.1, reaches_of (by decide +kernel), by decide +kernel, by decide +kernel, by decide +kernel,
      by decide +kernel, by decide +kernel, dataWrite_lines, by decide +kernel⟩,
    ⟨opState (op0 1 1), opPkt 6 2 [], op0 1 1, opNode, reaches_of (by decide +kernel), by decide +kernel⟩,
    ⟨opState (op0 1 1), opPkt 7 0 [], op0 1 1, opNode, reaches_of (by decide +kernel), by decide +kernel⟩,
    ⟨opState (op0 1 1), writePkt, ((opState (op0 1 1)).dev.vaWrite 0x2000 0 0x1FFE0 (List.replicate 32 1) false).1, [], false, by decide +kernel⟩, ?_⟩
  intro n hn
  fin_cases hn
  · exact ⟨copyState0 1, opPkt 9 0 [], copyOp 1, { opNode with opc := 6, body := 64 * 2 ^ 256 }, by decide +kernel⟩
  · exact ⟨copyState0 2, opPkt 9 0 [], copyOp 2, { opNode with opc := 6, body := 64 * 2 ^ 256 }, by decide +kernel⟩

/-- The hypotheses of FabricOperationsExchangePackets are met by releases and timers, at the time each is due. -/
theorem witness_FabricOperationsExchangePackets_timers :
    (∃ (s : State) (o : FabOp) (x : Node), s.dev.op 3 = some o ∧ s.dev.node 3 = some x ∧ s.dev.fab.inbox = [] ∧ o.release = none) ∧
    (∃ (s : State) (o : FabOp) (x : Node), s.dev.op 3 = some o ∧ s.dev.node 3 = some x ∧ s.dev.fab.inbox = [] ∧ o.release = some s.dev.time ∧ o.phase = 3) ∧
    (∃ (s : State) (o : FabOp), s.dev.op 3 = some o ∧ o.sentAt = some 4990001 ∧ s.dev.time < 4990001 + 10000) ∧
    (∃ (s : State) (o : FabOp), s.dev.op 3 = some o ∧ o.sentAt = some 4990000 ∧ 4990000 + 10000 = s.dev.time ∧ o.phase = 1 ∧ o.release = none) ∧
    (∃ (s : State) (o : FabOp), s.dev.op 3 = some o ∧ o.release = none ∧ o.since + 1000000 * o.limit = s.dev.time ∧ o.phase = 1) :=
  ⟨⟨opState (op0 1 1), op0 1 1, opNode, by decide +kernel⟩, ⟨opState { op0 1 3 with release := some 5000000 }, { op0 1 3 with release := some 5000000 }, opNode, by decide +kernel⟩,
   ⟨opState { op0 1 1 with sentAt := some 4990001 }, { op0 1 1 with sentAt := some 4990001 }, by decide +kernel⟩,
   ⟨opState { op0 1 1 with sentAt := some 4990000 }, { op0 1 1 with sentAt := some 4990000 }, by decide +kernel⟩,
   ⟨opState (op0 1 1), op0 1 1, by decide +kernel⟩⟩

end Sys2Proof.Tests
end

