-- ==== Sys2Proof/Tests/WitnessFp.lean ====
section
/-! SUPPORT. Tests/WitnessFp.lean: for each statement about the values of floating-point arithmetic, patterns that meet its hypotheses. Format 6
is binary16: 0x7BFF is 65504, its largest number, 0x3C00 is 1, 0x0001 is 2⁻²⁴, 0x7C00 is infinite, 0x7D00 a signaling NaN. -/

namespace Sys2Proof.Tests

open Sys2Proof Sys2Proof.Machine Sys2Proof.Claims

set_option Elab.async false

theorem fpReal_fin {f x m : Nat} {n : Bool} {e : Int} (h : fpDecode f x = .fin n m e) :
    fpReal f x = some ((if n then -1 else 1) * (m : ℝ) * (2 : ℝ) ^ e) := by simp [fpReal, h]

theorem fpExt_inf {f x : Nat} {n : Bool} (h : fpDecode f x = .inf n) : fpExt f x = some (if n then ⊥ else ⊤) := by simp [fpExt, h]

theorem fpExt_fin {f x m : Nat} {n : Bool} {e : Int} (h : fpDecode f x = .fin n m e) :
    fpExt f x = some (((if n then -1 else 1) * (m : ℝ) * (2 : ℝ) ^ e : ℝ) : EReal) := by simp [fpExt, h]

theorem real_one : fpReal 6 0x3C00 = some 1 := by rw [fpReal_fin (show _ = FVal.fin false 1024 (-10) by decide +kernel)]; norm_num
theorem real_large : fpReal 6 0x7BFF = some 65504 := by rw [fpReal_fin (show _ = FVal.fin false 2047 5 by decide +kernel)]; norm_num
theorem real_minus : fpReal 6 0xBC00 = some (-1) := by rw [fpReal_fin (show _ = FVal.fin true 1024 (-10) by decide +kernel)]; norm_num
theorem real_zero : fpReal 6 0 = some 0 := by rw [fpReal_fin (show _ = FVal.fin false 0 (-24) by decide +kernel)]; norm_num
theorem real_minus_zero : fpReal 6 0x8000 = some 0 := by rw [fpReal_fin (show _ = FVal.fin true 0 (-24) by decide +kernel)]; norm_num
theorem largest_half : fpLargest 6 = 65504 := by
  unfold fpLargest; rw [show fmtMax 6 = 0x7BFF from rfl, real_large]; rfl

/-- The hypotheses of SumsAndProductsRoundOnce are met: 65504 − 1, 65504 · 1, 65504 · 1 − 1, and 1 · 1 − 1. -/
theorem witness_SumsAndProductsRoundOnce :
    (∃ a b va vb, fpReal 6 a = some va ∧ fpReal 6 b = some vb ∧ va + vb ≠ 0 ∧ |va + vb| ≤ fpLargest 6) ∧
    (∃ a b va vb, fpReal 6 a = some va ∧ fpReal 6 b = some vb ∧ va * vb ≠ 0 ∧ |va * vb| ≤ fpLargest 6) ∧
    (∃ a b c va vb vc, fpReal 6 a = some va ∧ fpReal 6 b = some vb ∧ fpReal 6 c = some vc ∧ va * vb + vc ≠ 0 ∧
      |va * vb + vc| ≤ fpLargest 6) ∧
    (∃ a b c va vb vc, fpReal 6 a = some va ∧ fpReal 6 b = some vb ∧ fpReal 6 c = some vc ∧ va * vb + vc = 0) := by
  rw [largest_half]
  exact ⟨⟨_, _, _, _, real_large, real_minus, by norm_num, by norm_num [abs_of_nonneg]⟩,
    ⟨_, _, _, _, real_large, real_one, by norm_num, by norm_num [abs_of_nonneg]⟩,
    ⟨_, _, _, _, _, _, real_large, real_one, real_minus, by norm_num, by norm_num [abs_of_nonneg]⟩,
    ⟨_, _, _, _, _, _, real_one, real_one, real_minus, by norm_num⟩⟩

/-- The hypotheses of QuotientsAndRootsRoundOnce are met: 65504 / 1 and the root of 65504. -/
theorem witness_QuotientsAndRootsRoundOnce :
    (∃ a b va vb, fpReal 6 a = some va ∧ fpReal 6 b = some vb ∧ va ≠ 0 ∧ vb ≠ 0 ∧ |va / vb| ≤ fpLargest 6) ∧
    (∃ a va, fpReal 6 a = some va ∧ 0 < va) := by
  rw [largest_half]
  exact ⟨⟨_, _, _, _, real_large, real_one, by norm_num, by norm_num, by norm_num [abs_of_nonneg]⟩, ⟨_, _, real_large, by norm_num⟩⟩

/-- The hypotheses of SpecialOperandsGiveTableFlags are met. -/
theorem witness_SpecialOperandsGiveTableFlags :
    nanBits 6 0x7D00 = true ∧ (∃ c a b va vb, nanBits 6 c = true ∧ fpReal 6 a = some va ∧ fpReal 6 b = some vb) ∧
    (∃ a b, fpExt 6 a = some ⊤ ∧ fpExt 6 b = some ⊥) ∧ (∃ a b, fpExt 6 a = some ⊤ ∧ fpReal 6 b = some 0) ∧
    (∃ a b, fpReal 6 a = some 0 ∧ fpReal 6 b = some 0 ∧ negBits 6 a ≠ negBits 6 b) ∧
    (∃ a b va, fpReal 6 a = some va ∧ va ≠ 0 ∧ fpReal 6 b = some 0) ∧ (∃ a va, fpReal 6 a = some va ∧ va < 0) ∧
    ∃ a, fpReal 6 a = some 0 := by
  have hp : fpExt 6 0x7C00 = some ⊤ := by rw [fpExt_inf (show _ = FVal.inf false by decide +kernel)]; rfl
  have hm : fpExt 6 0xFC00 = some ⊥ := by rw [fpExt_inf (show _ = FVal.inf true by decide +kernel)]; rfl
  exact ⟨by decide +kernel, ⟨0x7D00, _, _, _, _, by decide +kernel, real_one, real_one⟩, ⟨_, _, hp, hm⟩, ⟨_, _, hp, real_zero⟩,
    ⟨_, _, real_zero, real_minus_zero, by decide +kernel⟩, ⟨_, _, _, real_one, by norm_num, real_zero⟩, ⟨_, _, real_minus, by norm_num⟩,
    ⟨_, real_zero⟩⟩

/-- The hypotheses of ComparisonsFollowValues are met: numbers, a NaN on either side and on both, and zeros of both signs. -/
theorem witness_ComparisonsFollowValues :
    (∃ a b va vb, a < 2 ^ 16 ∧ b < 2 ^ 16 ∧ fpExt 6 a = some va ∧ fpExt 6 b = some vb) ∧
    (nanBits 6 0x7D00 = true ∧ nanBits 6 0x7E00 = true ∧ nanBits 6 0x3C00 = false ∧ sigBits 6 0x7D00 = true ∧ sigBits 6 0x7E00 = false) ∧
    (∃ a b, fpExt 6 a = some 0 ∧ fpExt 6 b = some 0 ∧ negBits 6 a ≠ negBits 6 b) := by
  have h0 : fpExt 6 0 = some 0 := by rw [fpExt_fin (show _ = FVal.fin false 0 (-24) by decide +kernel)]; norm_num
  have h1 : fpExt 6 0x8000 = some 0 := by rw [fpExt_fin (show _ = FVal.fin true 0 (-24) by decide +kernel)]; norm_num
  exact ⟨⟨0, 0x8000, _, _, by norm_num, by norm_num, h0, h1⟩, by decide +kernel, ⟨_, _, h0, h1, by decide +kernel⟩⟩

/-- The hypotheses of ConversionsRoundAndClamp are met: 2³¹ of UINT32 to INT32, a NaN and 1 of binary16 to INT8, INT8 −1 to binary16, and
65504 of binary16 to binary32. -/
theorem witness_ConversionsRoundAndClamp :
    (isIntFmt 1 = true ∧ isIntFmt 0 = true ∧ 2 ^ 31 < 2 ^ fmtWidth 1 ∧ (clampInto 0 (intDecode 1 (2 ^ 31))).2 = true) ∧
    (isIntFmt 6 = false ∧ isIntFmt 11 = true ∧ nanBits 6 0x7E00 = true ∧ 0x7E00 < 2 ^ fmtWidth 6) ∧ (∃ x q, x < 2 ^ fmtWidth 6 ∧ fpReal 6 x = some q) ∧
    (∃ x, x < 2 ^ fmtWidth 11 ∧ |(intDecode 11 x : ℝ)| ≤ fpLargest 6 ∧ intDecode 11 x ≠ 0) ∧
    (∃ x q, x < 2 ^ fmtWidth 6 ∧ fpReal 6 x = some q ∧ q ≠ 0 ∧ |q| ≤ fpLargest 5 ∧ isIntFmt 5 = false) := by
  have hl : fpLargest 5 = (2 ^ 24 - 1) * 2 ^ 104 := by
    unfold fpLargest; rw [show fmtMax 5 = 0x7F7FFFFF from rfl, fpReal_fin (show _ = FVal.fin false (2 ^ 24 - 1) 104 by decide +kernel)]; norm_num
  refine ⟨by decide +kernel, by decide +kernel, ⟨_, _, by norm_num [fmtWidth], real_one⟩, ⟨255, by norm_num [fmtWidth], ?_, by decide +kernel⟩,
    ⟨0x7BFF, _, by norm_num [fmtWidth], real_large, by norm_num, ?_, by decide +kernel⟩⟩
  · rw [largest_half, show intDecode 11 255 = -1 by decide +kernel]; norm_num
  · rw [hl]; norm_num [abs_of_nonneg]

end Sys2Proof.Tests
end

