-- ==== Sys2Proof/Tests/WitnessHost.lean ====
section
/-! SUPPORT. Tests/WitnessHost.lean: for each statement about fault batches, the host port and the precentor, states and commands that meet its
hypotheses, at boundaries of their ranges. -/

namespace Sys2Proof.Tests

open Sys2Proof Sys2Proof.Machine Sys2Proof.Claims

set_option Elab.async false
set_option exponentiation.threshold 512

/-! ### Fault batches and host translations -/

/-- An open batch of one record, its first at 20 µs before the time `late` before now. -/
def batchState (late : Nat) : State := ready fun d => { d with tr := { d.tr with batchCount := 1, batchFirst := d.time - 20000 + 1 - late } }

/-- FAULT_GET at the end of its range, FAULT_PUT 6 ahead of it. -/
def drainState : State := ready fun d => obj O.FAULT_PUT 5 (obj O.FAULT_GET (2 ^ 32 - 1) d)

/-- The hypotheses of FaultBatchesCloseAndDrain are met. -/
theorem witness_FaultBatchesCloseAndDrain :
    (∃ s : State, s.dev.tr.batchCount ≠ 0 ∧ s.dev.time < s.dev.tr.batchFirst + 20000) ∧
    (∃ s : State, s.dev.tr.batchCount ≠ 0 ∧ s.dev.tr.batchFirst + 20000 = s.dev.time ∧ s.dev.oget O.FAULT_RING_SPACE = 0) ∧
    (∃ s : State, s.dev.tr.batchCount ≠ 0 ∧ s.dev.tr.batchFirst + 20000 = s.dev.time ∧ s.dev.oget O.FAULT_RING_SPACE = 1 ∧
      s.dev.reachable (s.dev.oget O.FAULT_RING_BASE + 262144) = true ∧ s.dev.reachable (s.dev.oget O.FAULT_RING_BASE + 262144 + 7) = true) ∧
    (∃ (s : State) (p : Path), mayWrite s p 0x3420 4 ∧ (5 + 2 ^ 32 - s.dev.oget O.FAULT_GET) % 2 ^ 32 ≤ (s.dev.oget O.FAULT_PUT + 2 ^ 32 - s.dev.oget O.FAULT_GET) % 2 ^ 32 ∧
      s.dev.tr.waiting = [] ∧
      (s.dev.oget O.FAULT_PUT + 2 ^ 32 - s.dev.oget O.FAULT_GET) % 2 ^ 32 < (6 + 2 ^ 32 - s.dev.oget O.FAULT_GET) % 2 ^ 32) ∧
    (∃ (s : State) (p : Path), mayWrite s p 0x3420 1 ∧ (2 ^ 64 - 4096) % 4096 = 0 ∧ s.dev.oget O.FAULT_PUT = s.dev.oget O.FAULT_GET) ∧
    (∃ (s : State) (p : Path), mayWrite s p 0x3420 1 ∧ s.dev.oget O.FAULT_PUT ≠ s.dev.oget O.FAULT_GET) :=
  ⟨⟨batchState 0, by decide +kernel⟩, ⟨batchState 1, by decide +kernel⟩,
   ⟨{ batchState 1 with dev := obj O.FAULT_RING_SPACE 1 (obj O.FAULT_RING_BASE 0x100000 (batchState 1).dev) }, by decide +kernel⟩, ⟨drainState, .hk, by delta mayWrite; decide +kernel⟩,
   ⟨ready id, .hk, by delta mayWrite; decide +kernel⟩, ⟨drainState, .hk, by delta mayWrite; decide +kernel⟩⟩

/-- Window 3 of tenant 0 in host memory, and its page of 4 KiB, cached. -/
def hostWindow : Window := { window0 with home := 3, hostBase := 0x40000, x := false }

/-- A record of tenant 0 that needs a PRI response, sent at `t`. -/
def priTrack (t : Nat) : FaultTrack :=
  ⟨⟨0, 2, 513, 1, 0, 0, 3, true, 0, 1, 9, 0, 0, true, false, true, true, 1, 0x10000, 0⟩, false, false, 1, t⟩

def atsState : State := ready fun d =>
  { d with tr := { d.tr with wins := [(3, hostWindow)], atc := [⟨0, 3, false, 0x40000, 4096, 0x9000, true, true, false⟩], tracks := [priTrack 4000000],
                             batchSeq := 514 },
           host := { d.host with atsSent := [(1, 0x4F, 3, true)] } }

/-- A translated host read of tenant 0 through the page at 0x40000, not yet sent. -/
def unsentState : State :=
  { atsState with dev := { atsState.dev with host := { atsState.dev.host with reads := [⟨0, 1, 0x9000, 8, 0, 0, ⟨0, 0x10FFF, 0x40FFF, true, true, 0⟩, false, false⟩] } } }

/-- A page request of tenant 0 that waits for its function's allocation of one, with another on its way. -/
def pagesState : State :=
  { atsState with dev := Dev.setFunc { atsState.dev with tr := { atsState.dev.tr with
      tracks := [priTrack 4000000, { priTrack 0 with pri := 4, rcd := { (priTrack 0).rcd with seq := 512 } }] } } 1 { func0 with prAlloc := 1 } }

/-- The hypotheses of HostTranslationsComeAndGo are met: a reply for the last page of the window that gives the right asked for or not, an
invalidation that touches the last byte of a cached page and that a request awaits or not, a record that awaits its response, one due,
and a request that waits for its function's allocation. -/
theorem witness_HostTranslationsComeAndGo :
    (∀ right, ∃ (s : State) (a : AtsReply), a.kind = 0 ∧ a.size = 4096 ∧ a.size &&& (a.size - 1) = 0 ∧
      s.dev.host.atsSent.find? (fun r => r.1 = 1 && r.2.1 = a.u / 4096 && r.2.2.2 = a.write) = some (1, 0x4F, 3, true) ∧
      (if a.write then a.w else a.r) = right) ∧
    (∀ late, ∃ s : State, s.dev.host.atsInvs = [] ∧ (s.dev.func 1).inFlr = false ∧
      s.dev.unsent.any (fun v => v.host = true ∧ v.cached = true ∧ v.fn = 1 ∧ 0x40FFF / 4096 ≤ v.u / 4096 ∧ v.u < 0x40FFF + 1 ∧
        v.epoch ≤ s.dev.tr.epoch) = late) ∧
    (∃ s : State, ∀ t ∈ s.dev.tr.tracks, fnOf t.rcd.owner = 1 → t.pri ≠ 4) ∧
    (∃ (s : State) (t : FaultTrack) (w : Window),
      s.dev.tr.tracks.filter (fun y => fnOf y.rcd.owner = 1 && y.pri = 4 && y.rcd.seq ≠ s.dev.tr.batchSeq) = [t] ∧
      s.dev.window t.rcd.owner t.rcd.window = some w ∧
      (s.dev.tr.tracks.filter fun y => fnOf y.rcd.owner = 1 && y.pri = 1 && (y.rcd.seq % 512 ≠ 1 || y.rcd.seq = s.dev.tr.batchSeq)).length <
        (s.dev.func 1).prAlloc) ∧
    (∃ s : State, ∃ e ∈ s.dev.tr.atc, e.owner = 0 ∧ e.page < 0x40FFF + 1 ∧ 0x40FFF < e.page + e.span) ∧
    (∃ s : State, ∃ t ∈ s.dev.tr.tracks, t.pri = 1 ∧ fnOf t.rcd.owner = 1 ∧ t.rcd.seq % 512 = 1 ∧ t.rcd.seq ≠ s.dev.tr.batchSeq ∧
      t.sentAt + 1000000 * s.dev.oget O.PRI_TIMEOUT ≤ s.dev.time) :=
  ⟨fun right => ⟨atsState, ⟨0x4FFFF, 0, 4096, 0x8000, true, right, 0, true⟩, by cases right <;> decide +kernel⟩,
   fun late => ⟨if late then unsentState else atsState, by cases late <;> decide +kernel⟩, ⟨atsState, by decide +kernel⟩,
   ⟨pagesState, { priTrack 0 with pri := 4, rcd := { (priTrack 0).rcd with seq := 512 } }, hostWindow, by decide +kernel⟩, ⟨atsState, by decide +kernel⟩,
   ⟨{ atsState with dev := obj O.PRI_TIMEOUT 1 atsState.dev }, by decide +kernel⟩⟩

/-! ### The host port -/

/-- Queue 15 of tenant 0 with a ring of 16 slots at the start of `window0`. -/
def ringState : State :=
  let s := mapped (ready fun d => d.onQueue 15 fun q => { q with pqBase := 0x1F000, state := .enabled })
  { s with dev := { s.dev with tr := { s.dev.tr with utlb := [(0x3000, [⟨0, 0, false, 1, 0, 0x20000, true, true, true⟩])] } } }

/-- The hypotheses of HostAccessesReachTheirRegisters are met: the gate of the PF and of a VF is open, a read of the last bytes of memory, a
vector that is pending, and a write of the last bytes of a ring. -/
theorem witness_HostAccessesReachTheirRegisters :
    (∃ s : State, s.dev.barGate (fnOf 0) = 0 ∧ s.dev.barGate (fnOf 256) = 0) ∧
    (∃ s : State, s.dev.barGate 0 = 0 ∧ s.dev.bar2Inside 0x1000 4096 = true ∧ s.dev.bar2Reach 0x1000 4096 = true) ∧
    (∃ s : State, s.dev.barGate 1 = 0 ∧ (s.dev.func 1).pba = []) ∧
    (∃ s : State, s.dev.barGate 1 = 0 ∧ s.dev.msixOpen 1 = true ∧ (s.dev.func 1).pba = [31]) ∧
    (∃ (s : State) (d1 : Dev) (ps : List (TRes × Nat × Nat)), s.dev.barGate 1 = 0 ∧
      15 * 2 ^ 20 + 960 < 2 ^ 24 ∧ (15 * 2 ^ 20 + 960) % 2 ^ 20 + 64 ≤ 64 * (s.dev.queue (16 * 0 + (15 * 2 ^ 20 + 960) / 2 ^ 20)).pqSlots ∧
      s.dev.ringPieces 0 ((s.dev.queue 15).pqBase + 960) 64 = (d1, some ps) ∧ ∀ p ∈ ps, ∃ i w x, p.1 = .dev i w x) :=
  ⟨⟨ready id, by decide +kernel⟩, ⟨ready id, by decide +kernel⟩, ⟨ready id, by decide +kernel⟩,
   ⟨ready fun d => d.setFunc 1 { func0 with pba := [31] }, by decide +kernel⟩,
   ⟨ringState, (ringState.dev.ringPieces 0 0x1F3C0 64).1, [(.dev 0 window0 0x2F3C0, 0x1F3C0, 64)], by decide +kernel, by decide +kernel,
     by decide +kernel, by decide +kernel, pieces_onDie (by decide +kernel)⟩⟩

/-- The hypotheses of FunctionsResetAndConfigure are met. -/
theorem witness_FunctionsResetAndConfigure :
    (∃ s : State, s.dev.configGate 256 = true ∧ s.dev.hasContext 255 = false) ∧ (∃ s : State, s.dev.configGate 1 = true ∧ s.dev.hasContext 0 = true) ∧
    (∃ s : State, s.dev.configGate 0 = true ∧ s.dev.host.numVfs ≤ 256 ∧ (∀ t < 256, s.dev.hasContext t = false) ∧ s.dev.logs.queue = [] ∧
      s.dev.logs.teardowns = []) ∧
    (∀ on, ∃ s : State, s.dev.configGate 0 = true ∧ s.dev.host.vfEnable = on) ∧
    (∃ (d : Dev) (fn e : Nat), bit (d.func fn).aerMask e = true) ∧
    ∀ k ∈ [3, 4], ∃ (d : Dev) (fn e : Nat), bit (d.func fn).aerMask e = false ∧ (d.host.headers.filter fun x => x.fn = fn).length = k :=
  ⟨⟨ready id, by decide +kernel⟩, ⟨ready id, by decide +kernel⟩, ⟨ready (obj (O.TENANT_STATE 0) 0), by decide +kernel⟩,
   fun on => ⟨ready fun d => { d with host := { d.host with vfEnable := on } }, by cases on <;> decide +kernel⟩,
   ⟨Dev.reset.setFunc 256 { Dev.reset.func 256 with aerMask := 2 ^ 31 }, 256, 31, by decide +kernel⟩,
   fun k hk => ⟨{ Dev.reset with host := { Dev.reset.host with headers := List.replicate k ⟨256, 20, 0, 0, 0, 8⟩ } }, 256, 20, by
     fin_cases hk <;> decide +kernel⟩⟩

/-- A read of the header of the completion ring of queue 4111. -/
def cqRead : HostRead := ⟨16383, 0, 0x1000, 8, 8, 4111, .ring, true, false⟩

/-- The hypotheses of HostLinkComesAndGoes are met. -/
theorem witness_HostLinkComesAndGoes :
    (∃ s : State, s.dev.boot.inReset = false ∧ s.dev.oget (O.PD_STATE 1) = 2 ∧ s.dev.host.perst = false ∧ s.dev.oget O.HOSTPORT_STATE = 0 ∧
      widthOk 6 4 (s.dev.oget O.HOST_WIDTH_STRAP) = true ∧ widthOk 5 16 (s.dev.oget O.HOST_WIDTH_STRAP) = true) ∧
    (∃ s : State, s.dev.boot.inReset = false ∧ s.dev.oget O.HOSTPORT_STATE ≠ 0 ∧ widthOk 6 1 (s.dev.oget O.HOST_WIDTH_STRAP) = true) ∧
    (∃ (s : State) (r : HostRead) (bs : List Byte), s.dev.host.reads.find? (fun r => r.tag = 16383 && r.sent) = some r ∧ r.abandoned = false ∧
      r.use = 8 ∧ bs.length = r.len ∧ s.dev.host.reads = [r]) ∧
    (∃ s : State, s.dev.pkg.powered = true ∧ s.dev.boot.resetN = false ∧ s.dev.host.perst = false ∧ s.dev.oget O.PERST_ACTION ≠ 0 ∧
      s.dev.oget O.HOSTPORT_STATE = 0) ∧
    (∃ s : State, s.dev.pkg.powered = true ∧ s.dev.boot.resetN = false ∧ s.dev.host.perst = true) :=
  ⟨⟨ready fun d => obj O.HOST_WIDTH_STRAP 16 (obj O.HOSTPORT_STATE 0 d), by decide +kernel⟩, ⟨ready (obj O.HOST_WIDTH_STRAP 16), by decide +kernel⟩,
   ⟨ready fun d => { d with host := { d.host with reads := [cqRead] } }, cqRead, List.replicate 8 1, by decide +kernel⟩,
   ⟨ready fun d => { (obj O.PERST_ACTION 1 (obj O.HOSTPORT_STATE 0 d)) with boot := { d.boot with resetN := false } }, by decide +kernel⟩,
   ⟨ready fun d => { d with host := { d.host with perst := true }, boot := { d.boot with resetN := false } }, by decide +kernel⟩⟩

/-! ### The precentor -/

/-- A packet: GRAPH, NODE and fields by their low bit. -/
def pkt (graph node : Nat) (fs : List (Nat × Nat)) : BitVec 512 :=
  .ofNat 512 (fs.foldl (fun a f => a + f.2 * 2 ^ f.1) (graph * 2 ^ 16 + node * 2 ^ 32))

/-- An OPEN graph 1 of tenant 0 on its queue 15. -/
def graph0 : Graph := ⟨0, 15, 1, false, false, false, 0, false, 0, 0, 0, 0⟩

/-- A node of that graph. -/
def nodeAt (id order : Nat) : Node := { node0 with queue := 15, id := id, state := .accepted, order := order }

/-- Queues 15 and 4111 enabled with the ring count at the end of its range, and a kernel window for tables. -/
def queued (f : Dev → Dev) : State :=
  ready fun d =>
    let on := fun (q : Queue) => { q with state := .enabled, get := 2 ^ 32 - 1 }
    let d := obj O.NODE_POOL 1048576 ((d.onQueue 15 on).onQueue 4111 on)
    let l : List TlbEntry := [⟨0, 0, false, 1, 0, 0x20000, true, true, true⟩, ⟨256, 0, false, 1, 0, 0x20000, true, true, true⟩]
    f { d with
      tr := { d.tr with wins := [(0, window0), (64 * 256, window0)], utlb := [(0x3000, l)] },
      prec := { d.prec with
        graphs := [graph0], nodes := [nodeAt 2 0, nodeAt 3 1], nextOrder := 7, quota := [(0, 3)], descTable := [(0, 0x80000)], descState := [(4095, 1)] } }

/-- What NodeResult assumes beside the readable descriptors of a TASK. -/
def nodeFair (s : State) (op : Nat) (p : BitVec 512) : Prop :=
  let P := packetOf op p
  (0 : Nat) ≤ 256 ∧ s.dev.acceptable 15 = true ∧ packetCheck (s.dev.oget O.CHIP_ID) 0 P = none ∧ s.dev.graph 0 15 (bits P 16 16) = some graph0 ∧
    (s.dev.prec.nodes.filter fun x => x.ofGraph 0 15 (bits P 16 16)).any (fun x => x.id = bits P 32 32) = false ∧
    (s.dev.prec.nodes.filter fun x => x.ofGraph 0 15 (bits P 16 16)).length < 65536 ∧ s.dev.poolFull 0 = false ∧
    (∀ h ∈ nodeHandles P, s.dev.descStateOf 0 h = 1) ∧
    (op = 4 → bit P 64 = true → ∀ y, s.dev.nodeIn 0 15 (bits P 16 16) (bits P 96 32) = some y → y.opc = 1)

theorem nodeFair_of {s : State} {op : Nat} {p : BitVec 512}
    (h : let P := packetOf op p
      decide ((s.dev.acceptable 15 = true ∧ packetCheck (s.dev.oget O.CHIP_ID) 0 P = none ∧ s.dev.graph 0 15 (bits P 16 16) = some graph0) ∧
        ((s.dev.prec.nodes.filter fun x => x.ofGraph 0 15 (bits P 16 16)).any (fun x => x.id = bits P 32 32) = false ∧
          (s.dev.prec.nodes.filter fun x => x.ofGraph 0 15 (bits P 16 16)).length < 65536 ∧ s.dev.poolFull 0 = false) ∧
        (∀ h ∈ nodeHandles P, s.dev.descStateOf 0 h = 1) ∧
        ((s.dev.nodeIn 0 15 (bits P 16 16) (bits P 96 32)).all fun y => y.opc = 1) = true) = true) : nodeFair s op p := by
  obtain ⟨⟨taken, legal, found⟩, ⟨fresh, few, room⟩, valid, target⟩ := of_decide_eq_true h
  refine ⟨by decide, taken, legal, found, fresh, few, room, valid, fun _ _ y hy => ?_⟩
  rw [hy] at target; simpa using target

/-- The packets of the node commands: a TASK, a SIGNAL to node 2, a WAIT, a COPY, a RESHARD, a COLLECTIVE, a TIMESTAMP, a WATCH, a NOP. -/
def nodePackets : List (Nat × BitVec 512) :=
  [(1, pkt 1 (2 ^ 32 - 1) [(64, 1), (224, 10000), (295, 1), (492, 4095)]), (4, pkt 1 4 [(64, 1), (96, 2), (128, 0x7FFF8)]), (5, pkt 1 4 [(128, 0x10000)]),
    (6, pkt 1 4 [(76, 1), (128, 0x10000), (192, 0x10000), (256, 32)]), (7, pkt 1 4 [(64, 4095), (76, 4095)]), (8, pkt 1 4 [(64, 4), (72, 3), (76, 4095), (88, 4095)]), (9, pkt 1 4 [(128, 0x1FFF8)]),
    (10, pkt 1 4 []), (11, pkt 1 4 [])]

/-- The hypotheses of GraphPacketsBuildGraphs are met, for each node command; a TASK's descriptor is read. -/
theorem witness_GraphPacketsBuildGraphs_nodes : ∀ e ∈ nodePackets, nodeFair (queued id) e.1 e.2 := by
  intro e he
  fin_cases he <;> exact nodeFair_of (by decide +kernel)

theorem witness_GraphPacketsBuildGraphs_task : ∃ (d1 : Dev) (l : List (Nat × Nat)),
    (((queued id).dev.packetPassed 15 ((queued id).dev.queue 15).get).oinc O.PACKETS_ACCEPTED).readDescs 0
      (slotHandles (2 ^ 15) (packetOf 1 (pkt 1 4 [(492, 4095)]))) = (d1, .inl l) := ⟨_, _, rfl⟩

theorem takes_of {s : State} {owner q P : Nat} (h : (decide (owner ≤ 256) && decide (q < 16) && s.dev.acceptable (16 * owner + q) &&
    decide (packetCheck (s.dev.oget O.CHIP_ID) owner P = none)) = true) : Takes s owner q P := by
  simp only [Bool.and_eq_true, decide_eq_true_eq] at h
  exact ⟨h.1.1.1, h.1.1.2, h.1.2, h.2⟩

/-- The hypotheses of GraphPacketsBuildGraphs are met by an EDGE and a SEAL. -/
theorem witness_GraphPacketsBuildGraphs_edges :
    (∃ (s : State) (p : BitVec 512) (x : Node), let P := packetOf 2 p
      Takes s 0 15 P ∧ s.dev.graph 0 15 (bits P 16 16) = some graph0 ∧ s.dev.nodeIn 0 15 (bits P 16 16) (bits P 32 32) = some x ∧
      (∀ i ∈ distinct ((rangeFrom 0 (bits P 64 4)).map fun i => bits P (96 + 32 * i) 32),
        ((s.dev.nodeIn 0 15 (bits P 16 16) i).any fun y => y.order < x.order) = true) ∧
      (distinct (x.preds ++ distinct ((rangeFrom 0 (bits P 64 4)).map fun i => bits P (96 + 32 * i) 32))).length ≤ 64) ∧
    (∃ (s : State) (p : BitVec 512), let P := packetOf 3 p
      let mine := s.dev.prec.nodes.filter fun x => x.ofGraph 0 15 (bits P 16 16)
      Takes s 0 15 P ∧ s.dev.graph 0 15 (bits P 16 16) = some graph0 ∧ mine ≠ [] ∧ (s.dev.prec.nodes.map (·.order)).Nodup ∧
      (∃ z ∈ mine, z.preds = [] ∧ z.state.ended = false) ∧ ∀ x ∈ mine, x.state.ended = false) ∧
    (∃ (s : State) (p : BitVec 512), let P := packetOf 3 p
      let mine := s.dev.prec.nodes.filter fun x => x.ofGraph 0 15 (bits P 16 16)
      Takes s 0 15 P ∧ s.dev.graph 0 15 (bits P 16 16) = some graph0 ∧ mine ≠ [] ∧ (s.dev.prec.nodes.map (·.order)).Nodup ∧
      (∃ z ∈ mine, z.preds = [] ∧ z.state.ended = false) ∧ bit P 64 = false ∧
      ∃ x ∈ mine, x.state.ended = false ∧ x.preds = [2] ∧ (s.dev.nodeIn 0 15 (bits P 16 16) 2).map (·.state) = some .failed) :=
  ⟨⟨queued id, pkt 1 3 [(64, 2), (96, 2), (128, 2)], nodeAt 3 1, takes_of (by decide +kernel), by decide +kernel, by decide +kernel, by decide +kernel,
     by decide +kernel⟩,
   ⟨queued id, pkt 1 0 [(64, 1)], takes_of (by decide +kernel), by decide +kernel⟩,
   ⟨queued fun d => { d with prec := { d.prec with nodes := [{ nodeAt 2 0 with state := .failed }, { nodeAt 3 1 with preds := [2] }, nodeAt 4 2] } },
     pkt 1 0 [], takes_of (by decide +kernel), by decide +kernel⟩⟩

/-! ### Queue packets -/

/-- A FENCE waits behind an earlier packet. -/
def waitState : State := queued fun d => d.onQueue 15 fun q => { q with waits := [⟨0x85, 0, false, 0, 3⟩] }

/-- In memory, a legal descriptor of 8 FP32 elements at 0x10000, and a horarium entry of the kernel at 0x10100. -/
def tableState : State := queued fun d =>
  { d with mem := { d.mem with cells := [(0x20000, 5), (0x20001, 1), (0x2000A, 1), (0x20010, 8), (0x20108, 10), (0x2010C, 1)] } }

/-- The hypotheses of QueuePacketsActAndAreRecorded are met by the packets of any owner. -/
theorem witness_QueuePacketsActAndAreRecorded_any :
    (∃ (s : State) (p : BitVec 512), Takes s 0 15 (packetOf 0x0C p) ∧ (s.dev.queue 15).waits = [] ∧ bit (packetOf 0x0C p) 64 = false) ∧
    (∃ (s : State) (p : BitVec 512), Takes s 0 15 (packetOf 0x0C p) ∧ (∀ w ∈ (s.dev.queue 15).waits, w.opc ≠ 0x0C) ∧ ∃ w ∈ (s.dev.queue 15).waits, w.seq < s.dev.prec.nextOrder) ∧
    (∃ (s : State) (p : BitVec 512) (d1 : Dev) (bs : List Byte), Takes s 0 15 (packetOf 0x0D p) ∧ s.dev.descStateOf 0 4094 = 0 ∧ bits (packetOf 0x0D p) 64 16 = 4094 ∧
      (begun s.dev 15 (packetOf 0x0D p)).gatherRead 0 s.dev.prec.nextOrder (bits (packetOf 0x0D p) 128 64) 128 4 = (d1, .ok bs false) ∧
      d1.descCheck 0 (leNat bs) = none) ∧
    (∃ (s : State) (p : BitVec 512), Takes s 0 15 (packetOf 0x0E p) ∧ bits (packetOf 0x0E p) 64 16 = 4095 ∧ s.dev.descStateOf 0 4095 ≠ 0 ∧ s.dev.descRefs 0 4095 = 0) ∧
    (∃ (s : State) (p : BitVec 512), Takes s 0 15 (packetOf 0x0E p) ∧ bits (packetOf 0x0E p) 64 16 = 4095 ∧ s.dev.descStateOf 0 4095 ≠ 0 ∧ s.dev.descRefs 0 4095 ≠ 0) :=
  ⟨⟨queued id, pkt 0 0 [], takes_of (by decide +kernel), by decide +kernel⟩,
   ⟨waitState, pkt 0 0 [], takes_of (by decide +kernel), by decide +kernel, by decide +kernel⟩,
   ⟨tableState, pkt 0 0 [(64, 4094), (128, 0x10000)],
     ((begun tableState.dev 15 (packetOf 0x0D (pkt 0 0 [(64, 4094), (128, 0x10000)]))).gatherRead 0 7 0x10000 128 4).1,
     leBytes 128 (5 + 2 ^ 8 + 2 ^ 80 + 8 * 2 ^ 128), takes_of (by decide +kernel), by decide +kernel, by decide +kernel, by decide +kernel, by decide +kernel⟩,
   ⟨queued id, pkt 0 0 [(64, 4095)], takes_of (by decide +kernel), by decide +kernel⟩,
   ⟨queued fun d => { d with prec := { d.prec with nodes := [{ nodeAt 2 0 with refs := [4095] }] } }, pkt 0 0 [(64, 4095)],
     takes_of (by decide +kernel), by decide +kernel⟩⟩

/-- A window record: index 63, a window of tenant 0 at its last 64 KiB. -/
def mapPkt : BitVec 512 := pkt 0 0 [(64, 0), (128, 63), (160, 1), (192, 2 ^ 52 - 65536), (256, 65536)]

/-- The hypotheses of QueuePacketsActAndAreRecorded are met by the kernel's packets. -/
theorem witness_QueuePacketsActAndAreRecorded_kernel :
    (∃ (s : State) (p : BitVec 512), let P := packetOf 0x80 p
      Takes s 256 15 P ∧ (∀ b < 16, b ≠ bits P 64 4 → s.dev.qtrs b &&& bits P 96 16 = 0) ∧
      (∀ i < 16, bit (bits P 96 16) i = true → s.dev.octFailed (octOfQtr i) = false) ∧ ∀ x ∈ s.dev.prec.nodes, s.dev.ownCause x = none) ∧
    (∃ (s : State) (p : BitVec 512) (d1 : Dev) (bs : List Byte), let P := packetOf 0x81 p
      Takes s 256 15 P ∧ bits P 192 64 % 1000 = 0 ∧
      (begun s.dev 4111 P).gatherRead 256 s.dev.prec.nextOrder (bits P 128 64) (16 * bits P 64 11) 132 = (d1, .ok bs false) ∧
      ∀ e ∈ (rangeFrom 0 (bits P 64 11)).map fun i => leNat ((bs.drop (16 * i)).take 16), horEntryBad (bits P 96 32) e = none) ∧
    (∃ (s : State) (p : BitVec 512), Takes s 256 15 (packetOf 0x82 p) ∧ s.dev.oget (O.TENANT_STATE (bits (packetOf 0x82 p) 64 8)) = 0) ∧
    (∃ (s : State) (p : BitVec 512), Takes s 256 15 (packetOf 0x82 p) ∧ s.dev.oget (O.TENANT_STATE (bits (packetOf 0x82 p) 64 8)) ≠ 0) ∧
    (∃ (s : State) (p : BitVec 512), Takes s 256 15 (packetOf 0x83 p) ∧ s.dev.windowBad (bits (packetOf 0x83 p) 64 9) (bits (packetOf 0x83 p) 128 256) = none) ∧
    (∃ (s : State) (p : BitVec 512), Takes s 256 15 (packetOf 0x83 p) ∧ s.dev.windowBad (bits (packetOf 0x83 p) 64 9) (bits (packetOf 0x83 p) 128 256) = some 2) ∧
    (∃ (s : State) (p : BitVec 512), let P := packetOf 0x84 p
      Takes s 256 15 P ∧ bits P 64 9 = 256 ∧ (mget s.dev.tr.wins (64 * bits P 64 9 + bits P 73 6)).isSome = true) ∧
    (∃ (s : State) (p : BitVec 512), Takes s 256 15 (packetOf 0x85 p) ∧ bits (packetOf 0x85 p) 64 2 = 0) ∧
    (∃ (s : State) (p : BitVec 512), let P := packetOf 0x86 (BitVec.ofNat 512 (setBits p.toNat 72 1 0))
      Takes s 256 15 P ∧ s.dev.oget (O.TENANT_STATE (bits P 64 8)) = 0 ∧ bits P 128 64 % 32768 = 0 ∧ s.dev.inMemory (bits P 128 64) 32768 = true ∧
      bits P 192 64 % 524288 = 0 ∧ s.dev.inMemory (bits P 192 64) 524288 = true) ∧
    (∃ (s : State) (p : BitVec 512), let P := packetOf 0x86 (BitVec.ofNat 512 (setBits p.toNat 72 1 1))
      Takes s 256 15 P ∧ s.dev.oget (O.TENANT_STATE (bits P 64 8)) ≠ 0) ∧
    (∃ (s : State) (p : BitVec 512) (d1 : Dev), let P := packetOf 0x87 p
      Takes s 256 15 P ∧ (begun s.dev 4111 P).dictWrite .hk (bits P 64 16) (bits P 80 8) (bits P 88 16) 0
        (leBytes (bits P 104 5 + 1) (bits P 256 256)) = (d1, 0)) ∧
    (∃ (s : State) (p : BitVec 512), let P := packetOf 0x88 p
      Takes s 256 15 P ∧ ∃ t ∈ s.dev.tr.tracks, t.acted = false ∧ t.rcd.seq ≠ s.dev.tr.batchSeq ∧ s.dev.tr.timedClose ≠ some (s.dev.time, t.rcd.seq) ∧
        (bits P 64 32 + 2 ^ 32 - t.rcd.seq) % 2 ^ 32 < 2 ^ 31 ∧ t.rcd.owner = bits P 96 9 ∧ t.rcd.restartable = true ∧
        s.dev.oget (O.TENANT_STATE t.rcd.owner) ≠ 2) :=
  ⟨⟨queued id, pkt 0 0 [(64, 15), (96, 2 ^ 15)], takes_of (by decide +kernel), by decide +kernel, by decide +kernel, by decide +kernel⟩,
   ⟨tableState, pkt 0 0 [(64, 1), (96, 10), (128, 0x10100)],
     ((begun tableState.dev 4111 (packetOf 0x81 (pkt 0 0 [(64, 1), (96, 10), (128, 0x10100)]))).gatherRead 256 7 0x10100 16 132).1,
     leBytes 16 (10 * 2 ^ 64 + 2 ^ 96), takes_of (by decide +kernel), by decide +kernel, by decide +kernel, by decide +kernel⟩,
   ⟨queued id, pkt 0 0 [(64, 255)], takes_of (by decide +kernel), by decide +kernel⟩, ⟨queued id, pkt 0 0 [], takes_of (by decide +kernel), by decide +kernel⟩,
   ⟨queued id, mapPkt, takes_of (by decide +kernel), by decide +kernel⟩,
   ⟨queued id, pkt 0 0 [(160, 1), (256, 65536)], takes_of (by decide +kernel), by decide +kernel⟩,
   ⟨queued id, pkt 0 0 [(64, 256)], takes_of (by decide +kernel), by decide +kernel⟩, ⟨queued id, pkt 0 0 [], takes_of (by decide +kernel), by decide +kernel⟩,
   ⟨queued id, pkt 0 0 [(64, 255), (128, 0x100000), (192, 0x180000), (256, 1048576)], takes_of (by decide +kernel), by decide +kernel⟩,
   ⟨queued id, pkt 0 0 [], takes_of (by decide +kernel), by decide +kernel⟩,
   ⟨queued id, pkt 0 0 [(64, 0x3420), (80, 4), (104, 7)],
     ((begun (queued id).dev 4111 (packetOf 0x87 (pkt 0 0 [(64, 0x3420), (80, 4), (104, 7)]))).dictWrite .hk 0x3420 4 0 0 (leBytes 8 0)).1,
     takes_of (by decide +kernel), by decide +kernel⟩,
   ⟨queued fun d => { d with tr := { d.tr with tracks := [priTrack 0], batchSeq := 514 } }, pkt 0 0 [(64, 513)], takes_of (by decide +kernel), _, List.mem_cons_self .., by decide +kernel⟩⟩

/-! ### Ticks, timers and the queues' control -/

/-- A running TASK node that became READY 7 µs ago and was dispatched 250 µs ago, with a TIMEOUT of 7 µs. -/
def timedNode : Node := { nodeAt 2 0 with state := .running, readyAt := 4993000, dispatchedAt := 4750000, body := 1 + 7 * 2 ^ 248 }

/-- The hypotheses of PrecentorTicksRun are met: in reset; at a multiple of 1 µs past the last tick, at the last tick, and one tick before a
time that a backward step of fabric time has taken away. -/
theorem witness_PrecentorTicksRun :
    (∃ s : State, s.dev.boot.inReset = true) ∧
    ∀ last ∈ [4999999, 5000000, 5001000], ∃ s : State, s.dev.boot.inReset = false ∧ s.dev.boot.running.isSome = true ∧ s.dev.oget O.BOOT_PHASE = 4 ∧
      s.dev.time = 5000000 ∧ s.dev.prec.sched.lastTick = last :=
  ⟨⟨State.reset, by decide +kernel⟩, fun last h => ⟨ready fun d => d.onSched fun x => { x with lastTick := last }, by
    fin_cases h <;> decide +kernel⟩⟩

/-- `timedNode` has an exception of core 0, of the core clock that is open. -/
def ownState : State := queued fun d =>
  let e : Exc := ⟨0x25, 0, 0, 0, 1, 0, 0, []⟩
  let d := d.setCore 0 { coreWith 0 (choirWith [] [] []) with task := some { task0 with queue := 15, dispatch := 1 }, exc := some e }
  { d with prec := { d.prec with nodes := [timedNode] }, nave := { d.nave with clocks := [(0, ⟨[], [], [(0, 0, e)]⟩)] } }

/-- The hypotheses of TimersExpire are met, each timer at the time it is due, spent, or of a node whose core has a cause of its own. -/
theorem witness_TimersExpire :
    (∀ spent, ∃ (s : State) (x : Node), s.dev.nodeIn 0 15 1 2 = some x ∧ x.queue < 16 ∧ x.opc = 1 ∧ x.state = .running ∧ x.timerSpent = spent ∧
      x.readyAt + 1000 * bits x.body 248 32 = s.dev.time ∧ x.dispatchedAt + 1000 * 250 = s.dev.time ∧ bits x.body 224 14 = 0 ∧
      bits x.body 248 32 ≠ 0 ∧ s.dev.ownCause x = none ∧ s.dev.ownerLive x.owner = true) ∧
    (∃ (s : State) (x : Node), s.dev.nodeIn 0 15 1 2 = some x ∧ x.opc = 1 ∧ x.state = .running ∧ x.dispatchedAt + 1000 * 250 = s.dev.time ∧
      (s.dev.ownCause x).map (·.cause) = some 0x25) ∧
    (∃ (s : State) (x : Node), s.dev.nodeIn 0 15 1 2 = some x ∧ x.queue < 16 ∧ x.opc = 5 ∧ x.timerSpent = false ∧ x.state = .running ∧
      x.readyAt + 1000 * bits x.body 96 32 = s.dev.time ∧ bits x.body 96 32 ≠ 0) ∧
    ∀ due, ∃ s : State, decide ((s.dev.queue 15).state = .enabled ∧ (s.dev.queue 15).timeout ≠ 0 ∧
      (∃ g ∈ s.dev.prec.graphs, g.owner = 0 ∧ g.queue = 15) ∧ (s.dev.queue 15).lastDone + 1000 * (s.dev.queue 15).timeout ≤ s.dev.time) = due ∧
      s.dev.ownerLive 0 = true :=
  ⟨fun spent => ⟨queued fun d => { d with prec := { d.prec with nodes := [{ timedNode with timerSpent := spent }] } },
     { timedNode with timerSpent := spent }, by cases spent <;> decide +kernel⟩,
   ⟨ownState, timedNode, by decide +kernel⟩,
   ⟨queued fun d => { d with prec := { d.prec with nodes := [{ timedNode with opc := 5, body := 5 + 7 * 2 ^ 96 }] } }, { timedNode with opc := 5, body := 5 + 7 * 2 ^ 96 }, by decide +kernel⟩,
   fun due => ⟨queued fun d => d.onQueue 15 fun q => { q with timeout := if due then 5000 else 5001 }, by cases due <;> decide +kernel⟩⟩

/-- Queue 15 of tenant 0 selected by the PF, with legal rings, in state `st`. -/
def ctrlState (st : QState) : State := queued fun d =>
  let d := d.onQueue 15 fun q => { q with state := st, pqBase := 0x10000, cqBase := 0x1FF80, put := 15 }
  { d with prec := { d.prec with graphs := [] }, dict := { d.dict with sels := [(selKey .hk, { Selectors.reset with queueSel := 15 })] } }

/-- A table of one entry of tenant 0 over chapel 15, loaded 1 µs ago. -/
def horTable0 : HorTable := ⟨10, 0, [⟨0, 2 ^ 15, 10, 0, 0, false, 1⟩], 4990000⟩

/-- A running task on chapel 15. -/
def slotNode (r : Bool) : Node := { nodeAt 2 0 with state := .running, chapel := 15, restartable := r }

/-- The hypotheses of QueuesAndHorariumAreControlled are met. -/
theorem witness_QueuesAndHorariumAreControlled :
    (∃ (s : State) (d1 : Dev) (bs : List Byte) (b : Bool), mayWrite s .hk 0x4010 7 ∧ s.dev.oget (O.PD_STATE 1) = 2 ∧ (s.dev.sel .hk).queueSel = 15 ∧ (s.dev.queue 15).state = .disabled ∧
      s.dev.queueConfigOk 15 = true ∧ s.dev.vaWrite 0x3000 0 (s.dev.queue 15).cqBase (leBytes 16 0) false = (d1, .ok bs b)) ∧
    (∃ (s : State), mayWrite s .hk 0x4010 7 ∧ s.dev.oget (O.PD_STATE 1) = 2 ∧ (s.dev.queue (s.dev.sel .hk).queueSel).state = .halted ∧
      ((s.dev.queue 15).put + 2 ^ 32 - (s.dev.queue 15).get) % 2 ^ 32 = (s.dev.queue 15).pqSlots ∧
      ∀ g ∈ s.dev.prec.graphs, ¬ (g.owner = 0 ∧ g.queue = 15)) ∧
    (∃ (s : State), mayWrite s .hk 0x4010 7 ∧ s.dev.oget (O.PD_STATE 1) = 2 ∧ (s.dev.sel .hk).queueSel = 15 ∧ ∃ g ∈ s.dev.prec.graphs, g.owner = 0 ∧ g.queue = 15) ∧
    (∃ (s : State) (t : HorTable), s.dev.prec.sched.staged = some t ∧ t.switchAt s.dev.time = s.dev.time) ∧
    (∃ (s : State) (x : Node), s.dev.prec.nodes.filter (fun x => x.state = .running && x.opc = 1 && !x.grace) = [x] ∧ s.dev.admitted x.chapel x.owner s.dev.time = true) ∧
    (∃ (s : State) (x : Node), s.dev.prec.nodes.filter (fun x => x.state = .running && x.opc = 1 && !x.grace) = [x] ∧
      s.dev.admitted x.chapel x.owner s.dev.time = false ∧ x.restartable = true ∧ s.dev.strict x.chapel = true ∧ s.dev.ownCause x = none) ∧
    (∃ (s : State) (x : Node), s.dev.prec.nodes.filter (fun x => x.state = .running && x.opc = 1 && !x.grace) = [x] ∧
      s.dev.admitted x.chapel x.owner s.dev.time = false ∧ x.restartable = false) := by
  refine ⟨⟨ctrlState .disabled, ((ctrlState .disabled).dev.vaWrite 0x3000 0 0x1FF80 (leBytes 16 0) false).1, [], false, ?_⟩, ⟨ctrlState .halted, ?_⟩,
    ⟨{ ctrlState .enabled with dev := { (ctrlState .enabled).dev with prec := { (ctrlState .enabled).dev.prec with graphs := [graph0] } } }, ?_⟩,
    ⟨queued fun d => d.onSched fun x => { x with staged := some horTable0 }, horTable0, by decide +kernel⟩,
    ⟨queued fun d => { d with prec := { d.prec with nodes := [slotNode true], sched := { d.prec.sched with weights := [(257 * 15, 1)] } } }, slotNode true,
      by decide +kernel⟩,
    ⟨queued fun d => obj (O.CHAPEL 15) (2 ^ 17) { d with prec := { d.prec with nodes := [slotNode true], sched := { d.prec.sched with active := some horTable0 } } },
      slotNode true, by decide +kernel⟩,
    ⟨queued fun d => { d with prec := { d.prec with nodes := [slotNode false] } }, slotNode false, by decide +kernel⟩⟩ <;> delta mayWrite <;> decide +kernel

end Sys2Proof.Tests
end

