-- ==== Sys2Proof/Tests/WitnessMem.lean ====
section
/-! SUPPORT. Tests/WitnessMem.lean: for each statement about the memory controllers, the dictionary's ports and the Cantor network, states and
commands that meet its hypotheses, at boundaries of their ranges. -/

namespace Sys2Proof.Tests

open Sys2Proof Sys2Proof.Machine Sys2Proof.Claims

set_option Elab.async false

/-! ### The memory controllers -/

/-- The hypotheses of MemorySectorsAreReadAndWritten are met: an address past the north die's last, quiesced controllers, the last byte of
the south die, a sector stored with poison, an unreachable one, a channel whose generator runs, one whose die is quiesced and one at the
end of its round. -/
theorem witness_MemorySectorsAreReadAndWritten :
    (∃ s : State, s.dev.homeDie (southBase - 1) = none) ∧
    (∃ s : State, ∃ dpa, dpa = southBase + s.dev.dieBytes - 1 ∧ (s.dev.homeDie dpa).isSome = true ∧ s.dev.reachable dpa = true ∧
      memWf s.dev.mem.cells = true ∧ s.dev.memQuiet dpa = false ∧ (s.dev.sector (dpa / 32) (dget 0 s.dev.mem.keyOf (dpa / 32))).2 = false) ∧
    (∃ s : State, (s.dev.homeDie southBase).isSome = true ∧ s.dev.memQuiet southBase = true) ∧
    (∃ s : State, (s.dev.homeDie 31).isSome = true ∧ s.dev.reachable 31 = true ∧ s.dev.memQuiet 31 = false ∧ (s.dev.sector 0 (dget 0 s.dev.mem.keyOf 0)).2 = true) ∧
    (∃ s : State, (s.dev.homeDie 31).isSome = true ∧ s.dev.reachable 31 = false ∧ s.dev.memQuiet 31 = false ∧
      memWf s.dev.mem.cells = true) ∧
    (∃ s : State, s.dev.oget (O.TG_STATUS 255) = 1) ∧ (∃ s : State, s.dev.quiescing (memDomain (255 / 128)) = true) ∧
    (∃ s : State, s.dev.oget (O.TG_STATUS 255) ≠ 1 ∧ s.dev.quiescing (memDomain (255 / 128)) = false ∧
      dget 0 s.dev.mem.patrolAt 255 + 1 = 2 * s.dev.pcSectors) :=
  ⟨⟨ready id, by decide +kernel⟩, ⟨ready fun d => { d with mem := { d.mem with cells := [(0, 1)] } }, _, rfl, by decide +kernel⟩,
   ⟨ready (quieted 15), by decide +kernel⟩,
   ⟨ready fun d => { d with mem := { d.mem with poison := [(0, true)] } }, by decide +kernel⟩, ⟨ready (obj (O.MEM_GROUP_STATE 0) 2), by decide +kernel⟩,
   ⟨ready (obj (O.TG_STATUS 255) 1), by decide +kernel⟩, ⟨ready (quieted 15), by decide +kernel⟩,
   ⟨ready fun d => { d with mem := { d.mem with patrolAt := [(255, 2 * d.pcSectors - 1)] } }, by decide +kernel⟩⟩

/-- One retired page, 0, and pages 0 and 65535 offered. -/
def retireState (n : Nat) : State :=
  ready fun d => obj O.RETIRED_COUNT n { d with mem := { d.mem with pending := [⟨0, 0, 1, 1, 0⟩, ⟨0, 65535, 1, 1, 0⟩] } }

/-- The page of a retirement: the last of the north die, class 4. -/
def retireWord : Nat := 2359295 * 2 ^ 16 + 4

/-- The hypotheses of MemoryIsMaintained are met. -/
theorem witness_MemoryIsMaintained :
    (∃ s : State, s.dev.mem.lag 255 127 = 16) ∧ (∃ s : State, s.dev.mem.lag 255 127 = 0) ∧
    (∃ s : State, dget 0 s.dev.mem.parityFails 255 = 3) ∧ (∃ s : State, dget 0 s.dev.mem.band 7 = 4) ∧
    (∃ (s : State) (p : Path), mayWrite s p 0x6043 0 ∧ s.dev.homeDie (bits retireWord 16 24 * 65536) ≠ none ∧ bits retireWord 8 8 = 0 ∧ bits retireWord 0 8 = 4 ∧
      retireWord / 2 ^ 40 = 0 ∧ s.dev.retired 2359295 = false ∧ s.dev.oget O.RETIRED_COUNT < 8192 ∧ s.dev.homeDie (2359296 * 65536) = none) ∧
    (∃ (s : State) (p : Path), mayWrite s p 0x6043 0 ∧ s.dev.retired 0 = true) ∧ (∃ (s : State) (p : Path), mayWrite s p 0x6043 0 ∧ s.dev.oget O.RETIRED_COUNT = 8192) ∧
    (∃ (s : State) (p : Path), mayWrite s p 0x6042 0 ∧ s.dev.mem.pending ≠ []) ∧
    (∃ (s : State) (p : Path), mayWrite s p 0x6011 0 ∧ s.dev.memPowered 1 = true ∧ s.dev.oget (O.MEM_GROUP_STATE 31) = 2) ∧
    (∃ (s : State) (p : Path), mayWrite s p 0x6011 0 ∧ s.dev.memPowered 1 = true ∧ s.dev.oget (O.MEM_GROUP_STATE 31) = 1 ∧
      groupOfChannel 255 = 31 ∧ s.dev.oget (O.TG_STATUS 255) = 1) ∧
    (∃ (s : State) (p : Path), mayWrite s p 0x6011 0 ∧ s.dev.memPowered 1 = true ∧ s.dev.oget (O.MEM_GROUP_STATE 31) = 1 ∧
      ∀ ch, ch < 256 → groupOfChannel ch = 31 → s.dev.oget (O.TG_STATUS ch) ≠ 1) ∧
    (∃ (s : State) (p : Path), mayWrite s p 0x61FF 1 ∧ s.dev.memPowered 1 = true ∧ s.dev.oget (O.MEM_GROUP_STATE (groupOfChannel 255)) = 1 ∧ s.dev.oget (O.TG_STATUS 255) = 2) ∧
    (∃ (s : State) (p : Path), mayWrite s p 0x61FF 1 ∧ s.dev.memPowered 1 = true ∧ s.dev.oget (O.MEM_GROUP_STATE (groupOfChannel 255)) = 0) ∧
    (∃ (s : State) (p : Path), mayWrite s p 0x61FF 1 ∧ s.dev.memPowered 1 = true ∧ s.dev.oget (O.TG_STATUS 255) = 1) ∧
    (∃ s : State, s.dev.oget (O.TG_STATUS 255) = 1 ∧ s.dev.oget (O.TG_MODE 255) = 1 ∧ s.dev.oget (O.TG_PASSES 255) = 0) ∧
    (∃ s : State, s.dev.oget (O.TG_STATUS 255) = 1 ∧ s.dev.oget (O.TG_MODE 255) = 3 ∧ s.dev.oget (O.TG_PASSES 255) = 1) := by
  refine ⟨⟨ready fun d => { d with mem := { d.mem with postponed := [(128 * 255 + 127, 16)] } }, by decide +kernel⟩,
    ⟨ready fun d => { d with mem := { d.mem with postponed := [(128 * 255 + 127, 0)] } }, by decide +kernel⟩,
    ⟨ready fun d => { d with mem := { d.mem with parityFails := [(255, 3)] } }, by decide +kernel⟩,
    ⟨ready fun d => { d with mem := { d.mem with band := [(7, 4)] } }, by decide +kernel⟩, ⟨ready id, .hk, ?_⟩, ⟨retireState 1, .hk, ?_⟩,
    ⟨ready (obj O.RETIRED_COUNT 8192), .hk, ?_⟩, ⟨retireState 0, .hk, ?_⟩, ⟨ready (obj (O.MEM_GROUP_STATE 31) 2), .hk, ?_⟩,
    ⟨ready fun d => obj (O.MEM_GROUP_STATE 31) 1 (obj (O.TG_STATUS 255) 1 d), .hk, ?_⟩, ⟨ready (obj (O.MEM_GROUP_STATE 31) 1), .hk, ?_⟩, ⟨ready fun d => obj (O.MEM_GROUP_STATE 31) 1 (obj (O.TG_STATUS 255) 2 d), .hk, ?_⟩,
    ⟨ready id, .hk, ?_⟩, ⟨ready (obj (O.TG_STATUS 255) 1), .hk, ?_⟩, ⟨ready fun d => obj (O.TG_PASSES 255) 0 (obj (O.TG_MODE 255) 1 (obj (O.TG_STATUS 255) 1 d)), by decide +kernel⟩,
    ⟨ready fun d => obj (O.TG_PASSES 255) 1 (obj (O.TG_MODE 255) 3 (obj (O.TG_STATUS 255) 1 d)), by decide +kernel⟩⟩ <;>
    (try delta mayWrite) <;> decide +kernel

/-! ### The dictionary's ports -/

/-- Port 256 with a burst of the scalar at 0x1020 staged, or a port at rest. -/
def portState (x : DPort) : State := ready fun d =>
  Dev.setPort { d with host := { d.host with funcs := (256, func0) :: d.host.funcs.drop 0 } } 0 x

/-- A port that names FLASH_ADDR, in a stage. -/
def flashPort (busy : Bool) (stage : Nat) (buf : List Byte) (count : Nat) : DPort :=
  { DPort.reset with addr := 0x10200000, length := 7, busy := busy, stage := stage, buf := buf, count := count, goAddr := 0x10200000, goLen := 8 }

/-- The hypotheses of DictionaryPortsMoveBursts are met on the PF's port, at rest, busy, with a burst that passes its checks and one that
fails them, and in each stage. -/
theorem witness_DictionaryPortsMoveBursts :
    (∃ s : State, s.dev.barGate 256 = 0) ∧
    (∃ s : State, s.dev.barGate 0 = 0 ∧ (s.dev.port 0).busy = true ∧ (s.dev.port 0).stage = 1) ∧
    (∃ s : State, s.dev.barGate 0 = 0 ∧ (s.dev.port 0).busy = false ∧
      burstStatus s.dev 0 (started { s.dev.port 0 with dir := true, length := bits (7 + 2 ^ 31) 0 12 }) = 0 ∧
      burstStatus s.dev 0 (started { s.dev.port 0 with dir := false, length := bits (6 + 2 ^ 31) 0 12 }) ≠ 0) ∧
    (∃ s : State, s.dev.barGate 0 = 0 ∧ (s.dev.port 0).stage = 3 ∧ (s.dev.port 0).words ≤ (s.dev.port 0).count + 8) ∧
    (∃ s : State, s.dev.barGate 0 = 0 ∧ (s.dev.port 0).stage = 2 ∧ (s.dev.port 0).count < (s.dev.port 0).words) ∧
    (∃ s : State, s.dev.barGate 0 = 0 ∧ (s.dev.port 0).stage = 0) ∧
    (∃ (s : State) (d1 : Dev) (bs : List Byte), let x := s.dev.port 0
      x.stage = 1 ∧ s.dev.dictRead (portPath 0) x.index x.sub x.off x.byte x.goLen = (d1, .ok bs)) ∧
    (∃ (s : State) (d1 : Dev) (c : Nat), let x := s.dev.port 0
      x.stage = 1 ∧ s.dev.dictRead (portPath 0) x.index x.sub x.off x.byte x.goLen = (d1, .error c)) ∧
    (∃ (s : State) (d1 : Dev) (c : Nat), let x := s.dev.port 0
      x.stage = 4 ∧ s.dev.dictWrite (portPath 0) x.index x.sub x.off x.byte (x.buf.take x.goLen) = (d1, c) ∧ d1.boot.inReset = false) ∧
    (∃ s : State, s.dev.pathUp (.ht 255) = false) ∧ (∃ s : State, s.dev.pathUp .tc = true ∧ s.dev.writeCheck .tc 0xFFFF 255 ≠ 0) ∧
    (∃ (s : State) (p : Path), mayWrite s p 0x1020 0 ∧ (2 ^ 32 - 4096) % 4096 = 0 ∧ (2 ^ 32 - 1) % 4096 ≠ 0) := by
  refine ⟨⟨ready id, ?_⟩, ⟨portState (flashPort true 1 [] 0), ?_⟩, ⟨portState (flashPort false 0 [] 0), ?_⟩, ⟨portState (flashPort true 3 [] 0), ?_⟩,
    ⟨portState (flashPort false 2 (leBytes 8 5) 0), ?_⟩, ⟨ready id, ?_⟩,
    ⟨portState (flashPort true 1 [] 0), (portState (flashPort true 1 [] 0)).dev, leBytes 8 0, ?_⟩,
    ⟨portState { flashPort true 1 [] 0 with goLen := 7 }, (portState { flashPort true 1 [] 0 with goLen := 7 }).dev.oinc O.DICT_REFUSALS, 4, ?_⟩,
    ⟨portState (flashPort true 4 (leBytes 8 4096) 8), (portState (flashPort true 4 (leBytes 8 4096) 8)).dev.oset O.FLASH_ADDR 4096, 0, ?_⟩,
    ⟨ready fun d => { d with host := { d.host with vfEnable := false } }, ?_⟩, ⟨ready id, ?_⟩, ⟨ready id, .tc, ?_⟩⟩ <;> (try delta mayWrite) <;> decide +kernel

/-! ### The Cantor network -/

/-- A message of chip 7 for chip 13 that continues its window, with its tag under key 0. -/
def signed (m : CantorMsg) : CantorMsg := { m with tag := cantorMac m 0 }

/-- A device that has heard chip 7 up to count 5. -/
def heardState (f : Dev → Dev) : State := ready fun d => f { d with dict := { d.dict with windows := [(7, ⟨0, 5, 1⟩), (4096, ⟨0, 5, 1⟩)] } }

/-- A message of chip 7. -/
def msg0 : CantorMsg := { cantorZero with dest := 13, src := 7, count := 6, length := 7, index := 0x1020 }

theorem authentic {f : Dev → Dev} {m : CantorMsg}
    (h : decide ((heardState f).dev.engineUp = true ∧ (heardState f).dev.keyLoaded = true ∧ (heardState f).dev.oget O.CANTOR_ENABLE ≠ 0 ∧
      ((heardState f).dev.idValid = true ∧ m.dest = (heardState f).dev.oget O.CHIP_ID) ∧ (heardState f).dev.dict.key = 0 ∧
      (match mget (heardState f).dev.dict.windows m.src with
        | none => some (Replay.mk m.boot m.count 1)
        | some w => w.accept m.boot m.count) = some ⟨0, 6, 3⟩) = true) : Authentic (heardState f).dev (signed m) ⟨0, 6, 3⟩ := by
  obtain ⟨engine, loaded, enabled, addressed, key, next⟩ := of_decide_eq_true h
  exact ⟨engine, loaded, enabled, addressed, by rw [key]; rfl, next⟩

/-- A write from a tray controller; a write that no object takes; a read; a burst. -/
def requests : List CantorMsg :=
  [{ msg0 with op := 2, origin := 1, payload := leBytes 8 4096 }, { msg0 with op := 2, payload := leBytes 8 4096, index := 0 },
   { msg0 with op := 1, origin := 1 }, { msg0 with op := 1, origin := 1, index := 0 }, { msg0 with op := 3, origin := 1 }]

theorem pair_of {α β : Type} {x : α × β} {b : β} (h : x.2 = b) : x = (x.1, b) := by rw [← h]

/-- The hypotheses of CantorRequestsAreServedOnce are met: requests that are served and refused, and a message with a wrong tag. -/
theorem witness_CantorRequestsAreServedOnce :
    (∀ m ∈ requests, Authentic (heardState id).dev (signed m) ⟨0, 6, 3⟩ ∧ (signed m).resp = false ∧ (signed m).destEp = 0 ∧ cantorBad (signed m) = false ∧
      (heardState id).dev.dict.requests = [] ∧ ((heardState id).dev.slot (heardState id).dev.tray.home).queue = []) ∧
    (let m := { msg0 with op := 2, origin := 1, payload := leBytes 8 4096 }
     ∃ d2 c, ((heard (heardState id).dev (signed m) ⟨0, 6, 3⟩).oinc O.CANTOR_RX_MSGS).dictWrite .tc m.index m.sub m.offset m.byte m.payload = (d2, c) ∧
       d2.dict.requests = []) ∧
    (let m := { msg0 with op := 1, origin := 1 }
     ∃ d2 bs, ((heard (heardState id).dev (signed m) ⟨0, 6, 3⟩).oinc O.CANTOR_RX_MSGS).dictRead .tc m.index m.sub m.offset m.byte (m.length + 1) =
       (d2, .ok bs) ∧ 0 < bs.length ∧ bs.length ≤ 256) ∧
    (let m := { msg0 with op := 1, origin := 1, index := 0 }
     ∃ d2 c, ((heard (heardState id).dev (signed m) ⟨0, 6, 3⟩).oinc O.CANTOR_RX_MSGS).dictRead .tc m.index m.sub m.offset m.byte (m.length + 1) =
       (d2, .error c)) ∧
    (∃ m : CantorMsg, m.dest = (heardState id).dev.oget O.CHIP_ID ∧ m.tag ≠ cantorMac m (heardState id).dev.dict.key ∧ m.op = 2 ∧ m.resp = false) := by
  refine ⟨?_, ⟨_, 0, pair_of ?_, ?_⟩, ⟨_, leBytes 8 0, pair_of ?_, ?_⟩, ⟨_, 1, pair_of ?_⟩,
    ⟨{ msg0 with op := 2, tag := cantorMac { msg0 with op := 2 } 0 + 1 }, ?_, ?_, rfl, rfl⟩⟩
  · intro m hm
    fin_cases hm <;>
      exact ⟨authentic (by decide +kernel), rfl, rfl, by decide +kernel,
        by decide +kernel, by decide +kernel⟩
  all_goals first | decide +kernel | skip
  · have h : (heardState id).dev.dict.key = 0 := by decide +kernel
    rw [h]; exact Nat.succ_ne_self _

/-- NOTIFY_TARGET 7 is valid for event 8. -/
def targetState (f : Dev → Dev) : State := ready fun d => f (obj (O.NOTIFY_TARGET 7) (2 ^ 15 + 2 ^ 23 + 5) d)

/-- The hypotheses of CantorMessagesComeAndGo are met. -/
theorem witness_CantorMessagesComeAndGo :
    (∃ (s : State) (p : Path), mayWrite s p 0x1120 1 ∧ s.dev.oget O.CANTOR_TX_STATUS = 1) ∧ (∃ (s : State) (p : Path), mayWrite s p 0x1120 1 ∧ s.dev.oget O.CANTOR_TX_STATUS ≠ 1) ∧
    (∃ (s : State) (p : Path), mayWrite s p 0x1120 5) ∧
    (∃ (s : State) (m : CantorMsg) (w : Replay), Authentic s.dev m w ∧ m.resp = true ∧ m.destEp = 2 ∧ m.part = m.lastPart ∧ s.dev.dict.inbound.length < 16 ∧ s.dev.dict.requests = [] ∧
      (s.dev.slot s.dev.tray.home).queue = [] ∧ ∃ x ∈ s.dev.dict.waits, x.count = m.echo ∧ x.dest = m.src) ∧
    (∃ (s : State) (m : CantorMsg) (w : Replay), Authentic s.dev m w ∧ m.resp = true ∧ m.destEp = 2 ∧ m.part = m.lastPart ∧ s.dev.dict.inbound.length < 16 ∧ s.dev.dict.requests = [] ∧
      (s.dev.slot s.dev.tray.home).queue = [] ∧ ∀ x ∈ s.dev.dict.waits, ¬ (x.count = m.echo ∧ x.dest = m.src)) ∧
    (∃ (s : State) (m : CantorMsg) (w : Replay), Authentic s.dev m w ∧ m.destEp = 1 ∧ s.dev.tray.down = true ∧ s.dev.dict.requests = [] ∧ s.dev.dict.count < 2 ^ 32) ∧
    (∃ (s : State) (m : CantorMsg) (w : Replay), s.dev.engineUp = true ∧ s.dev.keyLoaded = true ∧ s.dev.oget O.CANTOR_ENABLE ≠ 0 ∧ m.tag = cantorMac m s.dev.dict.key ∧
      (match mget s.dev.dict.windows 4096 with
        | none => some (Replay.mk m.boot m.count 1)
        | some w => w.accept m.boot m.count) = some w ∧ m.dest ≠ s.dev.oget O.CHIP_ID ∧ s.dev.idValid = true ∧ s.dev.dict.requests = []) ∧
    (∃ s : State, ∃ x ∈ s.dev.dict.waits, x.count = 9 ∧ x.deadline = s.dev.time) ∧
    (∃ s : State, s.dev.boot.running.isSome = true ∧ (∀ j < 8, j ≠ 7 → bit (s.dev.oget (O.NOTIFY_TARGET j)) 15 = false) ∧
      bit (s.dev.oget (O.NOTIFY_TARGET 7)) 15 = true ∧ bit (s.dev.oget (O.NOTIFY_TARGET 7)) 23 = true ∧ mget s.dev.dict.notified 71 = none ∧
      s.dev.keyLoaded = true) ∧
    (∃ (s : State) (t : Nat), s.dev.boot.running.isSome = true ∧ mget s.dev.dict.notified 71 = some t ∧ s.dev.time + 1 = t + 1000000) := by
  have hk : (heardState id).dev.dict.key = 0 := by decide +kernel
  refine ⟨⟨ready (obj O.CANTOR_TX_STATUS 1), .hk, ?_⟩, ⟨ready id, .hk, ?_⟩, ⟨ready id, .hk, ?_⟩,
    ⟨heardState fun d => { d with dict := { d.dict with waits := [⟨9, 7, d.time⟩] } }, signed { msg0 with resp := true, destEp := 2, echo := 9 }, ⟨0, 6, 3⟩,
      authentic (by decide +kernel), rfl, rfl, rfl, ?_⟩,
    ⟨heardState id, signed { msg0 with resp := true, destEp := 2, echo := 9 }, ⟨0, 6, 3⟩,
      authentic (by decide +kernel), rfl, rfl, rfl, ?_⟩,
    ⟨heardState fun d => { d with tray := { d.tray with down := true } }, signed { msg0 with destEp := 1 }, ⟨0, 6, 3⟩,
      authentic (by decide +kernel), rfl, ?_⟩,
    ⟨heardState id, signed { msg0 with dest := 14 }, ⟨0, 6, 3⟩, by decide +kernel, by decide +kernel, by decide +kernel, by rw [hk]; rfl, ?_⟩,
    ⟨ready fun d => { d with dict := { d.dict with waits := [⟨9, 7, d.time⟩] } }, ?_⟩, ⟨targetState id, ?_⟩,
    ⟨targetState fun d => { d with dict := { d.dict with notified := [(71, 4000001)] } }, 4000001, ?_⟩⟩ <;> (try delta mayWrite) <;> decide +kernel

end Sys2Proof.Tests
end

