-- ==== Sys2Proof/Tests/WitnessNave.lean ====
section
/-! SUPPORT. Tests/WitnessNave.lean: for each statement about the instructions of a core, states and words that meet its hypotheses. -/

namespace Sys2Proof.Tests

open Sys2Proof Sys2Proof.Machine Sys2Proof.Claims

set_option Elab.async false

/-- What holds of the one core that is not in its reset state, and of a core in its reset state, holds of every core. -/
theorem every_core {P : Core → Prop} {d : Dev} {c : Core} (h : d.nave.cores = [(0, c)]) (h0 : P c) (hr : P Core.reset) (m : Nat) :
    P (d.core m) := by
  unfold Dev.core
  rw [h]
  by_cases hm : m = 0
  · subst hm; simpa [dget, mget] using h0
  · have : dget Core.reset [(0, c)] m = Core.reset := by simp [dget, mget, hm]
    rw [this]; exact hr

/-- The hypotheses of IntegerInstructionsCompute are met. -/
theorem witness_IntegerInstructionsCompute :
    Runs 0x01 (specInt false false) ∧
    Runs 0x02 (specInt false false) ∧
    Runs 0x03 (specInt false false) ∧
    Runs 0x04 (specInt true false) ∧
    Runs 0x05 (specInt false true) ∧
    Runs 0x06 (specInt false false) ∧
    Runs 0x07 (specInt false false) ∧
    Runs 0x08 (specInt false false) ∧
    Runs 0x09 (specInt false false) ∧
    Runs 0x0A (specInt false false) ∧
    Runs 0x0B (specInt false false) ∧
    Runs 0x0C (specInt true false) ∧
    Runs 0x0D (specInt true false) ∧
    Runs 0x0E (specPopc) :=
  ⟨runs_of (one (ins 0x01 3 1 2 0 0x0 0x0 0x0) (choirWith [] [] [])) (by decide +kernel),
    runs_of (one (ins 0x02 3 1 2 0 0x0 0x0 0x0) (choirWith [] [] [])) (by decide +kernel),
    runs_of (one (ins 0x03 3 1 2 0 0x0 0x0 0x0) (choirWith [] [] [])) (by decide +kernel),
    runs_of (one (ins 0x04 62 62 62 0 0x3 0x0 0x0) (choirWith [] [] [])) (by decide +kernel),
    runs_of (one (ins 0x05 3 1 2 4 0x0 0x0 0x0) (choirWith [] [] [])) (by decide +kernel),
    runs_of (one (ins 0x06 3 1 2 0 0x0 0x0 0x0) (choirWith [] [] [])) (by decide +kernel),
    runs_of (one (ins 0x07 3 1 2 0 0x0 0x0 0x0) (choirWith [] [] [])) (by decide +kernel),
    runs_of (one (ins 0x08 3 1 2 0 0x0 0x0 0x0) (choirWith [] [] [])) (by decide +kernel),
    runs_of (one (ins 0x09 3 1 2 0 0x0 0x0 0x0) (choirWith [] [] [])) (by decide +kernel),
    runs_of (one (ins 0x0A 3 1 2 0 0x0 0x0 0x0) (choirWith [] [] [])) (by decide +kernel),
    runs_of (one (ins 0x0B 3 1 2 0 0x0 0x0 0x0) (choirWith [] [] [])) (by decide +kernel),
    runs_of (one (ins 0x0C 3 1 2 0 0x2 0x0 0x0) (choirWith [] [] [])) (by decide +kernel),
    runs_of (one (ins 0x0D 3 1 2 0 0x2 0x0 0x0) (choirWith [] [] [])) (by decide +kernel),
    runs_of (one (ins 0x0E 3 1 0 0 0x0 0x0 0x0) (choirWith [] [] [])) (by decide +kernel)⟩

/-- The hypotheses of FloatingPointInstructionsCompute are met. -/
theorem witness_FloatingPointInstructionsCompute :
    Runs 0x10 (fpSpec false .two) ∧
    Runs 0x11 (fpSpec false .two) ∧
    Runs 0x12 (fpSpec false .three) ∧
    Runs 0x13 (fpSpec false .two) ∧
    Runs 0x14 (fpSpec false .two) ∧
    Runs 0x15 (fpSpec false .two) ∧
    Runs 0x16 (fpSpec false .one) ∧
    Runs 0x20 (fpSpec true .two) ∧
    Runs 0x21 (fpSpec true .two) ∧
    Runs 0x22 (fpSpec true .three) ∧
    Runs 0x23 (fpSpec true .two) ∧
    Runs 0x24 (fpSpec true .two) ∧
    Runs 0x25 (fpSpec true .two) ∧
    Runs 0x26 (fpSpec true .one) :=
  ⟨runs_of (one (ins 0x10 8 1 2 0 0x24 0x0 0x0) (choirWith [] [] [])) (by decide +kernel),
    runs_of (one (ins 0x11 8 1 2 0 0x24 0x0 0x0) (choirWith [] [] [])) (by decide +kernel),
    runs_of (one (ins 0x12 8 1 2 4 0x24 0x0 0x0) (choirWith [] [] [])) (by decide +kernel),
    runs_of (one (ins 0x13 8 1 2 0 0x24 0x0 0x0) (choirWith [] [] [])) (by decide +kernel),
    runs_of (one (ins 0x14 8 1 2 0 0x24 0x0 0x0) (choirWith [] [] [])) (by decide +kernel),
    runs_of (one (ins 0x15 8 1 2 0 0x24 0x0 0x0) (choirWith [] [] [])) (by decide +kernel),
    runs_of (one (ins 0x16 8 1 0 0 0x24 0x0 0x0) (choirWith [] [] [])) (by decide +kernel),
    runs_of (one (ins 0x20 8 2 4 0 0x4 0x0 0x0) (choirWith [] [] [])) (by decide +kernel),
    runs_of (one (ins 0x21 8 2 4 0 0x4 0x0 0x0) (choirWith [] [] [])) (by decide +kernel),
    runs_of (one (ins 0x22 8 2 4 6 0x4 0x0 0x0) (choirWith [] [] [])) (by decide +kernel),
    runs_of (one (ins 0x23 8 2 4 0 0x4 0x0 0x0) (choirWith [] [] [])) (by decide +kernel),
    runs_of (one (ins 0x24 8 2 4 0 0x4 0x0 0x0) (choirWith [] [] [])) (by decide +kernel),
    runs_of (one (ins 0x25 8 2 4 0 0x4 0x0 0x0) (choirWith [] [] [])) (by decide +kernel),
    runs_of (one (ins 0x26 8 2 0 0 0x4 0x0 0x0) (choirWith [] [] [])) (by decide +kernel)⟩

/-- The hypotheses of ConvertSelectAndMove are met. -/
theorem witness_ConvertSelectAndMove :
    Runs 0x30 (specCvt) ∧
    Runs 0x0F (specSel) ∧
    Runs 0xC2 (specMov) ∧
    Runs 0xE0 (specVperm) :=
  ⟨runs_of (one (ins 0x30 4 2 0 0 0x44B 0x0 0x0) (choirWith [] [] [])) (by decide +kernel),
    runs_of (one (ins 0x0F 3 1 2 7 0x0 0x0 0x0) (choirWith [] [] [])) (by decide +kernel),
    runs_of (one (ins 0xC2 3 0 0 0 0x0 0x9 0x0 (bi := true)) (choirWith [] [] [])) (by decide +kernel),
    runs_of (one (ins 0xE0 3 1 2 0 0x3 0x0 0x0) (choirWith [] [] [])) (by decide +kernel)⟩

/-- The hypotheses of PredicateInstructionsWrite are met. -/
theorem witness_PredicateInstructionsWrite :
    Runs 0x40 (specSetp 0) ∧
    Runs 0x41 (specSetp 1) ∧
    Runs 0x42 (specSetp 2) ∧
    Runs 0x43 (specPlop) ∧
    Runs 0x44 (specVote) :=
  ⟨runs_of (one (ins 0x40 7 1 2 7 0x85 0x0 0x0) (choirWith [] [] [])) (by decide +kernel),
    runs_of (one (ins 0x41 7 1 2 7 0x287 0x0 0x0) (choirWith [] [] [])) (by decide +kernel),
    runs_of (one (ins 0x42 1 2 4 7 0x47 0x0 0x0) (choirWith [] [] [])) (by decide +kernel),
    runs_of (one (ins 0x43 1 2 3 0 0x3 0x0 0x0) (choirWith [] [] [])) (by decide +kernel),
    runs_of (one (ins 0x44 3 2 0 0 0x2 0x0 0x0 (du := true)) (choirWith [] [] [])) (by decide +kernel)⟩

/-- The hypotheses of BranchesMoveTheChoir are met. -/
theorem witness_BranchesMoveTheChoir :
    Shows 0x50 (specBra) (fun _ _ x => x.ex = x.h.mask) ∧
    Shows 0x50 (specBra) (fun _ _ x => x.ex ≠ x.h.mask ∧ x.h.dstack.length + 2 ≤ 32) ∧
    Runs 0x51 (specBrx) ∧
    Shows 0x52 (specCall) (fun _ _ x => x.ex = x.h.mask ∧ x.h.rstack.length < 8) ∧
    Shows 0x52 (specCall) (fun _ _ x => x.ex ≠ x.h.mask ∧ x.h.rstack.length < 8 ∧ x.h.dstack.length < 32) ∧
    Shows 0x53 (specNone) (fun _ _ x => x.ex = x.h.mask ∧ x.h.rstack ≠ []) ∧
    Runs 0x55 (specNone) :=
  ⟨shows_of (one (ins 0x50 0 0 0 0 0x0 0x4 0x8) (choirWith [] [] [])) (by decide +kernel) (by decide +kernel),
    shows_of (one (ins 0x50 0 0 0 0 0x0 0x4 0x8 (gp := 1)) { choirWith [] [] [(1, 0x1)] with dstack := List.replicate 30 ⟨0, 1, none⟩ }) (by decide +kernel) (by decide +kernel),
    runs_of (one (ins 0x51 0 62 0 0 0x0 0x0 0x8 (au := true)) (choirWith [] [] [])) (by decide +kernel),
    shows_of (one (ins 0x52 0 0 0 0 0x0 0x4 0x0) { choirWith [] [] [] with rstack := List.replicate 7 16 }) (by decide +kernel) (by decide +kernel),
    shows_of (one (ins 0x52 0 0 0 0 0x0 0x4 0x0 (gp := 1)) { choirWith [] [] [(1, 0x1)] with rstack := List.replicate 7 16, dstack := List.replicate 31 ⟨0, 1, none⟩ }) (by decide +kernel) (by decide +kernel),
    shows_of (one (ins 0x53 0 0 0 0 0x0 0x0 0x0) { choirWith [] [] [] with rstack := List.replicate 8 16 }) (by decide +kernel) (by decide +kernel),
    runs_of (one (ins 0x55 0 0 0 0 0x0 0x0 0x0) (choirWith [] [] [])) (by decide +kernel)⟩

/-- The hypotheses of FullStacksRaiseStackDepth are met. -/
theorem witness_FullStacksRaiseStackDepth :
    Shows 0x50 (specBra) (fun _ _ x => x.ex ≠ x.h.mask ∧ 32 < x.h.dstack.length + 2) ∧
    Shows 0x52 (specCall) (fun _ _ x => 8 ≤ x.h.rstack.length) ∧
    Shows 0x53 (specNone) (fun _ _ x => x.h.rstack = []) :=
  ⟨shows_of (one (ins 0x50 0 0 0 0 0x0 0x4 0x8 (gp := 1)) { choirWith [] [] [(1, 0x1)] with dstack := List.replicate 31 ⟨0, 1, none⟩ }) (by decide +kernel) (by decide +kernel),
    shows_of (one (ins 0x52 0 0 0 0 0x0 0x4 0x0) { choirWith [] [] [] with rstack := List.replicate 8 16 }) (by decide +kernel) (by decide +kernel),
    shows_of (one (ins 0x53 0 0 0 0 0x0 0x0 0x0) (choirWith [] [] [])) (by decide +kernel) (by decide +kernel)⟩

/-- The hypotheses of ExitLeavesEveryMask are met. -/
theorem witness_ExitLeavesEveryMask :
    Shows 0x54 (specNone) (fun _ d x => (∀ m ∈ d.gangOf x.n, (d.core m).gbar = []) ∧ without x.h.mask x.ex ≠ 0 ∧ x.h.rpc ≠ some (x.h.pc + 16)) ∧
    Shows 0x54 (specNone) (fun _ d x => (∀ m ∈ d.gangOf x.n, (d.core m).gbar = []) ∧ without x.h.mask x.ex = 0 ∧ ∃ y r, (x.h.dstack.map fun y => { y with mask := without y.mask x.ex }) = y :: r ∧ y.mask ≠ 0 ∧ y.rpc ≠ some y.pc) ∧
    Shows 0x54 (specNone) (fun _ d x => (∀ m ∈ d.gangOf x.n, (d.core m).gbar = []) ∧ without x.h.mask x.ex = 0 ∧ x.h.dstack = []) :=
  ⟨shows_of (one (ins 0x54 0 0 0 0 0x0 0x0 0x0 (gp := 1)) (choirWith [] [] [(1, 0x1)])) (by decide +kernel) (by decide +kernel),
    shows_of (one (ins 0x54 0 0 0 0 0x0 0x0 0x0) { choirWith [] [] [] with mask := 1, dstack := [⟨64, 2, none⟩] }) (by decide +kernel) (⟨by decide +kernel, by decide +kernel, _, _, rfl, by decide +kernel, by decide +kernel⟩),
    shows_of (one (ins 0x54 0 0 0 0 0x0 0x0 0x0) (choirWith [] [] [])) (by decide +kernel) (by decide +kernel)⟩

/-- The hypotheses of SpecialRegistersReadAndWrite are met. -/
theorem witness_SpecialRegistersReadAndWrite :
    Shows 0xC0 (specSrRead) (fun _ d x => iImm x.w ≠ 0x16 ∧ ∃ t, (d.core x.n).task = some t ∧ t.tandem ≠ 2) ∧
    Shows 0xC0 (specSrRead) (fun _ d x => iImm x.w = 0x16 ∧ ∃ t, (d.core x.n).task = some t ∧ t.tandem ≠ 2) ∧
    Runs 0xC1 (specSrWrite) :=
  ⟨shows_of (one (ins 0xC0 4 0 0 0 0x0 0x15 0x0) (choirWith [] [] [])) (by decide +kernel) (⟨by decide +kernel, task0, by decide +kernel, by decide +kernel⟩),
    shows_of (one (ins 0xC0 4 0 0 0 0x0 0x16 0x0) (choirWith [] [] [])) (by decide +kernel) (⟨by decide +kernel, task0, by decide +kernel, by decide +kernel⟩),
    runs_of (one (ins 0xC1 0 63 0 0 0x0 0x18 0x0 (au := true)) (choirWith [] [] [])) (by decide +kernel)⟩

/-- The hypotheses of TrapsAssertsAndMarks are met. -/
theorem witness_TrapsAssertsAndMarks :
    Runs 0xD0 (specTrap) ∧
    Shows 0xD1 (specAssert) (fun _ _ x => without x.ex (x.h.pred (iSa x.w)) ≠ 0) ∧
    Shows 0xD1 (specAssert) (fun _ _ x => without x.ex (x.h.pred (iSa x.w)) = 0) ∧
    Shows 0xD2 (specMark) (fun _ d x => ∃ t, (d.core x.n).task = some t) :=
  ⟨runs_of (one (ins 0xD0 0 0 0 0 0x0 0xFFFF 0x0) (choirWith [] [] [])) (by decide +kernel),
    shows_of (one (ins 0xD1 0 1 0 0 0x0 0x3 0x0) (choirWith [] [] [])) (by decide +kernel) (by decide +kernel),
    shows_of (one (ins 0xD1 0 0 0 0 0x0 0x3 0x0) (choirWith [] [] [])) (by decide +kernel) (by decide +kernel),
    shows_of (one (ins 0xD2 0 5 0 0 0x0 0x0 0x0 (au := true)) (choirWith [] [] [])) (by decide +kernel) (⟨task0, by decide +kernel⟩)⟩

/-- The hypotheses of LocalMemoryLoadsAndStores are met. -/
theorem witness_LocalMemoryLoadsAndStores :
    Shows 0x60 (specLoad false) (fun _ d x => lmFair false d x (acting x)) ∧
    Shows 0x61 (specStore false) (fun _ d x => lmFair false d x (voicesOf x.ex) ∧ (((lmBegun false d x (voicesOf x.ex) false).core x.n).task.map (·.tandem)) = some 0) ∧
    Shows 0x62 (specLoad false) (fun _ d x => lmFair true d x (acting x)) ∧
    Shows 0x63 (specStore false) (fun _ d x => lmFair true d x (voicesOf x.ex) ∧ (((lmBegun true d x (voicesOf x.ex) false).core x.n).task.map (·.tandem)) = some 0) :=
  ⟨shows_of (one (ins 0x60 3 1 0 0 0x2 0x7FFFC 0x0) (choirWith [] [] [])) (by decide +kernel) (by delta lmFair; decide +kernel),
    shows_of (one (ins 0x61 0 1 2 0 0x2 0x7FFFC 0x0) (choirWith [] [] [])) (by decide +kernel) (by delta lmFair; decide +kernel),
    shows_of (one (ins 0x62 3 1 0 0 0x2 0x7FFFC 0x0) (choirWith [] [] [])) (by decide +kernel) (by delta lmFair; decide +kernel),
    shows_of (one (ins 0x63 0 1 2 0 0x2 0x7FFFC 0x0) (choirWith [] [] [])) (by decide +kernel) (by delta lmFair; decide +kernel)⟩

/-- The hypotheses of LocalAtomicsTakeEffectInOrder are met. -/
theorem witness_LocalAtomicsTakeEffectInOrder :
    Shows 0x70 (specAtom false) (fun _ d x => lmFair false d x (acting x) ∧ bit (iMod x.w) 10 = false ∧ accOrder x = 0 ∧ ∀ m, (d.core m).lmp = [] ∧ memWf (d.core m).lm = true) ∧
    Shows 0x71 (specAtom false) (fun _ d x => lmFair true d x (acting x) ∧ bit (iMod x.w) 10 = false ∧ accOrder x = 0 ∧ ∀ m, (d.core m).lmp = [] ∧ memWf (d.core m).lm = true) :=
  ⟨shows_of (one (ins 0x70 3 1 2 0 0x2 0x0 0x0) (choirWith [] [] [])) (by decide +kernel) (⟨by delta lmFair; decide +kernel, by decide +kernel, by decide +kernel, every_core (P := fun c => c.lmp = [] ∧ memWf c.lm = true) rfl (by decide +kernel) (by decide +kernel)⟩),
    shows_of (one (ins 0x71 3 1 2 0 0x2 0x0 0x0) (choirWith [] [] [])) (by decide +kernel) (⟨by delta lmFair; decide +kernel, by decide +kernel, by decide +kernel, every_core (P := fun c => c.lmp = [] ∧ memWf c.lm = true) rfl (by decide +kernel) (by decide +kernel)⟩)⟩

/-- The hypotheses of FencesDrainAndInvalidate are met. -/
theorem witness_FencesDrainAndInvalidate :
    Shows 0x80 (specFence) (fun _ _ x => accScope x < 2) ∧
    Shows 0x80 (specFence) (fun _ d x => 2 ≤ accOrder x ∧ 2 ≤ accScope x ∧ (d.core x.n).sb.length ≤ 4096) ∧
    Shows 0x80 (specFence) (fun _ _ x => accOrder x ≠ 2 ∧ 3 ≤ accScope x ∧ x.e = .none) ∧
    Shows 0x80 (specFence) (fun _ _ x => 3 ≤ accScope x ∧ accOrder x = 1 ∧ x.e = .none) :=
  ⟨shows_of (one (ins 0x80 0 0 0 0 0x90 0x0 0x0) (choirWith [] [] [])) (by decide +kernel) (by decide +kernel),
    shows_of (withCore { coreWith (ins 0x80 0 0 0 0 0x120 0x0 0x0) (choirWith [] [] []) with
      sb := [⟨0, false, 4, 1, 7, false, 0, 0, 0, 0, 0, 0, 1, 0, []⟩] }) (by decide +kernel) (by decide +kernel),
    shows_of (one (ins 0x80 0 0 0 0 0x1C0 0x0 0x0) (choirWith [] [] [])) (by decide +kernel) (by decide +kernel),
    shows_of (one (ins 0x80 0 0 0 0 0x190 0x0 0x0) (choirWith [] [] [])) (by decide +kernel) (by decide +kernel)⟩

/-- The hypotheses of CwaitComparesADoubleword are met. -/
theorem witness_CwaitComparesADoubleword :
    Shows 0x66 (specCwait) (fun _ d x => lmFair true d x [0] ∧ ((d.core (lmPlace true x 0).1).lmRead (lmPlace true x 0).2 8).2 = false ∧ ((d.core (lmPlace true x 0).1).lmRead (lmPlace true x 0).2 8).1 = srcB x 2 0 ∧ bits (iMod x.w) 12 2 = 0) ∧
    Shows 0x66 (specCwait) (fun _ d x => lmFair true d x [0] ∧ ((d.core (lmPlace true x 0).1).lmRead (lmPlace true x 0).2 8).2 = false ∧ ((d.core (lmPlace true x 0).1).lmRead (lmPlace true x 0).2 8).1 = srcB x 2 0 ∧ bits (iMod x.w) 12 2 = 1) :=
  ⟨shows_of (one (ins 0x66 0 1 2 0 0x3 0x7FFF8 0x0 (au := true) (bu := true)) (choirWith [] [] [])) (by decide +kernel) (by delta lmFair; decide +kernel),
    shows_of (one (ins 0x66 0 1 2 0 0x1003 0x7FFF8 0x0 (au := true) (bu := true)) (choirWith [] [] [])) (by decide +kernel) (by delta lmFair; decide +kernel)⟩

/-- The specs of the arrival instructions. -/
def specInit : Nat → Spec := fun _ => { imm := 0xFFFF, imm2 := 0x3F }
def specArr : Nat → Spec := fun _ => { imm2 := 0x3F }
def specArrExpect : Nat → Spec := fun _ => { imm := 0xFFFFFF, imm2 := 0x3F }
def specArrC : Nat → Spec := fun _ => { imm2 := 0x33F }
def specBarrier : Nat → Spec := fun _ => { imm := 0x7F0F }

/-- The core that runs a word and holds one counter. -/
def counting (w i : Nat) (a : Act) : State := withCore { coreWith w (choirWith [] [] []) with acts := [(i, a)] }

/-- An arrival of `b` bytes outside an open core clock, after the release of its choir's stores, counts, or overflows. -/
def arrives (b : Nat) (ok : Bool) : State → Dev → Ctx → Prop := fun _ d x =>
  (storesOut d x).clockOf x.n = none ∧ (mayArrive (((storesOut d x).core x.n).act (actOf x)) b ↔ ok = true)

/-- An arrival in an open core clock. -/
def arrivesOn : State → Dev → Ctx → Prop := fun _ d x => ∃ k, (storesOut d x).clockOf x.n = some k

/-- The hypotheses of ArrivalCountersCountPhases are met outside an open core clock. -/
theorem witness_ArrivalCountersCountPhases :
    Shows 0x91 specInit (fun _ d x => d.clockOf x.n = none ∧ iImm x.w ≠ 0) ∧
    Shows 0x91 specInit (fun _ d x => d.clockOf x.n = none ∧ iImm x.w = 0) ∧
    Shows 0x92 specArr (arrives 0 true) ∧ Shows 0x92 specArr (arrives 0 false) ∧
    Shows 0x93 specArrExpect (fun s d x => arrives (iImm x.w) true s d x) ∧
    Shows 0x93 specArrExpect (fun s d x => arrives (iImm x.w) false s d x) ∧
    Shows 0x95 specArrC (fun s d x => (d.core x.n).task.map (·.tandem) = some 0 ∧ x.n / 4 * 4 + bits (iImm2 x.w) 8 2 = x.n ∧ arrives 0 true s d x) ∧
    Shows 0x95 specArrC (fun s d x => (d.core x.n).task.map (·.tandem) = some 0 ∧ x.n / 4 * 4 + bits (iImm2 x.w) 8 2 = x.n ∧ arrives 0 false s d x) :=
  ⟨shows_of (one (ins 0x91 0 0 0 0 0x0 0xFFFF 0x3F) (choirWith [] [] [])) (by decide +kernel) (by decide +kernel),
    shows_of (one (ins 0x91 0 0 0 0 0x0 0x0 0x3F) (choirWith [] [] [])) (by decide +kernel) (by decide +kernel),
    shows_of (counting (ins 0x92 0 0 0 0 0x0 0x0 0x3F) 63 ⟨1, 1, 0, 0, 0, 0, 0, 0⟩) (by decide +kernel) (by delta arrives mayArrive; decide +kernel),
    shows_of (counting (ins 0x92 0 0 0 0 0x0 0x0 0x3F) 63 ⟨0, 0, 0, 0, 0, 0, 0, 0⟩) (by decide +kernel) (by delta arrives mayArrive; decide +kernel),
    shows_of (counting (ins 0x93 0 0 0 0 0x0 0xFFFFFF 0x3F) 63 ⟨2, 2, 0, 0, 0, 0, 0, 0⟩) (by decide +kernel) (by delta arrives mayArrive; decide +kernel),
    shows_of (counting (ins 0x93 0 0 0 0 0x0 0xFFFFFF 0x3F) 63 ⟨2, 2, 1073741823, 0, 0, 0, 0, 0⟩) (by decide +kernel)
      (by delta arrives mayArrive; decide +kernel),
    shows_of (counting (ins 0x95 0 0 0 0 0x0 0x0 0x3F) 63 ⟨1, 1, 0, 0, 0, 0, 0, 0⟩) (by decide +kernel) (by delta arrives mayArrive; decide +kernel),
    shows_of (counting (ins 0x95 0 0 0 0 0x0 0x0 0x3F) 63 ⟨0, 0, 0, 0, 0, 0, 0, 0⟩) (by decide +kernel) (by delta arrives mayArrive; decide +kernel)⟩

/-- And in one. -/
theorem witness_ArrivalCountersCountPhases_clock :
    Shows 0x91 specInit (fun _ d x => ∃ k, d.clockOf x.n = some k) ∧ Shows 0x92 specArr arrivesOn ∧ Shows 0x93 specArrExpect arrivesOn ∧
    Shows 0x95 specArrC (fun s d x => (d.core x.n).task.map (·.tandem) = some 0 ∧ x.n / 4 * 4 + bits (iImm2 x.w) 8 2 = x.n ∧ arrivesOn s d x) :=
  ⟨shows_on (one (ins 0x91 0 0 0 0 0x0 0xFFFF 0x3F) (choirWith [] [] [])) (by decide +kernel) ⟨⟨[0], [], []⟩, by decide +kernel⟩,
    shows_on (counting (ins 0x92 0 0 0 0 0x0 0x0 0x3F) 63 ⟨1, 1, 0, 0, 0, 0, 0, 0⟩) (by decide +kernel) ⟨⟨[0], [], []⟩, by decide +kernel⟩,
    shows_on (counting (ins 0x93 0 0 0 0 0x0 0x7 0x3F) 63 ⟨1, 1, 0, 0, 0, 0, 0, 0⟩) (by decide +kernel) ⟨⟨[0], [], []⟩, by decide +kernel⟩,
    shows_on (counting (ins 0x95 0 0 0 0 0x0 0x0 0x3F) 63 ⟨1, 1, 0, 0, 0, 0, 0, 0⟩) (by decide +kernel)
      ⟨by decide +kernel, by decide +kernel, ⟨[0], [], []⟩, by decide +kernel⟩⟩

/-- The hypotheses of ArrivalWaitsAndReads are met. -/
theorem witness_ArrivalWaitsAndReads :
    Runs 0x94 (specActWait) ∧
    Runs 0x96 (specActRead) :=
  ⟨runs_of (one (ins 0x94 0 0 0 0 0x0 0x1 0x3F (bi := true)) (choirWith [] [] [])) (by decide +kernel),
    runs_of (one (ins 0x96 62 0 0 0 0x0 0x0 0x3F (du := true)) (choirWith [] [] [])) (by decide +kernel)⟩

/-- The core that runs a word and holds barrier 15 with count 2 and one arrival. -/
def atBarrier (w : Nat) : State := withCore { coreWith w (choirWith [] [] []) with bars := [(15, ⟨2, 1, 0, 0⟩)] }

/-- The count of a barrier instruction is legal, and its choir is free after the release of its stores, or the count is not legal. -/
def barFits (ok : Bool) : State → Dev → Ctx → Prop := fun _ d x =>
  (d.core x.n).task = some task0 ∧ ((storesOut d x).core x.n).choir x.slot = x.h ∧
  (let b := barState (d.core x.n) (barOf x)
   let k := barCount x
   (k = 0 ∨ task0.choirs < k ∨ (b.2 ≠ 0 ∧ b.2 ≠ k)) ↔ ok = false)

/-- Every choir of the gang has arrived at a GBAR or ended, or not. -/
def gangHere (ok : Bool) : State → Dev → Ctx → Prop := fun _ d x =>
  let d0 := storesOut d x
  x.n ∈ d0.gangOf x.n ∧ (d0.gangOf x.n).Nodup ∧ ((d0.core x.n).choir x.slot).wait = .none ∧
  ((∀ m ∈ d0.gangOf x.n, (d0.core m).started = true ∧ ∀ slot < ((d0.core m).task.map (·.choirs)).getD 0,
    (m = x.n ∧ slot = x.slot) ∨ slot ∈ (d0.core m).gbar ∨ ((d0.core m).choir slot).ended = true) ↔ ok = true)

/-- The hypotheses of BarriersReleaseOnTheLastArrival are met. -/
theorem witness_BarriersReleaseOnTheLastArrival :
    Shows 0xA0 specBarrier (barFits true) ∧ Shows 0xA0 specBarrier (barFits false) ∧
    Shows 0xA1 specBarrier (barFits true) ∧ Shows 0xA1 specBarrier (barFits false) ∧
    Shows 0xA2 specNone (gangHere true) ∧ Shows 0xA2 specNone (gangHere false) :=
  ⟨shows_of (atBarrier (ins 0xA0 0 0 0 0 0x0 0x20F 0x0)) (by decide +kernel) (by delta barFits; decide +kernel),
    shows_of (atBarrier (ins 0xA0 0 0 0 0 0x0 0x50F 0x0)) (by decide +kernel) (by delta barFits; decide +kernel),
    shows_of (atBarrier (ins 0xA1 0 0 0 0 0x0 0x20F 0x0)) (by decide +kernel) (by delta barFits; decide +kernel),
    shows_of (atBarrier (ins 0xA1 0 0 0 0 0x0 0xF 0x0)) (by decide +kernel) (by delta barFits; decide +kernel),
    shows_of (withCore { coreWith (ins 0xA2 0 0 0 0 0x0 0x0 0x0) (choirWith [] [] []) with gbar := [3, 2] }) (by decide +kernel)
      (by delta gangHere; decide +kernel),
    shows_of (withCore { coreWith (ins 0xA2 0 0 0 0 0x0 0x0 0x0) (choirWith [] [] []) with
      gbar := [3, 2], choirs := [(0, choirWith [] [] []), (1, choirWith [] [] [])] }) (by decide +kernel) (by delta gangHere; decide +kernel)⟩

/-- The hypotheses of MatrixTokensAreIssuedInOrder are met. -/
theorem witness_MatrixTokensAreIssuedInOrder :
    Shows 0xB0 (specMma) (fun _ d x => (d.core x.n).mmq.length < 8 ∧ (x.h.uget (iSa x.w)).1 % 64 = 0 ∧ (x.h.uget (iSa x.w)).1 < 0x80000 ∧ (d.core x.n).mmIssued + 1 < 2 ^ 32) ∧
    Shows 0xB1 (specMwait) (fun _ d x => (x.h.uget (iSa x.w)).1 ≤ (d.core x.n).mmIssued) ∧
    Shows 0xB1 (specMwait) (fun _ d x => (d.core x.n).mmIssued < (x.h.uget (iSa x.w)).1) ∧
    Shows 0xB2 (specMma) (fun _ d x => (x.h.uget (iSa x.w)).1 ≤ (d.core x.n).mmIssued ∧ (x.h.uget (iSa x.w)).1 ≤ (d.core x.n).mmDone) ∧
    Shows 0xB2 (specMma) (fun _ d x => (x.h.uget (iSa x.w)).1 ≤ (d.core x.n).mmIssued ∧ (d.core x.n).mmDone < (x.h.uget (iSa x.w)).1) ∧
    Shows 0xB2 (specMma) (fun _ d x => (d.core x.n).mmIssued < (x.h.uget (iSa x.w)).1) :=
  ⟨shows_of (withCore { coreWith (ins 0xB0 3 1 0 0 0x0 0x0 0x0 (du := true) (au := true)) (choirWith [] [(1, 0x7FFC0)] []) with mmIssued := 2 ^ 32 - 2, mmq := List.replicate 7 ⟨1, 0, 0, 0, 0, 1, (0, false), none, none⟩ }) (by decide +kernel) (by decide +kernel),
    shows_of (withCore { coreWith (ins 0xB1 0 1 0 0 0x0 0x0 0x0 (au := true)) (choirWith [] [(1, 0x4)] []) with mmIssued := 4, mmDone := 3 }) (by decide +kernel) (by decide +kernel),
    shows_of (withCore { coreWith (ins 0xB1 0 1 0 0 0x0 0x0 0x0 (au := true)) (choirWith [] [(1, 0x5)] []) with mmIssued := 4, mmDone := 3 }) (by decide +kernel) (by decide +kernel),
    shows_of (withCore { coreWith (ins 0xB2 3 1 0 0 0x0 0x0 0x0 (du := true) (au := true)) (choirWith [] [(1, 0x3)] []) with mmIssued := 4, mmDone := 3 }) (by decide +kernel) (by decide +kernel),
    shows_of (withCore { coreWith (ins 0xB2 3 1 0 0 0x0 0x0 0x0 (du := true) (au := true)) (choirWith [] [(1, 0x4)] []) with mmIssued := 4, mmDone := 3 }) (by decide +kernel) (by decide +kernel),
    shows_of (withCore { coreWith (ins 0xB2 3 1 0 0 0x0 0x0 0x0 (du := true) (au := true)) (choirWith [] [(1, 0x5)] []) with mmIssued := 4, mmDone := 3 }) (by decide +kernel) (by decide +kernel)⟩

end Sys2Proof.Tests
end

