-- ==== Sys2Proof/Tests/WitnessPower.lean ====
section
/-! SUPPORT. Tests/WitnessPower.lean: for each statement about power, clocks, heat, resets, boot, flash, attestation and the pins, states and
commands that meet its hypotheses, at boundaries of their ranges. -/

namespace Sys2Proof.Tests

open Sys2Proof Sys2Proof.Machine Sys2Proof.Claims

set_option Elab.async false

/-- Part of the power state is set. -/
def pwr (f : Power → Power) (d : Dev) : Dev := d.onPower f

/-- Part of the boot state is set. -/
def bts (f : Boot → Boot) (d : Dev) : Dev := { d with boot := f d.boot }

/-! ### Domains -/

/-- The hypotheses of DomainsWakeSleepAndFail are met, for the first and the last domain a request may name, and in each state of one. -/
theorem witness_DomainsWakeSleepAndFail :
    (∃ (s : State) (p : Path), mayWrite s p 0x2001 0 ∧ mayWrite s p 0x2001 1) ∧
    (∃ (s : State) (p : Path), mayWrite s p 0x2001 4 ∧ s.dev.oget (O.PD_STATE (pdNeeds 4)) ≠ 2) ∧
    (∀ st, st < 6 → ∃ (s : State) (p : Path), (mayWrite s p 0x2001 2 ∧ mayWrite s p 0x2001 15) ∧ s.dev.oget (O.PD_STATE (pdNeeds 15)) = 2 ∧
      s.dev.oget (O.PD_STATE 15) = st) ∧
    (∃ (s : State) (p : Path), mayWrite s p 0x2001 13 ∧ s.dev.pdOffRefused 13 = false ∧ s.dev.oget (O.PD_STATE 13) = 5) ∧
    (∃ (s : State) (p : Path), mayWrite s p 0x2001 2 ∧ s.dev.pdOffRefused 2 = true) ∧
    (∃ (s : State) (p : Path), mayWrite s p 0x2001 4 ∧ s.dev.pdOffRefused 4 = false ∧ s.dev.oget (O.PD_STATE 4) ≠ 0 ∧
      (isOct 4 = true ∧ ∃ n, n / 32 = 4 - 4 ∧ ((s.dev.core n).task ≠ none ∨ (s.dev.core n).next ≠ none))) ∧
    (∃ (s : State) (p : Path), mayWrite s p 0x2001 13 ∧ s.dev.pdOffRefused 13 = false ∧ s.dev.oget (O.PD_STATE 13) ≠ 0 ∧ isOct 13 = false) ∧
    (∀ n, n < 3 → ∃ s : State, s.dev.oget (O.PD_STATE 15) = 1 ∧ s.dev.oget (O.PD_STATE (pdNeeds 15)) = 2 ∧ dget 0 s.dev.power.tries 15 = n) ∧
    (∃ s : State, s.dev.oget (O.PD_STATE 15) = 1 ∧ s.dev.oget (O.PD_STATE (pdNeeds 15)) ≠ 2) ∧
    (∃ s : State, mget s.dev.power.retryAt 15 = some s.dev.time ∧ s.dev.oget (O.PD_STATE 15) = 0) ∧
    (∃ s : State, ∀ t, mget s.dev.power.retryAt 15 = some t → s.dev.time < t ∨ s.dev.oget (O.PD_STATE 15) ≠ 0) ∧
    (∀ x, x < 16 → ∃ s : State, s.dev.oget (O.PD_STATE x) = 2) ∧ (∃ s : State, s.dev.oget (O.PD_STATE 15) = 3) ∧ (∃ s : State, s.dev.oget (O.PD_STATE 15) = 5) := by
  refine ⟨⟨ready id, .hk, ?_⟩, ⟨ready (obj (O.PD_STATE 2) 0), .hk, ?_⟩, fun st h => ⟨ready (obj (O.PD_STATE 15) st), .hk, ?_⟩,
    ⟨ready (obj (O.PD_STATE 13) 5), .hk, ?_⟩, ⟨ready id, .hk, ?_⟩,
    ⟨ready fun d => d.setCore 31 { Core.reset with task := some task0 }, .hk, ?_, ?_, ?_, by decide, 31, by decide, .inl (by decide +kernel)⟩,
    ⟨ready id, .hk, ?_⟩, fun n h => ⟨ready fun d => pwr (fun p => { p with tries := [(15, n)] }) (obj (O.PD_STATE 15) 1 d), ?_⟩,
    ⟨ready fun d => obj (O.PD_STATE 15) 1 (obj (O.PD_STATE 3) 1 d), ?_⟩,
    ⟨ready fun d => pwr (fun p => { p with retryAt := [(15, 5000000)] }) (obj (O.PD_STATE 15) 0 d), ?_⟩,
    ⟨ready id, fun t h => by rw [show mget (ready id).dev.power.retryAt 15 = none by decide +kernel] at h; cases h⟩, fun x h => ⟨ready id, ?_⟩, ⟨ready (obj (O.PD_STATE 15) 3), ?_⟩, ⟨ready (obj (O.PD_STATE 15) 5), ?_⟩⟩
  all_goals (try delta mayWrite)
  all_goals decide +kernel +revert

/-! ### Clocks, power and heat -/

/-- The hypotheses of ClocksAndRailsStayInBounds are met. -/
theorem witness_ClocksAndRailsStayInBounds :
    (∃ s : State, s.dev.oget (O.PD_STATE (octDomain 7)) ≠ 2) ∧ (∃ s : State, s.dev.oget (O.PD_STATE (octDomain 7)) = 2) ∧
    (∀ margin : Int, 24 ≤ margin → margin ≤ 26 → ∃ s : State, s.dev.oget (O.PD_STATE (octDomain 7)) = 2 ∧
      mget s.dev.life.pendingRaise 7 = none ∧ s.dev.oget (O.VOLT_FREEZE 7) ≠ 1 ∧ s.dev.oget O.VOLT_MARGIN = 25) ∧
    (∃ s : State, s.dev.oget (O.PD_STATE (octDomain 0)) = 2 ∧ s.dev.oget O.DROOP_MARGIN = 30 ∧ 29 < s.dev.oget O.DROOP_MARGIN) ∧
    (∃ s : State, 10 * s.dev.oget (O.OCT_CLOCK 7) < dget 0 s.dev.power.stretched 7 ∧ s.dev.oget O.DROOP_FREEZE = 0) ∧
    (∃ s : State, s.dev.oget (O.VREF_FREEZE 1) ≠ 1 ∧ ((dget [] s.dev.mem.recent 255).filter fun t => s.dev.time < t + 1000000000).length ≤ 64 ∧
      s.dev.power.clamps.contains (5 * 65536 + 6 * 256 + 255) = false ∧ s.dev.power.clamps.contains (5 * 65536 + 7 * 256 + 255) = false ∧
      dget 64 s.dev.power.vref (128 * 255 + 71) = 127) ∧
    (∃ s : State, s.dev.oget O.PARK_FREEZE = 1) ∧
    (∃ s : State, s.dev.oget O.PARK_FREEZE ≠ 1 ∧ s.dev.oget (O.PD_STATE (octDomain 7)) = 2 ∧ s.dev.parkAllowed 7 = true ∧ s.dev.octBusy 7 = false ∧
      dget 0 s.dev.power.busyAt 7 + 1000 * s.dev.oget O.PARK_DELAY = s.dev.time) ∧
    (∃ s : State, s.dev.oget O.PARK_FREEZE ≠ 1 ∧ s.dev.oget (O.PD_STATE (octDomain 7)) = 3 ∧ s.dev.parkAllowed 7 = false) ∧
    (∃ s : State, 7 ∉ s.dev.power.overload ∧ s.dev.currentCeiling 7 = 410 ∧ dget 0 s.dev.power.currentAt 7 + 1000000 = s.dev.time) ∧
    (∃ s : State, 7 ∉ s.dev.power.overload ∧ 1250 ≤ s.dev.currentCeiling 7) := by
  refine ⟨⟨ready (obj (O.PD_STATE 11) 5), ?_⟩, ⟨ready id, ?_⟩, fun _ _ _ => ⟨ready fun d => obj O.VOLT_MARGIN 25 (obj O.VOLT_CEILING 900 (obj (O.OCT_VOLT 7) 600 d)), ?_⟩, ⟨ready (obj O.DROOP_MARGIN 30), ?_⟩,
    ⟨ready fun d => pwr (fun p => { p with stretched := [(7, 8001)] }) (obj (O.OCT_CLOCK 7) 800 d), ?_⟩,
    ⟨ready fun d => pwr (fun p => { p with vref := [(128 * 255 + 71, 127)] }) (obj (O.VREF_MAX 1) 127 d), ?_⟩, ⟨ready (obj O.PARK_FREEZE 1), ?_⟩,
    ⟨ready fun d => obj O.PARK_ENABLE 1 (obj O.PARK_DELAY 5000 d), ?_⟩, ⟨ready (obj (O.PD_STATE 11) 3), ?_⟩,
    ⟨ready (pwr fun p => { p with current := [(7, 410)], currentAt := [(7, 4000000)] }), ?_⟩, ⟨ready id, ?_⟩⟩
  all_goals decide +kernel

/-- Readings that are all `x`, but sensor `i` of the octants. -/
def temps (x : Int) (i : Nat) (y : Int) : Temps := ⟨(List.replicate 32 x).set i y, List.replicate 8 x⟩

/-- A failed device whose sensor 31 has read 115 degrees once. -/
def hotState (f : Dev → Dev) : State := ready fun d => f (obj O.DEVICE_STATUS 1 (pwr (fun p => { p with hot := [31] }) d))

/-- The hypotheses of PowerAndHeatAreEstimated are met. -/
theorem witness_PowerAndHeatAreEstimated :
    (∃ s : State, s.dev.rests 11 = false) ∧ (∃ s : State, isOct 11 = true ∧ s.dev.octBusy 7 = true ∧ s.dev.rests 11 = true) ∧
    (∃ s : State, s.dev.rests 15 = true) ∧
    (∃ s : State, s.dev.oget O.QUIESCE_ENABLE ≠ 1) ∧
    (∃ s : State, s.dev.oget O.QUIESCE_ENABLE = 1 ∧ s.dev.quiesceSlot = true ∧ s.dev.quiesceDue 15 = true ∧ s.dev.power.quietNext = 15) ∧
    (∃ s : State, s.dev.oget O.QUIESCE_ENABLE = 1 ∧ s.dev.quiesceDue 15 = false) ∧
    (∃ s : State, s.dev.oget (O.PD_STATE 15) = 2 ∧ s.dev.oget (O.EST_STATE 15) ≠ 1 ∧ s.dev.uncalibrated 15 = 500000000) ∧
    (∃ s : State, ¬ 500000000 ≤ s.dev.uncalibrated 15) ∧
    (∃ s : State, s.dev.pkg.powered = false) ∧
    (∀ b, ∃ (s : State) (t : Temps), t.oct.length = 32 ∧ t.uncore.length = 8 ∧ s.dev.pkg.powered = true ∧ s.dev.boot.inReset = b ∧ s.dev.boot.held = none ∧
      s.dev.oget O.DEVICE_STATUS = 1 ∧ s.dev.tripped = false ∧ ∃ i ∈ s.dev.power.hot, ∃ r, (t.oct ++ t.uncore)[i]? = some r ∧ r = 460) ∧
    (∃ s : State, s.dev.tripped = true ∧ s.dev.power.hot = [31]) ∧
    (∃ (s : State) (t : Temps), t.oct.length = 32 ∧ t.uncore.length = 8 ∧ s.dev.pkg.powered = true ∧ s.dev.boot.inReset = false ∧
      s.dev.boot.held = none ∧ s.dev.power.hot = []) := by
  refine ⟨⟨ready fun d => d.setCore 255 { Core.reset with task := some task0 }, ?_⟩,
    ⟨ready fun d => quieted 11 (d.setCore 255 { Core.reset with task := some task0 }), ?_⟩, ⟨ready id, ?_⟩, ⟨ready (obj O.QUIESCE_ENABLE 0), ?_⟩,
    ⟨ready fun d => pwr (fun p => { p with quietNext := 15, quiesced := [(15, 48000000)] }) (obj O.QUIESCE_ENABLE 1 { d with time := 50000000 }), ?_⟩,
    ⟨ready fun d => obj O.QUIESCE_ENABLE 1 d, ?_⟩,
    ⟨ready fun d => { d with time := 500000000 }, ?_⟩, ⟨ready id, ?_⟩,
    ⟨ready fun d => { d with pkg := { d.pkg with powered := false } }, ?_⟩,
    fun b => ⟨hotState fun d => { d with boot := { d.boot with inReset := b } }, temps 200 31 460, by decide +kernel +revert⟩,
    ⟨hotState fun d => (rangeFrom 2 14).foldl (fun d x => obj (O.PD_STATE x) 0 d) { d with pkg := { d.pkg with thermtrip := true } }, ?_⟩,
    ⟨ready id, temps 200 0 (-160), ?_⟩⟩
  all_goals decide +kernel

/-! ### Reset, boot and flash -/

/-- The device powered and in reset. -/
def held0 (f : Dev → Dev) : State := ready fun d => f (bts (fun b => { b with inReset := true, running := none }) d)

/-- The hypotheses of ResetsRecordTheirCause are met. -/
theorem witness_ResetsRecordTheirCause :
    (∃ s : State, s.dev.pkg.powered = true) ∧ (∃ s : State, s.dev.pkg.powered = false) ∧
    (∀ h : Int, 379 ≤ h → h ≤ 380 → ∃ (s : State) (p : Path), mayWrite s p 0x1012 0 ∧ s.dev.pkg.powered = true ∧ s.dev.boot.inReset = false ∧
      s.dev.boot.selfTestFailed = false ∧ s.dev.power.hottest = h) ∧
    (∃ s : State, s.dev.boot.watchdog = false) ∧
    (∃ s : State, s.dev.boot.watchdog = true ∧ s.dev.pkg.powered = true ∧ (s.dev.boot.inReset = true → s.dev.boot.cold = false) ∧
      s.dev.boot.selfTestFailed = false) := by
  refine ⟨⟨ready id, ?_⟩, ⟨ready fun d => { d with pkg := { d.pkg with powered := false } }, ?_⟩, fun h h1 h2 => ?_, ⟨ready id, ?_⟩,
    ⟨ready (bts fun b => { b with watchdog := true }), ?_⟩⟩
  case refine_3 =>
    have : h = 379 ∨ h = 380 := by omega
    rcases this with rfl | rfl
    · refine ⟨ready (pwr fun p => { p with hottest := 379 }), .hk, ?_⟩
      delta mayWrite
      decide +kernel
    · refine ⟨ready (pwr fun p => { p with hottest := 380 }), .hk, ?_⟩
      delta mayWrite
      decide +kernel
  all_goals decide +kernel

/-- What the device finds as it is released from reset: everything is well. -/
def fine : BootInputs := ⟨true, true, true, true, true, true, 0, 0, ⟨[], [], [], 100⟩, 900⟩

/-- The image of slot A has key index 2. -/
def keyed (d : Dev) : Dev := bts (fun b => { b with running := some 0, flash := [(20, 253)] }) d

/-- The hypotheses of BootReachesReady are met, but that both slots pass the checks: whether a signature verifies is not fixed by the model, and
that clause is met by every pair of slots that pass. -/
theorem witness_BootReachesReady :
    (∃ s : State, s.dev.boot.inReset = false) ∧
    (∃ (s : State) (b : BootInputs), (s.dev.boot.inReset = true ∧ s.dev.pkg.powered = true ∧ s.dev.boot.stuck = false) ∧ b.ref0 = false) ∧
    (∃ (s : State) (b : BootInputs), (s.dev.boot.inReset = true ∧ s.dev.pkg.powered = true ∧ s.dev.boot.stuck = false) ∧ b.ref0 = true ∧ b.selfTest = false) ∧
    (∃ (s : State) (b : BootInputs), (s.dev.boot.inReset = true ∧ s.dev.pkg.powered = true ∧ s.dev.boot.stuck = false) ∧ b.ref0 = true ∧ b.selfTest = true ∧
      b.cryptOk = false) ∧
    (∃ (s : State) (b : BootInputs), (s.dev.boot.inReset = true ∧ s.dev.pkg.powered = true ∧ s.dev.boot.stuck = false) ∧ b.ref0 = true ∧ b.selfTest = true ∧
      b.cryptOk = true ∧ s.dev.oget O.BOOT_PREFERENCE = 1 ∧ ∀ i < 2, s.dev.imageCheck i (if i = 0 then b.flashA else b.flashB) ≠ 0) ∧
    (∃ (s : State) (b : BootInputs), (s.dev.boot.inReset = true ∧ s.dev.pkg.powered = true ∧ s.dev.boot.stuck = false) ∧ b.ref0 = true ∧ b.selfTest = true ∧
      b.cryptOk = true ∧ s.dev.oget O.BOOT_PREFERENCE ≤ 1 ∧ b.failed = 0 ∧ ∀ g ∈ s.dev.life.gens, ∀ e ∈ g.values, lifeKey e.1 = true) ∧
    (∃ (s : State) (p : Path), mayWrite s p 0x1014 0) ∧
    (∃ (s : State) (p : Path), mayWrite s p 0x1017 0 ∧ s.dev.oget O.BOOT_TRIAL = 0) ∧
    (∃ (s : State) (p : Path), mayWrite s p 0x1017 0 ∧ s.dev.oget O.BOOT_TRIAL ≠ 0 ∧ s.dev.boot.running = some 0) ∧
    (∃ (s : State) (p : Path), mayWrite s p 0x101B 0 ∧ s.dev.boot.running = some 0 ∧ ∀ j < 4, bit 3 j = true → j < s.dev.boot.keyIndex 0) ∧
    (∃ (s : State) (p : Path), mayWrite s p 0x101B 0 ∧ s.dev.boot.running = some 0 ∧ ∃ j < 4, bit 4 j = true ∧ s.dev.boot.keyIndex 0 ≤ j) := by
  refine ⟨⟨ready id, ?_⟩, ⟨held0 id, { fine with ref0 := false }, ?_⟩, ⟨held0 id, { fine with selfTest := false }, ?_⟩,
    ⟨held0 id, { fine with cryptOk := false }, ?_⟩, ⟨held0 (obj O.BOOT_PREFERENCE 1), fine, by decide +kernel, rfl, rfl, rfl, by decide +kernel, ?_⟩,
    ⟨held0 id, fine, ?_⟩, ⟨ready id, .hk, ?_⟩, ⟨ready id, .hk, ?_⟩, ⟨ready (obj O.BOOT_TRIAL 1), .hk, ?_⟩, ⟨ready keyed, .hk, ?_⟩, ⟨ready keyed, .hk, ?_⟩⟩
  case refine_5 =>
    intro i hi
    have hm : ∀ j < 2, (held0 (obj O.BOOT_PREFERENCE 1)).dev.boot.headerWord j 0 ≠ 0x43484153 := by decide +kernel
    have : (if i = 0 then fine.flashA else fine.flashB) = true := by split <;> rfl
    simp [Dev.imageCheck, this, hm i hi]
  all_goals (try delta mayWrite)
  all_goals decide +kernel

/-- The hypotheses of FlashOperationsRunToTheirEnd are met: the first sector, the running image's, past the last, and a busy flash. -/
theorem witness_FlashOperationsRunToTheirEnd :
    (∀ a, a ∈ [0, 0xBFF000, 0x1800000] → ∃ (s : State) (p : Path), mayWrite s p 0x1022 0 ∧ s.dev.oget O.FLASH_ADDR = a ∧
      (0x1800000 ≤ a ∨ s.dev.boot.running = some (a / 0xC00000))) ∧
    (∃ (s : State) (p : Path), mayWrite s p 0x1022 0 ∧ s.dev.oget O.FLASH_STATUS = 1) ∧
    (∀ a, a ∈ [0xC00000, 0x17FF000] → ∃ (s : State) (p : Path), mayWrite s p 0x1022 0 ∧ s.dev.oget O.FLASH_ADDR = a ∧
      ¬ (0x1800000 ≤ a ∨ s.dev.boot.running = some (a / 0xC00000) ∨ s.dev.oget O.FLASH_STATUS = 1)) ∧
    (∃ s : State, s.dev.boot.flashOp = 0) ∧
    (∀ op, op ∈ [1, 2, 3] → ∃ s : State, s.dev.boot.flashOp = op ∧ s.dev.boot.flashAt = 0x17FF000 ∧ s.dev.boot.erased 0x17FF000 = true) := by
  refine ⟨fun a h => ⟨ready (obj O.FLASH_ADDR a), .hk, ?_⟩, ⟨ready (obj O.FLASH_STATUS 1), .hk, ?_⟩, fun a h => ⟨ready (obj O.FLASH_ADDR a), .hk, ?_⟩,
    ⟨ready id, ?_⟩, fun op h => ⟨ready (bts fun b => { b with flashOp := op, flashAt := 0x17FF000 }), ?_⟩⟩
  all_goals (try simp only [List.mem_cons, List.not_mem_nil, or_false] at h)
  all_goals (try rcases h with rfl | rfl | rfl)
  all_goals (try delta mayWrite)
  all_goals decide +kernel

/-! ### Attestation and the pins -/

/-- A responder that has negotiated, with sessions. -/
def negotiated (l : List Session) : Spdm := ⟨true, true, true, l, 3⟩

/-- The device's responder is `x`. -/
def spdm0 (x : Spdm) : State := ready (bts fun b => { b with spdm := x })

/-- A number as bytes, highest first, has that value. -/
theorem beNat_reverse_leBytes (n x : Nat) (h : x < 256 ^ n) : beNat (leBytes n x).reverse = x := by
  induction n generalizing x with
  | zero =>
    have : x = 0 := by simpa using h
    simp [leBytes, beNat, this]
  | succ n ih =>
    have hx : x / 256 < 256 ^ n := by rw [pow_succ] at h; omega
    have := ih (x / 256) hx
    simp only [leBytes, List.reverse_cons, beNat, List.foldl_append, List.foldl_cons, List.foldl_nil, BitVec.toNat_ofNat] at *
    omega

/-- A key command of session 2 with an AUTH. -/
def keyNew (want : Nat) : SpdmReq := ⟨false, 2, (leBytes 4 1 ++ List.replicate 48 7) ++ (leBytes 48 want).reverse⟩
def keyNone (want : Nat) : SpdmReq := ⟨false, 2, leBytes 4 2 ++ (leBytes 48 want).reverse⟩

theorem keyNew_auth (x : Nat) (h : x < 256 ^ 48) : beNat ((keyNew x).body.drop 52) = x := by
  rw [keyNew, List.drop_left' (by decide), beNat_reverse_leBytes _ _ h]
theorem keyNone_auth (x : Nat) (h : x < 256 ^ 48) : beNat ((keyNone x).body.drop 4) = x := by
  rw [keyNone, List.drop_left' (by decide), beNat_reverse_leBytes _ _ h]
theorem keyNew_key (x : Nat) : ((keyNew x).body.drop 4).take 48 = List.replicate 48 7 := by simp [keyNew, leBytes]

theorem hmac_lt (k : Nat) (m : List Byte) : Config.hmac384 k m < 256 ^ 48 := by
  have := (Config.hmac384Bits k m).isLt
  exact lt_of_lt_of_eq this (by decide +kernel)

/-- A number of 384 bits that is not `x`. -/
def other (x : Nat) : Nat := if x = 0 then 1 else 0
theorem other_ne (x : Nat) : other x ≠ x ∧ other x < 256 ^ 48 := by unfold other; split <;> omega

/-- The device with session 2 live, and its system key loaded or not. -/
def keyState (loaded : Nat) : State := ready fun d => obj O.CANTOR_KEY_STATE loaded (bts (fun b => { b with spdm := negotiated [⟨2, true⟩] }) d)

/-- What the AUTH of a new key must be, and of a request that clears it. -/
def authNew (s : State) : Nat := Config.hmac384 s.dev.dict.key (List.replicate 48 7 ++ leBytes 2 (s.dev.oget O.CANTOR_BOOT))
def authNone (s : State) : Nat := Config.hmac384 s.dev.dict.key ([0x5A, 0x45, 0x52, 0x4F] ++ leBytes 2 (s.dev.oget O.CANTOR_BOOT))

/-- The hypotheses of SpdmRequestsAreAnswered are met, for the device's responder and the JT-16's. -/
theorem witness_SpdmRequestsAreAnswered :
    (∃ (s : State) (r : SpdmReq), s.dev.spdmHere r = false) ∧
    (∀ tray, ∃ (s : State) (r : SpdmReq), r.tray = tray ∧ s.dev.spdmHere r = true ∧ r.session = 0 ∧ s.dev.spdmReady r = false) ∧
    (∃ (s : State) (r : SpdmReq), s.dev.spdmHere r = true ∧ r.session = 0 ∧ (s.dev.spdmOf r).version = true ∧ (s.dev.spdmOf r).caps = true) ∧
    (∀ n, n < 3 → ∃ (s : State) (r : SpdmReq), s.dev.spdmHere r = true ∧ r.session = 0 ∧ s.dev.spdmReady r = true ∧ (s.dev.spdmOf r).sessions.length = n) ∧
    (∃ (s : State) (r : SpdmReq), s.dev.spdmHere r = true ∧ s.dev.spdmReady r = true ∧ s.dev.spdmOpen r = true ∧ cmdByte r = 0 ∧ (r.body[0]?.getD 0).toNat ≤ 5) ∧
    (∃ (s : State) (r : SpdmReq), s.dev.spdmHere r = true ∧ ∃ y ∈ (s.dev.spdmOf r).sessions, y.id = r.session ∧ y.live = false) ∧
    (∃ (s : State) (r : SpdmReq), s.dev.spdmHere r = true ∧ s.dev.sessionLive r = true) ∧
    (∃ (s : State) (r : SpdmReq), s.dev.spdmHere r = true ∧ s.dev.sessionLive r = false) := by
  refine ⟨⟨ready (bts fun b => { b with running := none }), ⟨false, 0, []⟩, ?_⟩, fun tray => ⟨ready fun d => { d with tray := { d.tray with down := false } }, ⟨tray, 0, []⟩, ?_⟩,
    ⟨spdm0 (negotiated []), ⟨false, 0, []⟩, ?_⟩, fun n h => ⟨spdm0 (negotiated (List.replicate n ⟨2, true⟩)), ⟨false, 0, []⟩, ?_⟩,
    ⟨spdm0 (negotiated [⟨2, true⟩]), ⟨false, 2, [0]⟩, ?_⟩, ⟨spdm0 (negotiated [⟨2, false⟩]), ⟨false, 2, []⟩, by decide +kernel, ⟨2, false⟩, by decide +kernel⟩,
    ⟨spdm0 (negotiated [⟨2, true⟩]), ⟨false, 2, []⟩, ?_⟩, ⟨spdm0 (negotiated [⟨2, true⟩]), ⟨false, 1, []⟩, ?_⟩⟩
  all_goals decide +kernel +revert

/-- The hypotheses of SpdmRequestsAreAnswered about the system key are met: with no key a new one needs AUTH zero; with one, the right AUTH and a
wrong one are there, whatever the authentication code of the model yields. -/
theorem witness_SystemKeyCommands :
    (∀ x, (keyNew x).body.length = 100 ∧ (keyNew x).body.take 4 = leBytes 4 1 ∧ (keyNone x).body.length = 52 ∧ (keyNone x).body.take 4 = leBytes 4 2 ∧
      ∀ n < 2, (keyState n).dev.spdmHere (keyNew x) = true ∧ (keyState n).dev.spdmHere (keyNone x) = true ∧
        (keyState n).dev.sessionLive (keyNew x) = true ∧ (keyState n).dev.sessionLive (keyNone x) = true ∧ (keyState n).dev.oget O.CANTOR_KEY_STATE = n) ∧
    beNat ((keyNew 0).body.drop 52) = 0 ∧ beNat ((keyNew 1).body.drop 52) ≠ 0 ∧
    (∃ x, beNat ((keyNew x).body.drop 52) = authNew (keyState 1)) ∧ (∃ x, beNat ((keyNew x).body.drop 52) ≠ authNew (keyState 1)) ∧
    (∃ x, beNat ((keyNone x).body.drop 4) = authNone (keyState 1)) ∧ (∃ x, beNat ((keyNone x).body.drop 4) ≠ authNone (keyState 1)) := by
  refine ⟨fun x => ⟨by simp [keyNew, leBytes], by simp [keyNew, leBytes], by simp [keyNone, leBytes], by simp [keyNone, leBytes], fun n hn => ?_⟩, ?_, ?_,
    ⟨_, keyNew_auth _ (hmac_lt _ _)⟩, ⟨other (authNew (keyState 1)), ?_⟩, ⟨_, keyNone_auth _ (hmac_lt _ _)⟩, ⟨other (authNone (keyState 1)), ?_⟩⟩
  · have h : ∀ n < 2, (keyState n).dev.spdmUp = true ∧ (keyState n).dev.boot.spdm = negotiated [⟨2, true⟩] ∧ (keyState n).dev.oget O.CANTOR_KEY_STATE = n := by
      decide +kernel
    obtain ⟨h1, h2, h3⟩ := h n hn
    simp [Dev.spdmHere, Dev.sessionLive, Dev.spdmOf, keyNew, keyNone, h1, h2, h3, negotiated]
  · decide +kernel
  · decide +kernel
  · rw [keyNew_auth _ (other_ne _).2]; exact (other_ne _).1
  · rw [keyNone_auth _ (other_ne _).2]; exact (other_ne _).1

/-- The hypotheses of PinsAndTestPortRespond are met. -/
theorem witness_PinsAndTestPortRespond :
    (∃ s : State, s.dev.pkg.powered = false) ∧ (∃ s : State, s.dev.pkg.powered = true ∧ s.dev.boot.resetN = true) ∧
    (∃ s : State, s.dev.pkg.powered = true ∧ s.dev.boot.resetN = false) ∧
    (∃ s : State, s.dev.boot.inReset = false ∧ s.dev.pkg.powered = true ∧ s.dev.boot.selfTestFailed = true) ∧
    (∃ s : State, s.dev.boot.inReset = false ∧ s.dev.pkg.powered = true ∧ s.dev.boot.selfTestFailed = false ∧ s.dev.boot.running.isSome = true) ∧
    (∃ s : State, s.dev.tray.down = false) ∧
    (∃ s : State, 1 ≤ s.dev.oget (O.PD_STATE 15) ∧ s.dev.oget (O.PD_STATE 15) ≤ 4) ∧ (∃ s : State, s.dev.pkg.pgNoted = true) ∧
    (∀ st, st = 0 ∨ st = 5 → ∃ s : State, s.dev.oget (O.PD_STATE 15) = st ∧ s.dev.pkg.pgNoted = false ∧ s.dev.spdmUp = true ∧
      (s.dev.errLog 256).entries.length < 4) := by
  refine ⟨⟨ready fun d => { d with pkg := { d.pkg with powered := false } }, ?_⟩, ⟨ready (bts fun b => { b with resetN := true }), ?_⟩,
    ⟨ready (bts fun b => { b with resetN := false }), ?_⟩, ⟨ready (bts fun b => { b with selfTestFailed := true }), ?_⟩, ⟨ready id, ?_⟩, ⟨ready fun d => { d with tray := { d.tray with down := false } }, ?_⟩,
    ⟨ready id, ?_⟩, ⟨ready fun d => { d with pkg := { d.pkg with pgNoted := true } }, ?_⟩, fun st h => ?_⟩
  case refine_9 => rcases h with rfl | rfl
                   · exact ⟨ready (obj (O.PD_STATE 15) 0), by decide +kernel⟩
                   · exact ⟨ready (obj (O.PD_STATE 15) 5), by decide +kernel⟩
  all_goals decide +kernel

end Sys2Proof.Tests
end

