-- ==== Sys2Proof/Tests/WitnessTray.lean ====
section
/-! SUPPORT. Tests/WitnessTray.lean: for each statement about the JT-16, states and commands that meet its hypotheses, at boundaries of their
ranges; and commands that are well formed and that are not. -/

namespace Sys2Proof.Tests

open Sys2Proof Sys2Proof.Machine Sys2Proof.Claims

set_option Elab.async false

/-- A powered slot whose device answers and is READY. -/
def slotUp : Slot := { Slot.reset with pwrEn := true, resetN := false, present := true, pgood := true, answers := true, phase := 4, attested := true, addr := 8 }

/-- The JT-16 up with a key, the modelled device in SLOT_0, SLOT_15 as given, changed by `f`. -/
def traying (x : Slot) (f : Tray → Tray) : State :=
  ready fun d => { d with tray := f { d.tray with down := false, key := some 9, slots := [(0, { slotUp with phase := 0 }), (15, x)] } }

/-- A request. -/
def trayReq0 (why : Nat) : TrayReq := ⟨cantorZero, why⟩

/-- The hypotheses of TrayHostCommandsAreAnswered are met, for the last slot, at the ends of the parameters' ranges. -/
theorem witness_TrayHostCommandsAreAnswered :
    (∃ s : State, s.dev.tray.down = true) ∧
    (∃ s : State, s.dev.tray.down = false ∧ (s.dev.slot 15).present = false ∧ s.dev.slotPowered 15 = false) ∧
    (∃ s : State, s.dev.tray.down = false ∧ (s.dev.slot 15).present = true ∧ s.dev.leakHolds 15 = true) ∧
    (∃ s : State, s.dev.tray.down = false ∧ (s.dev.slot 15).present = true ∧ s.dev.leakHolds 15 = false) ∧
    (∃ s : State, s.dev.tray.down = false ∧ (s.dev.slot s.dev.tray.home).present = true) ∧
    (∃ s : State, s.dev.tray.down = false ∧ s.dev.tray.key = none) ∧
    (∀ n, n ∈ [1, 16, 17] → ∃ s : State, s.dev.tray.down = false ∧ s.dev.tray.key.isSome = true ∧ s.dev.slotPowered 15 = true ∧
      (s.dev.slot 15).queue.length = n ∧ (s.dev.slot 15).sent = true ∧ s.dev.limitHeld 15 = false) ∧
    (paramRange 0 = none ∧ paramRange 0x50 = some (0, 4095) ∧ paramRange 0x5F = some (0, 4095) ∧ paramRange 0x61 = some (10, 10000) ∧ paramRange 0x62 = none) ∧
    (∃ s : State, s.dev.tray.down = false ∧ s.dev.tray.paramFits 6 100 = true ∧ s.dev.tray.paramFits 7 29 = false ∧ s.dev.tray.paramFits 7 30 = true ∧
      s.dev.tray.paramFits 0x11 100 = false ∧ s.dev.tray.paramFits 0x11 101 = true) ∧
    (∀ n, n ∈ [99, 100] → ∃ s : State, s.dev.tray.down = false ∧ (s.dev.tray.rope 3).dryRun = n ∧ (s.dev.tray.rope 3).latched = [7]) := by
  refine ⟨⟨ready id, ?_⟩, ⟨traying Slot.reset id, ?_⟩,
    ⟨traying { slotUp with pwrEn := false, leakHeld := true } fun t => { t with params := [(0x28, 100), (0x48, 0x8000)], ropes := [(3, { Rope.reset with latched := [0] })] }, ?_⟩,
    ⟨traying slotUp id, ?_⟩, ⟨traying slotUp id, ?_⟩, ⟨traying slotUp fun t => { t with key := none }, ?_⟩,
    fun n h => ⟨traying { slotUp with queue := List.replicate n (trayReq0 0), sent := true } id, ?_⟩, ?_,
    ⟨traying slotUp fun t => { t with params := [(0x10, 100)] }, ?_⟩,
    fun n h => ⟨traying slotUp fun t => { t with ropes := [(3, { Rope.reset with latched := [7], dryRun := n })] }, ?_⟩⟩
  all_goals (try simp only [List.mem_cons, List.not_mem_nil, or_false] at h)
  all_goals (try rcases h with rfl | rfl | rfl)
  all_goals decide +kernel

/-- The hypotheses of TrayPldmAndMctpRequestsAreAnswered are met, at the ends of the ranges of IDs. -/
theorem witness_TrayPldmAndMctpRequestsAreAnswered :
    (∃ s : State, s.dev.tray.down = false ∧ pdrIds[(1 : Nat) - 1]? = some 1 ∧ pdrIds[(134 : Nat) - 1]? = some 231 ∧ pdrIds[(135 : Nat) - 1]? = none ∧
      s.dev.numeric 0 = none ∧ s.dev.numeric 55 = none ∧ s.dev.numeric 1 = some (false, 0) ∧ s.dev.numeric 54 = some (true, 20000)) ∧
    (∃ s : State, s.dev.tray.down = false ∧ (s.dev.slot 15).present = false) ∧
    (∃ s : State, s.dev.tray.down = false ∧ (s.dev.slot 15).present = true ∧ s.dev.leakHolds 15 = false) ∧
    (∃ (s : State) (e : TrayEvent), s.dev.tray.down = false ∧ s.dev.tray.events = [e] ∧ s.dev.tray.receiver = some 8) ∧
    (∃ s : State, s.dev.tray.down = false ∧ s.dev.tray.events = []) ∧ (∃ s : State, s.dev.tray.down = false ∧ s.dev.tray.receiver = none) ∧
    (∃ s : State, s.dev.tray.down = true) := by
  refine ⟨⟨traying { slotUp with power := 20000, powerFailed := true } id, ?_⟩, ⟨traying Slot.reset id, ?_⟩, ⟨traying slotUp id, ?_⟩,
    ⟨traying slotUp fun t => { t with events := [⟨33, 0, 0, 0⟩], receiver := some 8 }, ⟨33, 0, 0, 0⟩, ?_⟩, ⟨traying slotUp id, ?_⟩,
    ⟨traying slotUp id, ?_⟩, ⟨ready id, ?_⟩⟩ <;> decide +kernel

/-- A sample of good readings, with the currents of the supply and return pressure sensors. -/
def sample0 (c0 c1 : Nat) : TraySample :=
  ⟨1000, (List.replicate 15 200) ++ [1001], List.replicate 16 100, [80, 84], [c0, c1], [2400, 2400], List.replicate 16 500, 0x8001, 0x8001, 1, 0, 0, 0, 0⟩

/-- A reading of a rope with 100 kΩ, or `r` ohms, between its conductors, 1.5 m from its start. -/
def wet (r : Nat) : RopeReading := ⟨200, 200, r, 4500, 1000, 0⟩

/-- A reading of a rope through which no current flows. -/
def dry : RopeReading := { wet 1000000 with curUa := 0 }

/-- SLOT_15's device is to have its power limit lowered. -/
def limited (t : Tray) : Tray := { t with conds := [(64 * 3 + 15, ⟨true, 0⟩)] }

theorem freeBus_of (x : Slot) (f : Tray → Tray) (h0 : (traying x f).dev.tray.home = 0) (h1 : (traying x f).dev.tray.down = false)
    (h2 : (traying x f).dev.tray.key.isSome = true) (h3 : ((traying x f).dev.slot 15).queue = [] ∧ ((traying x f).dev.slot 15).sent = false) :
    FreeBus (traying x f).dev 15 := ⟨by omega, h1, h2, h3⟩

/-- The hypotheses of TrayWatchesAndActs are met. -/
theorem witness_TrayWatchesAndActs :
    (∃ (s : State) (r : TraySample), s.dev.tray.down = false ∧ s.dev.tray.clockSet = true ∧ r.flow.length = 16 ∧ r.outlet.length = 16 ∧ r.power.length = 16 ∧
      r.inlet.length = 2 ∧ r.current.length = 2 ∧ r.speed.length = 2 ∧ r.current = [359, 2100] ∧ bit r.flowBad 0 = true ∧ bit r.flowBad 1 = false) ∧
    (∀ n, n ∈ [49999, 50000] → ∃ s : State, s.dev.tray.down = false ∧ 0 < (wet n).curUa ∧ ((s.dev.tray.rope 3).reading (wet n)).leakRun = if n = 50000 then 0 else 2) ∧
    (∃ s : State, s.dev.tray.down = false ∧ 3 ≤ ((s.dev.tray.rope 3).reading (wet 49999)).leakRun ∧ s.dev.tray.segAt 3 (bridgeAt (wet 49999)) = some 1 ∧
      ((s.dev.tray.rope 3).reading (wet 49999)).latched.contains 1 = false ∧ s.dev.tray.param 8 ≠ 0 ∧ bit (s.dev.tray.param (0x30 + 8 * 3 + 1)) 15 = true) ∧
    (∀ c, ∃ s : State, s.dev.tray.down = false ∧ (s.dev.slot 15).closing = c) ∧
    (∀ p, p ∈ [2799, 2800] → ∃ s : State, s.dev.tray.down = false ∧ s.dev.tray.pressureFailed = 0 ∧ s.dev.tray.alarm 9 0 = true ∧ s.dev.tray.pumpCmd = 11 ∧
      (s.dev.tray.pressure[0]?).getD 0 = p ∧ 10 * s.dev.tray.param 9 = 3000) ∧
    (∃ s : State, s.dev.tray.down = false ∧ s.dev.tray.alarm 9 0 = true ∧ s.dev.tray.pressureFailed ≠ 0) ∧
    (∃ s : State, s.dev.tray.down = false ∧ ((s.dev.tray.rope 3).reading dry).leakRun < 3 ∧ dry.curUa = 0) ∧
    (∃ s : State, s.dev.tray.down = false ∧ s.dev.tray.alarm 9 0 = false ∧ s.dev.tray.pressureFailed = 0 ∧ s.dev.tray.pumpCmd = 99 ∧
      ∃ n < 16, s.dev.tray.alarm 3 n = true ∧ s.dev.slotPowered n = true) ∧
    (∀ p, p ∈ [1499, 1500, 1501] → ∃ s : State, s.dev.tray.down = false ∧ s.dev.tray.alarm 9 0 = false ∧ s.dev.tray.pressureFailed = 0 ∧
      (¬ ∃ n < 16, s.dev.tray.alarm 3 n = true ∧ s.dev.slotPowered n = true) ∧ s.dev.tray.param 6 ≤ s.dev.tray.pumpCmd ∧ s.dev.tray.pumpCmd ≤ s.dev.tray.param 7 ∧
      (s.dev.tray.pressure[0]?).getD 0 = p ∧ (s.dev.tray.pressure[1]?).getD 0 + 10 * s.dev.tray.param 5 = 1500) ∧
    (∃ s : State, FreeBus s.dev 15 ∧ s.dev.slotPowered 15 = true ∧ (s.dev.slot 15).untrusted = false ∧ (s.dev.slot 15).retry = true ∧
      s.dev.limitHeld 15 = true) ∧
    (∃ s : State, s.dev.tray.down = false ∧ s.dev.slotPowered 15 = true ∧ (s.dev.slot 15).attested = false ∧ s.dev.tray.allow = [(1, 2, 4)]) ∧
    (∃ s : State, s.dev.tray.down = false ∧ s.dev.slotPowered 0 = true ∧ (s.dev.slot 0).attested = false ∧ s.dev.boot.running.isSome = true ∧ s.dev.tray.home = 0) ∧
    (∀ c, ∃ s : State, FreeBus s.dev 15 ∧ s.dev.slotState 15 = 5 ∧ (s.dev.slot 15).untrusted = false ∧ s.dev.tray.clockSet = c ∧ (15 : Nat) ≠ s.dev.tray.home) ∧
    (∃ s : State, s.dev.tray.down = false ∧ s.dev.slotPowered 15 = false) ∧
    (∀ w, w < 4 → ∃ (s : State) (q : TrayReq), s.dev.tray.down = false ∧ (s.dev.slot 15).queue = [q] ∧ (s.dev.slot 15).sent = true ∧ q.why = w) := by
  refine ⟨⟨traying slotUp fun t => { t with clockSet := true }, sample0 359 2100, ?_⟩,
    fun n h => ⟨traying slotUp fun t => { t with ropes := [(3, { Rope.reset with leakRun := 1 })] }, ?_⟩,
    ⟨traying slotUp fun t => { t with ropes := [(3, { Rope.reset with leakRun := 2 })], params := [(0x28, 1499), (0x29, 1500), (0x49, 0x8000)] }, ?_⟩,
    fun c => ⟨traying { slotUp with closing := c } id, ?_⟩, fun p h => ⟨traying slotUp fun t => { t with conds := [(64 * 9, ⟨true, 0⟩)], pumpCmd := 11, pressure := [p, 0], params := [(9, 300)] }, ?_⟩,
    ⟨traying slotUp fun t => { t with pressureFailed := 1, conds := [(64 * 9, ⟨true, 0⟩)] }, ?_⟩, ⟨traying slotUp id, ?_⟩,
    ⟨traying slotUp fun t => { limited t with pumpCmd := 99 }, by decide +kernel, by decide +kernel, by decide +kernel, by decide +kernel, 15, by decide +kernel⟩,
    fun p h => ⟨traying slotUp fun t => { t with pressure := [p, 0], params := [(5, 150)] }, ?_⟩,
    ⟨traying { slotUp with retry := true } limited, freeBus_of _ _ ?_ ?_ ?_ ?_, ?_⟩,
    ⟨traying { slotUp with attested := false } fun t => { t with allow := [(1, 2, 4)] }, ?_⟩,
    ⟨traying slotUp fun t => { t with slots := [(0, { slotUp with attested := false })] }, ?_⟩,
    fun c => ⟨traying slotUp fun t => { t with clockSet := c }, freeBus_of _ _ ?_ ?_ ?_ ?_, ?_⟩,
    ⟨traying { slotUp with pwrEn := false } id, ?_⟩,
    fun w h => ⟨traying { slotUp with queue := [trayReq0 w], sent := true } id, trayReq0 w, ?_⟩⟩
  all_goals (try simp only [List.mem_cons, List.not_mem_nil, or_false] at h)
  all_goals (try rcases h with rfl | rfl | rfl)
  all_goals decide +kernel +revert

/-! ### The whole machine -/

/-- Commands that are well formed and that are not, with the fault of WellFormedCommandsComplete; states in which a step can go on. -/
theorem witness_WellFormedCommandsComplete :
    Instr.wf (.hbmRead 0 256 MemErr.clean) = true ∧ Instr.wf (.pdOn .hk 15) = true ∧ Instr.wf (.pdOn .hk 16) = false ∧
      State.reset.dev.homeDie (2 ^ 60) = none := by decide +kernel

/-- The hypotheses of StepsKeepMemoryCanonical are met by a state with a command and one byte of memory. -/
theorem witness_StepsKeepMemoryCanonical :
    ∃ s t : State, memWf s.dev.mem.cells = true ∧ s.dev.mem.cells ≠ [] ∧ step s = .next t :=
  ⟨{ State.reset with dev := { Dev.reset with mem := { Dev.reset.mem with cells := [(64, 5)] } } }, _, by decide +kernel, by decide +kernel, rfl⟩

end Sys2Proof.Tests
end

section
/-! What the move and predicate instructions share: masks of voices and predicates, operands with their poison, and what the two ways
of writing a result write. -/

namespace Sys2Proof.Machine

open Sys2Proof.Claims

/-! ### Bits, masks and predicates -/

theorem bit_eq_testBit (x i : Nat) : bit x i = x.testBit i := by
  simp [bit, Nat.testBit_eq_decide_div_mod_eq]

@[simp] theorem bit_and (x y i : Nat) : bit (x &&& y) i = (bit x i && bit y i) := by
  simp only [bit_eq_testBit, Nat.testBit_and]

@[simp] theorem bit_or (x y i : Nat) : bit (x ||| y) i = (bit x i || bit y i) := by
  simp only [bit_eq_testBit, Nat.testBit_or]

theorem testBit_all_voices {v : Nat} (hv : v < 32) : (2 ^ 32 - 1).testBit v = true := by
  rw [Nat.testBit_two_pow_sub_one, decide_eq_true hv]

/-- The complement of a word of voices. -/
theorem bit_complement (m : Nat) {v : Nat} (hv : v < 32) : bit ((2 ^ 32 - 1) ^^^ m) v = !bit m v := by
  rw [bit_eq_testBit, Nat.testBit_xor, testBit_all_voices hv, Bool.true_xor, bit_eq_testBit]

theorem bit_mod_word (m : Nat) {v : Nat} (hv : v < 32) : bit (m % 2 ^ 32) v = bit m v := by
  rw [bit_eq_testBit, Nat.testBit_mod_two_pow, decide_eq_true hv, Bool.true_and, bit_eq_testBit]

theorem testBit_foldl_or_two_pow (l : List Nat) (a v : Nat) :
    (l.foldl (fun a v => a ||| 2 ^ v) a).testBit v = (a.testBit v || decide (v ∈ l)) := by
  induction l generalizing a with
  | nil => simp
  | cons u l ih =>
    rw [List.foldl_cons, ih, Nat.testBit_or, Nat.testBit_two_pow, Bool.or_assoc]
    simp [eq_comm]

/-- The mask of a list has the bits of its members. -/
@[simp] theorem bit_maskOf (l : List Nat) (v : Nat) : bit (maskOf l) v = decide (v ∈ l) := by
  rw [bit_eq_testBit, maskOf, testBit_foldl_or_two_pow, Nat.zero_testBit, Bool.false_or]

/-- Words of voices are equal when they agree on the 32 voices. -/
theorem eq_of_voices {a b : Nat} (ha : a < 2 ^ 32) (hb : b < 2 ^ 32) (h : ∀ v < 32, bit a v = bit b v) : a = b := by
  apply Nat.eq_of_testBit_eq
  intro i
  by_cases hi : i < 32
  · rw [← bit_eq_testBit, ← bit_eq_testBit, h i hi]
  · have hp : 2 ^ 32 ≤ 2 ^ i := Nat.pow_le_pow_right (by decide) (by omega)
    rw [Nat.testBit_lt_two_pow (by omega), Nat.testBit_lt_two_pow (by omega)]

/-- Filtering the voices of a mask by a predicate gives the voices of their intersection. -/
theorem filter_voicesOf (m p : Nat) : (voicesOf m).filter (fun v => bit p v) = voicesOf (p &&& m) := by
  simp [voicesOf, List.filter_filter]

theorem voicesOf_inj {a b : Nat} (ha : a < 2 ^ 32) (hb : b < 2 ^ 32) : voicesOf a = voicesOf b ↔ a = b := by
  refine ⟨fun h => eq_of_voices ha hb fun v hv => ?_, fun h => h ▸ rfl⟩
  have hm : v ∈ voicesOf a ↔ v ∈ voicesOf b := by rw [h]
  simpa only [mem_voicesOf, hv, true_and, ← Bool.eq_iff_iff] using hm

theorem voicesOf_eq_nil {m : Nat} (hm : m < 2 ^ 32) : voicesOf m = [] ↔ m = 0 :=
  voicesOf_inj (b := 0) hm (by decide)

theorem foldl_or_lt (l : List Nat) (hl : ∀ v ∈ l, v < 32) (a : Nat) (ha : a < 2 ^ 32) :
    l.foldl (fun a v => a ||| 2 ^ v) a < 2 ^ 32 := by
  induction l generalizing a with
  | nil => exact ha
  | cons u l ih =>
    have hu : 2 ^ u < 2 ^ 32 := Nat.pow_lt_pow_right (by decide) (hl u (by simp))
    exact ih (fun v hv => hl v (by simp [hv])) _ (Nat.or_lt_two_pow ha hu)

theorem maskOf_voicesOf {m : Nat} (hm : m < 2 ^ 32) : maskOf (voicesOf m) = m :=
  eq_of_voices (foldl_or_lt _ (fun v hv => ((mem_voicesOf m v).1 hv).1) 0 (by decide)) hm fun v hv => by
    simp [mem_voicesOf, hv]

theorem pred_lt (h : Choir) (i : Nat) : h.pred i < 2 ^ 32 := by
  unfold Choir.pred
  split
  · decide
  · exact Nat.mod_lt _ (by decide)

/-- A predicate after a predicate is written: P0 is true (R31), and only the voices of the mask change. -/
theorem bit_pred_setPred (h : Choir) (i mask vals j : Nat) {v : Nat} (hv : v < 32) :
    bit ((h.setPred i mask vals).pred j) v =
      if j = 0 then true else if j = i ∧ bit mask v = true then bit vals v else bit (h.pred j) v := by
  by_cases hj : j = 0
  · rw [if_pos hj, hj, Choir.pred, if_pos rfl, bit_eq_testBit, testBit_all_voices hv]
  rw [if_neg hj]
  by_cases hi : i = 0
  · rw [if_neg (by omega), Choir.setPred, if_pos hi]
  by_cases hji : j = i
  · subst hji
    simp only [Choir.setPred, if_neg hj, Choir.pred, dget_dset_same, bit_mod_word _ hv, bit_or, bit_and, bit_complement _ hv]
    cases bit mask v <;> simp
  · rw [if_neg (by simp [hji])]
    simp only [Choir.setPred, if_neg hi, Choir.pred, if_neg hj, dget_dset_ne _ _ _ hji]

/-! ### Poison of operands -/

theorem foldl_poison (g : Nat → Nat × Bool) (r n a : Nat) (acc : Nat × Bool) :
    ((rangeFrom a n).foldl (fun acc i => (acc.1 + (g (r + i)).1 * 2 ^ (32 * i), acc.2 || (g (r + i)).2)) acc).2 =
      (acc.2 || (rangeFrom a n).any fun i => (g (r + i)).2) := by
  induction n generalizing a acc with
  | zero => simp [rangeFrom]
  | succ n ih => simp only [rangeFrom, List.foldl_cons, ih, List.any_cons, Bool.or_assoc]

theorem rangeFrom_eq_range' (a n : Nat) : rangeFrom a n = List.range' a n := by
  induction n generalizing a with
  | zero => rfl
  | succ n ih => rw [rangeFrom, ih, List.range'_succ]

theorem rangeFrom_zero (n : Nat) : rangeFrom 0 n = List.range n := by
  rw [rangeFrom_eq_range', List.range_eq_range']

/-- A value read from `n` registers is poisoned where one of them is. -/
theorem vwide_dirtyOf (h : Choir) (r v n : Nat) : (h.vwide r v n).2 = dirtyOf (fun i => (h.vget i v).2) r n := by
  have := foldl_poison (fun i => h.vget i v) r n 0 (0, false)
  rw [rangeFrom_zero] at this
  simpa [Choir.vwide, dirtyOf, rangeFrom_zero] using this

theorem uwide_dirtyOf (h : Choir) (r n : Nat) : (h.uwide r n).2 = dirtyOf (fun i => (h.uget i).2) r n := by
  have := foldl_poison (fun i => h.uget i) r n 0 (0, false)
  rw [rangeFrom_zero] at this
  simpa [Choir.uwide, dirtyOf, rangeFrom_zero] using this

/-- Operand A with its poison. -/
theorem opA_srcAP (s : Spec) (x : Ctx) (n v : Nat) (hs : s.a.parts = n) (ha : s.a ≠ .no) : opA s x.h x.w v = srcAP x n v := by
  refine Prod.ext (opA_srcA s x n v hs ha) ?_
  unfold opA srcAP
  rw [if_neg ha, hs]
  split
  · rw [uwide_dirtyOf]
  · rw [vwide_dirtyOf]

/-- Operand B with its poison; an immediate has none. -/
theorem opB_srcBP (s : Spec) (x : Ctx) (n v : Nat) (hs : s.b.parts = n) (hb : s.b ≠ .no) (hn : 1 ≤ n) :
    opB s x.h x.w v = srcBP x n v := by
  refine Prod.ext (opB_srcB s x n v hs hb hn) ?_
  unfold opB srcBP
  rw [if_neg hb, hs]
  cases iBi x.w with
  | true => rfl
  | false =>
    simp only [Bool.false_eq_true, if_false, Bool.not_false, Bool.true_and]
    split
    · rw [uwide_dirtyOf]
    · rw [vwide_dirtyOf]

/-! ### What an instruction that issues writes -/

/-- A register result that fits its registers is written as it stands. -/
theorem voiceOp_writes_fit {d : Dev} {s : Spec} {x : Ctx} {f : Nat → VRes1} {n : Nat} (val : Nat → Nat × Bool)
    (hx : x.h = (d.core x.n).choir x.slot) (hs : s.d.parts = n) (hv : ∀ v, ((f v).val, (f v).poison) = val v)
    (hlt : ∀ v, (val v).1 < 2 ^ (32 * n)) :
    Writes d x n val (orVoices x fun v => (f v).flags) (d.voiceOp s x f) :=
  Writes_congr (voiceOp_writes d s x f n hx hs) fun v => by
    have h := hlt v
    rw [← hv v] at h
    rw [Nat.mod_eq_of_lt h, hv v]

/-- The same of a result without flags. -/
theorem voiceOp_writes_plain {d : Dev} {s : Spec} {x : Ctx} {f : Nat → VRes1} {n : Nat} (val : Nat → Nat × Bool)
    (hx : x.h = (d.core x.n).choir x.slot) (hs : s.d.parts = n) (hfl : ∀ v, (f v).flags = 0)
    (hv : ∀ v, ((f v).val, (f v).poison) = val v) (hlt : ∀ v, (val v).1 < 2 ^ (32 * n)) :
    Writes d x n val 0 (d.voiceOp s x f) := by
  have h := voiceOp_writes_fit val hx hs hv hlt
  rwa [funext hfl, orVoices_zero] at h

@[simp] theorem setPred_pc (h : Choir) (i m vals : Nat) : (h.setPred i m vals).pc = h.pc := by unfold Choir.setPred; split <;> rfl
@[simp] theorem setPred_flags (h : Choir) (i m vals : Nat) : (h.setPred i m vals).flags = h.flags := by
  unfold Choir.setPred; split <;> rfl

/-- A predicate write keeps the path, the registers and the flags of a choir. -/
theorem setPred_keeps (h : Choir) (i m vals : Nat) :
    sameFlow h (h.setPred i m vals) ∧ sameV h (h.setPred i m vals) ∧ sameU h (h.setPred i m vals) := by
  unfold Choir.setPred
  split
  · exact ⟨⟨rfl, rfl, rfl, rfl, rfl, rfl, rfl⟩, fun _ _ => rfl, fun _ => rfl⟩
  · exact ⟨⟨rfl, rfl, rfl, rfl, rfl, rfl, rfl⟩, fun _ _ => rfl, fun _ => rfl⟩

/-- The voices for which an instruction's answer is true, as a mask. -/
theorem bit_answers (ex : Nat) (f : Nat → Bool × Nat) (v : Nat) :
    bit (maskOf ((((voicesOf ex).map fun v => (v, f v)).filter fun r => r.2.1).map (·.1))) v = (decide (v ∈ voicesOf ex) && (f v).1) := by
  rw [bit_maskOf, Bool.eq_iff_iff]
  simp

/-- A predicate instruction writes its answers and merges its flags. -/
theorem predOp_writes (d : Dev) (x : Ctx) (f : Nat → Bool × Nat) (hx : x.h = (d.core x.n).choir x.slot) :
    WritesPred d x (fun v => (f v).1) ((voicesOf x.ex).foldl (fun a v => a ||| (f v).2) 0) (d.predOp x f) := by
  unfold Dev.predOp Dev.advance
  rw [onChoir_onChoir, onChoir_const, ← hx]
  obtain ⟨hflow, hv, hu⟩ := setPred_keeps x.h (iDst x.w) x.ex
    (maskOf ((((voicesOf x.ex).map fun v => (v, f v)).filter fun r => r.2.1).map (·.1)))
  refine ⟨_, rfl, ?_, ?_, hflow, hv, hu, ?_⟩
  · simp
  · simp [foldl_congr_map]
  · intro i v hv32
    refine (bit_pred_setPred x.h (iDst x.w) x.ex _ i hv32).trans ?_
    rw [bit_answers]
    simp only [mem_voicesOf, hv32, true_and]
    cases bit x.ex v <;> simp

theorem foldl_or_zero (l : List Nat) : l.foldl (fun a _ => a ||| 0) 0 = 0 := by
  induction l with
  | nil => rfl
  | cons _ l ih => exact ih

/-- The same of answers without flags. -/
theorem predOp_writes_plain (d : Dev) (x : Ctx) (f : Nat → Bool) (hx : x.h = (d.core x.n).choir x.slot) :
    WritesPred d x f 0 (d.predOp x fun v => (f v, 0)) := by
  have h := predOp_writes d x (fun v => (f v, 0)) hx
  rwa [foldl_or_zero] at h

end Sys2Proof.Machine
end

section
/-! The values that the move and predicate instructions write: conversions fit their format, comparisons order words, and the source
voice of VPERM. -/

namespace Sys2Proof.Machine

open Sys2Proof.Claims

/-! ### Results of a conversion fit their format -/

theorem ofSigned_lt (n : Nat) (z : Int) : ofSigned n z < 2 ^ n := by
  have hp : (0 : Int) < ((2 ^ n : Nat) : Int) := by exact_mod_cast Nat.two_pow_pos n
  have h1 := Int.emod_lt_of_pos z hp
  have h0 := Int.emod_nonneg z hp.ne'
  unfold ofSigned
  omega

/-- The largest finite value, the NaN and, but for E2M1, the infinities are patterns of their format (Table 5.1). -/
theorem fmt_constants_lt : ∀ f < 12, ∀ neg, signBit f neg + fmtMax f < 2 ^ fmtWidth f ∧ fmtNan f < 2 ^ fmtWidth f ∧
    (f ≠ 10 → fpInf f neg < 2 ^ fmtWidth f) := by
  decide

theorem fpOverflow_lt {f : Nat} (hf : f < 12) (rm : Nat) (sat neg : Bool) : (fpOverflow f rm sat neg).bits < 2 ^ fmtWidth f := by
  obtain ⟨hmax, hnan, hinf⟩ := fmt_constants_lt f hf neg
  unfold fpOverflow
  dsimp only
  split
  · exact hmax
  split
  · split
    · exact hmax
    · exact hnan
  split
  · rename_i hne _ _
    exact hinf hne
  · exact hmax

theorem fpRound_lt {f : Nat} (hf : f < 12) (rm : Nat) (sat ftz neg : Bool) (m : Nat) (e : Int) :
    (fpRound f rm sat ftz neg m e).bits < 2 ^ fmtWidth f := by
  obtain ⟨hmax, -, -⟩ := fmt_constants_lt f hf neg
  unfold fpRound
  dsimp only
  split
  · dsimp only; omega
  split
  · dsimp only; omega
  split
  · exact fpOverflow_lt hf rm sat neg
  · dsimp only; omega

theorem intClamp_lt (f : Nat) (z : Int) (nx : Bool) : (intClamp f z nx).bits < 2 ^ fmtWidth f := by
  unfold intClamp
  dsimp only
  split
  · exact ofSigned_lt _ _
  split
  · exact ofSigned_lt _ _
  · exact ofSigned_lt _ _

theorem cvtToInt_lt (src dst rm x : Nat) : (cvtToInt src dst rm x).bits < 2 ^ fmtWidth dst := by
  unfold cvtToInt
  split
  · exact Nat.two_pow_pos _
  · exact ofSigned_lt _ _
  · exact intClamp_lt _ _ _

theorem cvtFp_lt {dst : Nat} (hd : dst < 12) (src rm : Nat) (sat ftz : Bool) (x : Nat) :
    (cvtFp src dst rm sat ftz x).bits < 2 ^ fmtWidth dst := by
  unfold cvtFp
  split
  · split
    · exact Nat.two_pow_pos _
    · exact (fmt_constants_lt dst hd false).2.1
  · rename_i n _
    obtain ⟨hmax, hnan, hinf⟩ := fmt_constants_lt dst hd n
    split
    · next h => subst h; exact hmax
    · next h10 =>
      split
      · next h =>
        subst h
        split
        · exact hmax
        · exact hnan
      · exact hinf h10
  · split
    · exact Nat.mod_lt _ (Nat.two_pow_pos _)
    · exact fpRound_lt hd _ _ _ _ _ _

/-- A conversion gives a pattern of its destination format. -/
theorem cvt_lt {dst : Nat} (hd : dst < 12) (src rm : Nat) (sat ftz : Bool) (x : Nat) :
    (cvt src dst rm sat ftz x).bits < 2 ^ fmtWidth dst := by
  unfold cvt
  split
  · exact intClamp_lt _ _ _
  · exact fpRound_lt hd _ _ _ _ _ _
  · exact cvtToInt_lt _ _ _ _
  · exact cvtFp_lt hd _ _ _ _ _

/-- The registers a format takes: a pair for 64 bits, else one. -/
theorem cdiv_fmtWidth : ∀ f < 12, cdiv (fmtWidth f) 32 = (if 32 < fmtWidth f then 2 else 1) ∧
    fmtWidth f ≤ 32 * (if 32 < fmtWidth f then 2 else 1) := by
  decide

/-! ### Comparisons of words -/

/-- The integer a word stands for, signed or not. -/
def wordValue {n : Nat} (signed : Bool) (a : BitVec n) : Int := if signed then a.toInt else a.toNat

theorem toSigned_eq_toInt (n x : Nat) : toSigned n x = (BitVec.ofNat n x).toInt := by
  unfold toSigned BitVec.toInt
  rw [BitVec.toNat_ofNat]

theorem intOrder_eq (signed : Bool) (n x y : Nat) :
    intOrder signed n x y = wordValue signed (BitVec.ofNat n x) - wordValue signed (BitVec.ofNat n y) := by
  cases signed with
  | true => simp only [intOrder, wordValue, if_true, toSigned_eq_toInt]
  | false => simp only [intOrder, wordValue, Bool.false_eq_true, if_false, BitVec.toNat_ofNat]

theorem before_eq {n : Nat} (signed : Bool) (a b : BitVec n) :
    before n signed a b = decide (wordValue signed a ≤ wordValue signed b) := by
  cases signed with
  | true => simp only [before, wordValue, if_true, BitVec.sle_eq_decide]
  | false => simp only [before, wordValue, Bool.false_eq_true, if_false, BitVec.ule_eq_decide, Int.ofNat_le]

theorem wordValue_inj {n : Nat} (signed : Bool) (a b : BitVec n) : wordValue signed a = wordValue signed b ↔ a = b := by
  cases signed with
  | true => simp only [wordValue, if_true, BitVec.toInt_inj]
  | false => simp only [wordValue, Bool.false_eq_true, if_false, Int.ofNat_inj, BitVec.toNat_inj]

/-- The order of two patterns compares the words they are. -/
theorem cmpOrder_intOrder {c : Nat} (hc : c < 6) (signed : Bool) (n x y : Nat) :
    cmpOrder c (intOrder signed n x y) = wordCmp n c signed (BitVec.ofNat n x) (BitVec.ofNat n y) := by
  rw [intOrder_eq]
  generalize BitVec.ofNat n x = a
  generalize BitVec.ofNat n y = b
  have heq : wordValue signed a - wordValue signed b = 0 ↔ a = b := by rw [sub_eq_zero, wordValue_inj]
  interval_cases c
  · simp only [cmpOrder, wordCmp, heq]; rfl
  · simp only [cmpOrder, wordCmp, ne_eq, heq, bne, decide_not]; rfl
  · simp only [cmpOrder, wordCmp, before_eq, sub_neg, ← decide_not, not_le]
  · simp only [cmpOrder, wordCmp, before_eq, sub_nonpos]
  · simp only [cmpOrder, wordCmp, before_eq, sub_pos, ← decide_not, not_le]
  · simp only [cmpOrder, wordCmp, before_eq, sub_nonneg]

theorem combine_withC (x : Ctx) (v : Nat) (r : Bool) :
    combine (bits (iMod x.w) 6 2) r (bit (x.h.pred (iSc x.w)) v) = withC x v r := by
  unfold withC
  generalize bits (iMod x.w) 6 2 = k
  match k with
  | 0 => rfl
  | 1 => rfl
  | 2 => rfl
  | k + 3 => simp [combine]

/-! ### The source voice of VPERM -/

theorem permSource_eq (mode v b : Nat) : permSource mode v b = permFrom mode v b := by
  unfold permSource permFrom
  simp only [toSigned_eq_toInt]
  split <;> simp

end Sys2Proof.Machine
end

section
/-! CVT, SEL, MOV, VPERM and the instructions that write a predicate, one lemma each, and O7. -/

namespace Sys2Proof.Machine

open Sys2Proof.Claims

/-! ### Legal words and operands -/

/-- The other encodings of a legal word are legal. -/
theorem ok_of_insLegal {s : Spec} {w : Nat} (h : insLegal s w = true) : s.ok = true := by
  simp only [insLegal, Bool.and_eq_true] at h
  simp only [h]

/-- A legal CVT names two formats. -/
theorem formats_of_legal_cvt {w : Nat} (h : insLegal (specCvt w) w = true) : bits (iMod w) 0 4 < 12 ∧ bits (iMod w) 4 4 < 12 := by
  have hok := ok_of_insLegal h
  simp only [specCvt, Bool.and_eq_true, decide_eq_true_eq] at hok
  exact hok.1

/-- A legal ISETP names one of the six integer comparisons. -/
theorem comparison_of_legal_isetp {w : Nat} (h : insLegal (specSetp 0 w) w = true) : bits (iMod w) 0 4 < 6 := by
  have hok := ok_of_insLegal h
  simp only [specSetp, Bool.and_eq_true] at hok
  simpa using hok.1.2

theorem srcAP_lt (x : Ctx) (n v : Nat) : (srcAP x n v).1 < 2 ^ (32 * n) := srcA_lt x n v

theorem srcBP_lt (x : Ctx) (n v : Nat) (hn : 1 ≤ n) : (srcBP x n v).1 < 2 ^ (32 * n) := srcB_lt x n v hn

theorem srcBP_imm {x : Ctx} (h : iBi x.w = true) (v : Nat) : srcBP x 1 v = (iImm x.w, false) := by
  simp [srcBP, srcB, h]

/-! ### CVT, SEL, MOV and VPERM -/

section
variable {s : State} {c : ChoirRef} {e : HwErr} {d : Dev} {x : Ctx}

/-- The result of CVT, with its flags. -/
def cvtResult (x : Ctx) (v : Nat) : FRes :=
  cvt (bits (iMod x.w) 0 4) (bits (iMod x.w) 4 4) (fpRm x (bits (iMod x.w) 8 3)) (bit x.h.fpctl 3) (fpFtz x)
    (srcA x (if 32 < fmtWidth (bits (iMod x.w) 0 4) then 2 else 1) v)

theorem cvt_writes (h : Issues s c e 0x30 specCvt d x) : ∃ d', acts (.cvt c e) s c d' ∧
    Writes d x (if 32 < fmtWidth (bits (iMod x.w) 4 4) then 2 else 1) (fun v => ((cvtResult x v).bits, false))
      (orVoices x fun v => (cvtResult x v).flags) d' := by
  obtain ⟨hsrc, hdst⟩ := formats_of_legal_cvt h.legal
  have ha : ∀ v, (opA (specCvt x.w) x.h x.w v).1 = srcA x (if 32 < fmtWidth (bits (iMod x.w) 0 4) then 2 else 1) v :=
    fun v => opA_srcA _ x _ v (cdiv_fmtWidth _ hsrc).1 (by simp [specCvt])
  refine ⟨_, nave_issues h _, ?_⟩
  simp only [ha]
  exact voiceOp_writes_fit (f := fun v => ⟨(cvtResult x v).bits, (cvtResult x v).flags, false⟩) _ (issues_choir h)
    (cdiv_fmtWidth _ hdst).1 (fun _ => rfl) fun v =>
      (cvt_lt hdst _ _ _ _ _).trans_le (Nat.pow_le_pow_right (by decide) (cdiv_fmtWidth _ hdst).2)

theorem sel_writes (h : Issues s c e 0x0F specSel d x) : ∃ d', acts (.sel c e) s c d' ∧ Writes d x (intParts x)
    (fun v => if bit (x.h.pred (iSc x.w)) v then srcAP x (intParts x) v else srcBP x (intParts x) v) 0 d' := by
  have hn : 1 ≤ intParts x := by rcases intParts_cases x with h | h <;> omega
  have ha : ∀ v, opA (specSel x.w) x.h x.w v = srcAP x (intParts x) v := fun v => opA_srcAP _ x _ v rfl (by simp [specSel])
  have hb : ∀ v, opB (specSel x.w) x.h x.w v = srcBP x (intParts x) v := fun v => opB_srcBP _ x _ v rfl (by simp [specSel]) hn
  refine ⟨_, nave_issues h _, ?_⟩
  refine voiceOp_writes_plain _ (issues_choir h) rfl (fun _ => rfl) (fun v => ?_) fun v => ?_
  · rw [ha, hb]
  · split
    · exact srcAP_lt x _ v
    · exact srcBP_lt x _ v hn

theorem mov_writes (h : Issues s c e 0xC2 specMov d x) : ∃ d', acts (.mov c e) s c d' ∧
    Writes d x 1 (fun v => if iBi x.w then (iImm x.w, false) else srcAP x 1 v) 0 d' := by
  refine ⟨_, nave_issues h _, ?_⟩
  by_cases hbi : iBi x.w = true
  · have hs : specMov x.w = { d := .reg 1, b := .reg 1, eatB := false } := if_pos hbi
    refine voiceOp_writes_plain _ (issues_choir h) (show (specMov x.w).d.parts = 1 by rw [hs]; rfl) (fun _ => rfl) (fun v => ?_)
      fun v => ?_
    · rw [if_pos hbi, if_pos hbi, hs, opB_srcBP _ x 1 v rfl (by simp) le_rfl, srcBP_imm hbi]
    · rw [if_pos hbi]; exact iImm_lt _
  · have hs : specMov x.w = { d := .reg 1, a := .reg 1, eatA := false } := if_neg hbi
    refine voiceOp_writes_plain _ (issues_choir h) (show (specMov x.w).d.parts = 1 by rw [hs]; rfl) (fun _ => rfl) (fun v => ?_)
      fun v => ?_
    · rw [if_neg hbi, if_neg hbi, hs, opA_srcAP _ x 1 v rfl (by simp)]
    · rw [if_neg hbi]; exact srcAP_lt x 1 v

theorem vperm_writes (h : Issues s c e 0xE0 specVperm d x) : ∃ d', acts (.vperm c e) s c d' ∧
    Writes d x 1 (fun v => (srcA x 1 (permFrom (iMod x.w) v (srcB x 1 v)),
      (srcAP x 1 (permFrom (iMod x.w) v (srcB x 1 v))).2 || (srcBP x 1 v).2)) 0 d' := by
  have ha : ∀ v, opA (specVperm x.w) x.h x.w v = srcAP x 1 v := fun v => opA_srcAP _ x 1 v rfl (by simp [specVperm])
  have hb : ∀ v, opB (specVperm x.w) x.h x.w v = srcBP x 1 v := fun v => opB_srcBP _ x 1 v rfl (by simp [specVperm]) le_rfl
  refine ⟨_, nave_issues h _, ?_⟩
  refine voiceOp_writes_plain _ (issues_choir h) rfl (fun _ => rfl) (fun v => ?_) fun v => ?_
  · simp only [ha, hb, permSource_eq]
    rfl
  · exact srcA_lt x 1 _

end

theorem convertSelectAndMove : ConvertSelectAndMove :=
  ⟨fun _ _ _ _ _ => cvt_writes, fun _ _ _ _ _ => sel_writes, fun _ _ _ _ _ => mov_writes, fun _ _ _ _ _ => vperm_writes⟩

/-! ### ISETP, FSETP, DSETP, PLOP and VOTE -/

/-- An instruction that answers per voice writes its predicate. -/
theorem predResult_of_predOp {cmd : ChoirRef → HwErr → Instr} {opc : Nat} {sp : Nat → Spec} {val : Ctx → Nat → Bool × Nat}
    (f : Ctx → Nat → Bool × Nat) (hexec : ∀ c e s, exec (cmd c e) s = s.nave c e opc sp fun d x => d.predOp x (f x))
    (hf : ∀ s c e d x, Issues s c e opc sp d x → ∀ v, f x v = val x v) : PredResult cmd opc sp val := by
  intro s c e d x h
  refine ⟨_, (hexec c e s).trans (nave_issues h _), ?_⟩
  rw [funext (hf s c e d x h)]
  exact predOp_writes d x _ (issues_choir h)

theorem specSetp_parts_int (x : Ctx) : (specSetp 0 x.w).a = .reg (setpParts x) ∧ (specSetp 0 x.w).b = .reg (setpParts x) := by
  simp [specSetp, setpParts]

theorem setpParts_pos (x : Ctx) : 1 ≤ setpParts x := by unfold setpParts; split <;> decide

theorem isetp_writes : PredResult .isetp 0x40 (specSetp 0) fun x v =>
    (withC x v (wordCmp (32 * setpParts x) (bits (iMod x.w) 0 4) (bit (iMod x.w) 4)
      (BitVec.ofNat _ (srcA x (setpParts x) v)) (BitVec.ofNat _ (srcB x (setpParts x) v))), 0) := by
  refine predResult_of_predOp _ (fun _ _ _ => rfl) fun s c e d x h v => ?_
  obtain ⟨ha, hb⟩ := specSetp_parts_int x
  dsimp only
  rw [opA_srcA _ x (setpParts x) v (by rw [ha]; rfl) (by simp [ha]),
    opB_srcB _ x (setpParts x) v (by rw [hb]; rfl) (by simp [hb]) (setpParts_pos x), ha,
    cmpOrder_intOrder (comparison_of_legal_isetp h.legal), combine_withC]
  rfl

theorem fsetp_writes : PredResult .fsetp 0x41 (specSetp 1) fun x v =>
    let f := 5 + bits (iMod x.w) 8 2
    let r := fpCompare f (bits (iMod x.w) 0 4) (fpFtz x) (srcA x 1 v % 2 ^ fmtWidth f) (srcB x 1 v % 2 ^ fmtWidth f)
    (withC x v r.1, r.2) := by
  refine predResult_of_predOp _ (fun _ _ _ => rfl) fun s c e d x h v => ?_
  dsimp only
  rw [opA_srcA _ x 1 v rfl (by simp [specSetp]), opB_srcB _ x 1 v rfl (by simp [specSetp]) le_rfl, combine_withC]
  rfl

/-- Operand B of an FP64 instruction (R115). -/
theorem opBD_eq (s : Spec) (x : Ctx) (v : Nat) (hs : s.b.parts = 2) (hb : s.b ≠ .no) :
    opBD s x v = if iBi x.w then widen32 (iImm x.w) else srcB x 2 v := by
  unfold opBD
  rw [opB_srcB s x 2 v hs hb (by decide)]

theorem dsetp_writes : PredResult .dsetp 0x42 (specSetp 2) fun x v =>
    let r := fpCompare 4 (bits (iMod x.w) 0 4) false (srcA x 2 v) (if iBi x.w then widen32 (iImm x.w) else srcB x 2 v)
    (withC x v r.1, r.2) := by
  refine predResult_of_predOp _ (fun _ _ _ => rfl) fun s c e d x h v => ?_
  dsimp only
  rw [opA_srcA _ x 2 v rfl (by simp [specSetp]), opBD_eq _ x v rfl (by simp [specSetp]), combine_withC]

theorem plop_writes : PredResult .plop 0x43 specPlop fun x v =>
    (plop (iMod x.w % 4) (bit (x.h.pred (iSa x.w)) v) (bit (x.h.pred (iSb x.w)) v), 0) :=
  predResult_of_predOp _ (fun _ _ _ => rfl) fun _ _ _ _ _ _ _ => rfl

/-- A write of one uniform register is the only change of a uniform instruction. -/
theorem uset_writes {d : Dev} {x : Ctx} (val : Nat) (hx : x.h = (d.core x.n).choir x.slot) (hu : iDu x.w = true)
    (hlt : val < 2 ^ 32) :
    Writes d x 1 (fun _ => (val, false)) 0 ((d.onChoir x.n x.slot fun h => h.uset (iDst x.w) val false).advance x) := by
  unfold Dev.advance
  rw [onChoir_onChoir, onChoir_const, ← hx]
  refine ⟨_, rfl, rfl, (Nat.or_zero _).symm, ⟨rfl, rfl, rfl, rfl, rfl, rfl, rfl⟩, fun _ => rfl, ?_⟩
  have hget : ∀ r, Choir.uget { x.h.uset (iDst x.w) val false with pc := (x.h.uset (iDst x.w) val false).pc + 16 } r =
      if r = iDst x.w then (val, false) else x.h.uget r := fun r =>
    (uget_uset x.h (iDst x.w) val false r).trans (by rw [Nat.mod_eq_of_lt hlt])
  rw [if_pos hu]
  refine ⟨fun _ _ => rfl, ?_, fun i hi => ?_, fun r hr => ?_⟩
  · simp [partsOf, hget]
  · rw [hget, if_pos (by omega)]
  · rw [hget, if_neg (by omega)]

/-- The voices that execute an instruction are a word. -/
theorem ex_lt {s : State} {c : ChoirRef} {e : HwErr} {opc : Nat} {sp : Nat → Spec} {d : Dev} {x : Ctx}
    (h : Issues s c e opc sp d x) : x.ex < 2 ^ 32 := by
  rw [h.voices]
  refine Nat.and_lt_two_pow _ ?_
  split
  · exact Nat.xor_lt_two_pow (pred_lt _ _) (by decide)
  · exact pred_lt _ _

/-- The answer of VOTE: any or all of the executing voices. -/
def voteAnswer (x : Ctx) : Bool := if iMod x.w = 0 then decide (voting x ≠ []) else decide (voting x = voicesOf x.ex)

theorem voting_eq (x : Ctx) : voting x = voicesOf (x.h.pred (iSa x.w) &&& x.ex) := filter_voicesOf _ _

/-- The voting voices as a mask answer as the list of them does. -/
theorem vote_eq {x : Ctx} (hex : x.ex < 2 ^ 32) :
    (if iMod x.w = 0 then decide (x.h.pred (iSa x.w) &&& x.ex ≠ 0) else decide (x.h.pred (iSa x.w) &&& x.ex = x.ex)) =
      voteAnswer x := by
  have ht : x.h.pred (iSa x.w) &&& x.ex < 2 ^ 32 := Nat.and_lt_two_pow _ hex
  unfold voteAnswer
  rw [voting_eq]
  split
  · simp only [ne_eq, voicesOf_eq_nil ht]
  · simp only [voicesOf_inj ht hex]

theorem vote_writes {s : State} {c : ChoirRef} {e : HwErr} {d : Dev} {x : Ctx} (h : Issues s c e 0x44 specVote d x) :
    ∃ d', acts (.vote c e) s c d' ∧
      if iDu x.w then Writes d x 1 (fun _ => (if iMod x.w = 2 then maskOf (voting x) else if voteAnswer x then 1 else 0, false)) 0 d'
      else WritesPred d x (fun _ => voteAnswer x) 0 d' := by
  have hex := ex_lt h
  have ht : x.h.pred (iSa x.w) &&& x.ex < 2 ^ 32 := Nat.and_lt_two_pow _ hex
  refine ⟨_, nave_issues h _, ?_⟩
  dsimp only
  rw [vote_eq hex]
  cases hu : iDu x.w with
  | true =>
    simp only [if_true]
    rw [voting_eq, maskOf_voicesOf ht]
    refine uset_writes _ (issues_choir h) hu ?_
    split
    · exact ht
    · split <;> decide
  | false =>
    simp only [Bool.false_eq_true, if_false]
    exact predOp_writes_plain d x (fun _ => voteAnswer x) (issues_choir h)

theorem predicateInstructionsWrite : PredicateInstructionsWrite :=
  ⟨isetp_writes, fsetp_writes, dsetp_writes, plop_writes, fun _ _ _ _ _ => vote_writes⟩

/-- Settles O7: each of these instructions that issues is one register write (`voiceOp_writes_fit`) or one predicate write
(`predOp_writes`) of the value that Tables 3.4 and 3.5 give. -/
theorem movesAndPredicatesAreWritten : Obligations.MovesAndPredicatesAreWritten :=
  ⟨convertSelectAndMove, predicateInstructionsWrite⟩

end Sys2Proof.Machine
end

section
/-! What raising a cause makes of a core, and the part of a core that belongs to the matrix unit: the steps that release choirs, fold
signatures and write LM keep it. -/

namespace Sys2Proof.Machine

open Sys2Proof.Claims

/-! ### Raising a cause -/

@[simp] theorem core_setClock (d : Dev) (n : Nat) (k : Option Clock) (m : Nat) : (d.setClock n k).core m = d.core m := rfl

/-- An exception that stands alone in its core clock and carries no fault record is the one kept (R144). -/
theorem resolveExc_alone (e : Nat × Exc) (h : e.2.recs = []) : resolveExc [e] = some e.2 := by
  have hb : e.2.batch = false := by simp [Exc.batch, h]
  unfold resolveExc
  cases hf : e.2.forbids <;> simp [hf, hb]

/-- A cause without fault records, raised on a core whose task has no exception yet, is the exception the core keeps. -/
theorem coreExc_fails (d : Dev) (n : Nat) (y : Exc) (ht : (d.core n).task.isSome = true) (he : (d.core n).exc = none)
    (hr : y.recs = []) : CoreFails d n y (d.coreExc n y) := by
  have htask : (d.core n).task.isNone = false := by simpa using ht
  unfold Dev.coreExc Dev.coreExcAt
  simp only [htask, he, Option.isSome_none, Bool.false_eq_true, if_false, Bool.false_and, List.map_nil, insertStall,
    resolveExc_alone (y.slot % 4, y) hr]
  cases hk : d.clockOf n with
  | none => exact ⟨core_setCore_same _ _ _, fun m hm => by simp [core_setCore, hm], rfl, fun _ => rfl⟩
  | some k => exact ⟨core_setCore_same _ _ _, fun m hm => by simp [core_setCore, hm], rfl, fun h => by rw [hk] at h; cases h⟩

/-- A cause of an instruction is raised with its operand as the information of the exception. -/
theorem insExc_raises (d : Dev) (x : Ctx) (cause mask addr : Nat) : RaisesExc d x cause mask 0 addr (d.insExc x cause mask addr) :=
  fun he ht => coreExc_fails d x.n _ ht he rfl

/-! ### The part of a core that belongs to the matrix unit -/

/-- The matrix unit's queue, tokens, summaries and tiles, and the task they belong to. -/
def Core.matPart (c : Core) : List MatInstr × Nat × Nat × List (Nat × Nat) × List (Nat × Tile) × Option TaskRun :=
  (c.mmq, c.mmIssued, c.mmDone, c.mmFlags, c.tiles, c.task)

theorem matPart_inj {c c' : Core} (h : c.matPart = c'.matPart) : c.mmq = c'.mmq ∧ c.mmIssued = c'.mmIssued ∧ c.mmDone = c'.mmDone ∧
    c.mmFlags = c'.mmFlags ∧ c.tiles = c'.tiles ∧ c.task = c'.task := by
  simpa [Core.matPart] using h

/-- Between two devices only the nave differs, and the matrix unit of every core is as it was. -/
structure KeepsMat (d d' : Dev) : Prop where
  rest : { d' with nave := d.nave } = d
  part : ∀ m, (d'.core m).matPart = (d.core m).matPart

namespace KeepsMat

theorem refl (d : Dev) : KeepsMat d d := ⟨rfl, fun _ => rfl⟩

theorem trans {d e f : Dev} (h : KeepsMat d e) (g : KeepsMat e f) : KeepsMat d f := by
  refine ⟨?_, fun m => (g.part m).trans (h.part m)⟩
  calc { f with nave := d.nave } = { ({ f with nave := e.nave } : Dev) with nave := d.nave } := rfl
    _ = { e with nave := d.nave } := by rw [g.rest]
    _ = d := h.rest

theorem ite {p : Prop} [Decidable p] {d e f : Dev} (h : KeepsMat d e) (g : KeepsMat d f) : KeepsMat d (if p then e else f) := by
  split
  · exact h
  · exact g

/-- Steps that keep it, one after another, keep it. -/
theorem foldl {α : Type} (f : Dev → α → Dev) (hf : ∀ d a, KeepsMat d (f d a)) (l : List α) (d : Dev) : KeepsMat d (l.foldl f d) := by
  induction l generalizing d with
  | nil => exact refl d
  | cons a l ih => exact (hf d a).trans (ih _)

theorem setCore (d : Dev) (n : Nat) (c : Core) (hc : c.matPart = (d.core n).matPart) : KeepsMat d (d.setCore n c) := by
  refine ⟨rfl, fun m => ?_⟩
  rw [core_setCore]
  split
  · next h => rw [h, hc]
  · rfl

theorem onCore (d : Dev) (n : Nat) (f : Core → Core) (hf : ∀ c, (f c).matPart = c.matPart) : KeepsMat d (d.onCore n f) :=
  setCore d n _ (hf _)

theorem onChoir (d : Dev) (n slot : Nat) (f : Choir → Choir) : KeepsMat d (d.onChoir n slot f) := onCore d n _ fun _ => rfl

theorem setClock (d : Dev) (n : Nat) (k : Option Clock) : KeepsMat d (d.setClock n k) := ⟨rfl, fun _ => rfl⟩

theorem coreExcAt (d : Dev) (n stall : Nat) (e : Exc) : KeepsMat d (d.coreExcAt n stall e) := by
  unfold Dev.coreExcAt
  dsimp only
  refine ite (refl d) ?_
  split
  · refine ite (refl d) ?_
    exact setCore d n _ rfl
  · refine ite (refl d) (trans ?_ (setCore _ n _ rfl))
    exact setClock d n _

theorem wakeChoir (d : Dev) (n slot : Nat) : KeepsMat d (d.wakeChoir n slot) := by
  unfold Dev.wakeChoir
  dsimp only
  refine ite (refl d) ?_
  split
  · exact onChoir d n slot _
  · exact ite (coreExcAt d n _ _) (onChoir d n slot _)
  · exact onChoir d n slot _

theorem wake (d : Dev) (n : Nat) : KeepsMat d (d.wake n) := by
  unfold Dev.wake
  exact ite (refl d) (foldl _ (fun d m => foldl _ (fun d (e : Nat × Choir) => wakeChoir d m e.1) _ d) _ d)

theorem setSig (d : Dev) (n s : Nat) : KeepsMat d (d.setSig n s) := by
  unfold Dev.setSig
  split
  · exact onCore d n _ fun _ => rfl
  · refine trans ?_ (onCore _ (n - 1) _ fun _ => rfl)
    exact onCore d n _ fun _ => rfl
  · exact refl d

theorem fold (d : Dev) (n space a len x : Nat) : KeepsMat d (d.fold n space a len x) := by
  unfold Dev.fold
  exact ite (refl d) (setSig d n _)

theorem noteWriter (d : Dev) (core a n who : Nat) : KeepsMat d (d.noteWriter core a n who) := by
  refine foldl _ (fun d w => ite ?_ (refl d)) _ d
  exact onCore d core _ fun _ => rfl

theorem lmWrite (d : Dev) (core a n x : Nat) (poison : Bool) (who : Nat) : KeepsMat d (d.lmWrite core a n x poison who) := by
  unfold Dev.lmWrite Dev.lmSet
  refine trans (trans (noteWriter d core a n who) ?_) (wake _ core)
  exact onCore _ core _ fun _ => rfl

theorem matRowPut (d : Dev) (n : Nat) (r : Nat × Nat × Nat × List Bool) : KeepsMat d (d.matRowPut n r) := by
  unfold Dev.matRowPut
  refine trans ?_ (onCore _ n _ fun _ => rfl)
  exact (fold d n 0 _ _ _).trans (lmWrite _ n _ _ _ false 0)

theorem mem {d d' : Dev} (h : KeepsMat d d') : d'.mem = d.mem := by rw [← h.rest]

theorem l2 {d d' : Dev} (h : KeepsMat d d') : d'.l2 = d.l2 := by rw [← h.rest]

end KeepsMat

end Sys2Proof.Machine
end

section
/-! MMA, MWAIT and MFLAGS: the tokens of the matrix unit. -/

namespace Sys2Proof.Machine

open Sys2Proof.Claims

/-- The fields of operand A of a legal word are legal. -/
theorem opA_legal {s : Spec} {w : Nat} (h : insLegal s w = true) : opLegal s.a (iSa w) (iAu w) false = true := by
  simp only [insLegal, Bool.and_eq_true] at h
  simp only [h]

/-- Operand A of a legal word whose operand A is one uniform register. -/
theorem opA_uni {s : Spec} {x : Ctx} (hs : s.a = .uni 1) (hl : insLegal s x.w = true) (v : Nat) :
    (opA s x.h x.w v).1 = (x.h.uget (iSa x.w)).1 := by
  have hu : iAu x.w = true := by
    have h := opA_legal hl
    simp only [hs, opLegal, Bool.and_eq_true] at h
    exact h.1.2
  rw [opA_srcA s x 1 v (by rw [hs]; rfl) (by simp [hs])]
  simp [srcA, partsOf, hu]

section
variable {s : State} {c : ChoirRef} {e : HwErr} {d : Dev} {x : Ctx}

/-- The choir of an instruction that issues, moved on and told to wait. -/
theorem advance_waits (h : x.h = (d.core x.n).choir x.slot) (w : Wait) :
    (d.advance x).onChoir x.n x.slot (fun h => { h with wait := w }) =
      d.onChoir x.n x.slot fun _ => { x.h with pc := x.h.pc + 16, wait := w } := by
  unfold Dev.advance
  rw [onChoir_onChoir, onChoir_const, ← h]

/-- The choir of an instruction that issues, moved on without a wait. -/
theorem advance_goes_on (h : x.h = (d.core x.n).choir x.slot) (hw : x.h.wait = .none) :
    d.advance x = d.onChoir x.n x.slot fun _ => { x.h with pc := x.h.pc + 16, wait := .none } := by
  unfold Dev.advance
  rw [onChoir_const, ← h, ← hw]

theorem mma_issues (h : Issues s c e 0xB0 specMma d x) (hq : (d.core x.n).mmq.length < 8) (ha : (x.h.uget (iSa x.w)).1 % 64 = 0)
    (hlm : (x.h.uget (iSa x.w)).1 < 0x80000) (ht : (d.core x.n).mmIssued + 1 < 2 ^ 32) :
    let k := d.core x.n
    let q := k.mmq ++ [⟨k.mmIssued + 1, x.slot, (x.h.uget (iSa x.w)).1, x.h.fpctl % 4, x.h.pc, x.ex,
      k.lmRead (x.h.uget (iSa x.w)).1 64, none, none⟩]
    ∃ d', acts (.mma c e) s c d' ∧
      Writes (Dev.oinc (d.setCore x.n { k with mmIssued := k.mmIssued + 1, mmq := q }) O.MMA_ISSUED) x 1
        (fun _ => (k.mmIssued + 1, false)) 0 d' := by
  refine ⟨_, nave_issues h _, ?_⟩
  dsimp only
  rw [opA_uni rfl h.legal, if_neg (by omega), if_neg (by omega), if_neg (show ¬ lmSize ≤ _ by unfold lmSize; omega)]
  refine voiceOp_writes_plain _ ?_ rfl (fun _ => rfl) (fun _ => rfl) fun _ => by simpa using ht
  refine (issues_choir h).trans ?_
  show _ = Core.choir (Dev.core (Dev.setCore d x.n _) x.n) x.slot
  rw [core_setCore_same]
  rfl

theorem mwait_waits (h : Issues s c e 0xB1 specMwait d x) :
    let t := (x.h.uget (iSa x.w)).1
    let h := { x.h with pc := x.h.pc + 16, wait := if t ≤ (d.core x.n).mmDone then Wait.none else .token t }
    (t ≤ (d.core x.n).mmIssued → acts (.mwait c e) s c (d.onChoir x.n x.slot fun _ => h)) ∧
    ((d.core x.n).mmIssued < t → ∃ d', acts (.mwait c e) s c d' ∧ RaisesExc d x 0x29 x.ex 0 t d') := by
  have hex : acts (.mwait c e) s c _ := nave_issues h _
  dsimp only at hex ⊢
  rw [opA_uni rfl h.legal] at hex
  refine ⟨fun ht => ?_, fun ht => ⟨_, hex, ?_⟩⟩
  · rw [if_neg (by omega)] at hex
    split at hex
    · next hd =>
      rw [if_pos hd, ← advance_goes_on (issues_choir h) h.free]
      exact hex
    · next hd =>
      rw [if_neg hd, ← advance_waits (issues_choir h)]
      exact hex
  · rw [if_pos ht]
    exact insExc_raises d x _ _ _

theorem mflags_writes (h : Issues s c e 0xB2 specMma d x) :
    let t := (x.h.uget (iSa x.w)).1
    (t ≤ (d.core x.n).mmIssued → t ≤ (d.core x.n).mmDone → ∃ d', acts (.mflags c e) s c d' ∧
      Writes d x 1 (fun _ => ((mget (d.core x.n).mmFlags t).getD (2 ^ 31) % 2 ^ 32, false)) 0 d') ∧
    (t ≤ (d.core x.n).mmIssued → (d.core x.n).mmDone < t →
      let h := { x.h with pc := x.h.pc + 16, wait := Wait.flags t (iDst x.w) }
      acts (.mflags c e) s c (d.onChoir x.n x.slot fun _ => h)) ∧
    ((d.core x.n).mmIssued < t → ∃ d', acts (.mflags c e) s c d' ∧ RaisesExc d x 0x29 x.ex 0 t d') := by
  have hex : acts (.mflags c e) s c _ := nave_issues h _
  dsimp only at hex ⊢
  rw [opA_uni rfl h.legal] at hex
  refine ⟨fun ht hd => ⟨_, hex, ?_⟩, fun ht hd => ?_, fun ht => ⟨_, hex, ?_⟩⟩
  · rw [if_neg (by omega), if_pos hd]
    have hw := voiceOp_writes d (specMma x.w) x (fun _ => { val := (d.core x.n).summary (x.h.uget (iSa x.w)).1 }) 1 (issues_choir h) rfl
    rwa [orVoices_zero] at hw
  · rwa [if_neg (by omega), if_neg (by omega), advance_waits (issues_choir h)] at hex
  · rw [if_pos ht]
    exact insExc_raises d x _ _ _

end

theorem matrixTokensAreIssuedInOrder : MatrixTokensAreIssuedInOrder :=
  ⟨fun _ _ _ _ _ => mma_issues, fun _ _ _ _ _ => mwait_waits, fun _ _ _ _ _ => mflags_writes⟩

end Sys2Proof.Machine
end

section
/-! MMA_DECODE, MMA_GANG_START and MMA_COMPLETE: what the matrix unit makes of its queue, and O17. -/

namespace Sys2Proof.Machine

open Sys2Proof.Claims

/-! ### Decode -/

/-- The descriptor holds legal values, and ACC_IN keeps a tile only where it is EMPTY or fits the instruction (R195, R216, R217). -/
def DescriptorFits (d : Dev) (t : TaskRun) (n x : Nat) : Prop :=
  let c := d.core n
  let tag := c.tagBefore (firstUndecoded c) (mdTile x)
  mdLegal (decide (d.oget O.BLOCK8_PERMIT = 1)) t.gang n x = true ∧
    (mdIn x ≠ 1 ∨ tag.1 = 0 ∨ tag = (1 + matAcc (mdA x), matEdge (mdA x)))

section
variable {d : Dev} {n : Nat} {t : TaskRun} {q : MatInstr}

/-- A cause of a queued instruction is the exception its core keeps. -/
theorem matExc_fails (ht : (d.core n).task = some t) (he : (d.core n).exc = none) (q : MatInstr) (cause : Nat) :
    CoreFails d n ⟨cause, 0, q.pc, q.slot, q.voices, 0, q.addr, []⟩ (d.matExc n q cause) :=
  coreExc_fails d n _ (by rw [ht]; rfl) he rfl

variable (ht : (d.core n).task = some t) (he : (d.core n).exc = none)
variable (hq : (d.core n).mmq[firstUndecoded (d.core n)]? = some q)
include ht he hq

open Classical in
/-- The order of the checks on the first undecoded instruction: poison, then a range beyond LM where FMT_A names a format, then the
legal values (R214 to R217; assumption 74). -/
theorem matDecode_eq :
    d.matDecode n =
      if q.image.2 = true then d.matExc n q 6
      else if 4 ≤ mdA q.image.1 ∧ mdA q.image.1 ≤ 11 ∧ mdRange n q.image.1 = false then d.matExc n q 0x26
      else if ¬ DescriptorFits d t n q.image.1 then d.matExc n q 0x28
      else d.onCore n fun c => { c with mmq := setAt c.mmq (firstUndecoded (d.core n)) { q with desc := some q.image.1 } } := by
  obtain ⟨_, _, _, _, _, _, ⟨x, p⟩, _, _⟩ := q
  unfold DescriptorFits
  unfold firstUndecoded at hq ⊢
  unfold Dev.matDecode
  simp only [ht, hq, he, Option.isSome_none, Bool.false_eq_true, if_false]
  congr 2
  · simp [and_assoc]
  · congr 1
    cases mdLegal (decide (d.oget O.BLOCK8_PERMIT = 1)) t.gang n x <;> simp [and_assoc]

end

/-! ### Gang start -/

/-- The instruction at the head of a core's queue, with its descriptor, when it is decoded and has not started. -/
def Dev.readyHead (d : Dev) (m : Nat) : Option (Nat × MatInstr × Nat) :=
  match (d.core m).mmq with
  | h :: _ => if h.res.isSome then none else h.desc.map fun y => (m, h, y)
  | [] => none

theorem readyHead_eq_some (d : Dev) (m : Nat) (h : Nat × MatInstr × Nat) :
    d.readyHead m = some h ↔ h.1 = m ∧ (d.core m).mmq.head? = some h.2.1 ∧ h.2.1.res = none ∧ h.2.1.desc = some h.2.2 := by
  obtain ⟨m', q, y⟩ := h
  unfold Dev.readyHead
  cases (d.core m).mmq with
  | nil => simp
  | cons p l =>
    cases hr : p.res with
    | none =>
      simp only [hr, Option.isSome_none, Bool.false_eq_true, if_false, Option.map_eq_some_iff, Prod.mk.injEq, List.head?_cons,
        Option.some.injEq]
      constructor
      · rintro ⟨_, hd, rfl, rfl, rfl⟩; exact ⟨rfl, rfl, hr, hd⟩
      · rintro ⟨rfl, rfl, -, hd⟩; exact ⟨_, hd, rfl, rfl, rfl⟩
    | some r =>
      simp only [hr, Option.isSome_some, if_true, reduceCtorEq, List.head?_cons, Option.some.injEq, false_iff]
      rintro ⟨-, rfl, hn, -⟩
      rw [hr] at hn
      cases hn

/-- Only a head that is missing, not decoded or started is not ready. -/
theorem readyHead_eq_none {d : Dev} {m : Nat} (h : ∀ p, (d.core m).mmq.head? = some p → p.desc = none ∨ p.res.isSome = true) :
    d.readyHead m = none := by
  refine Option.eq_none_iff_forall_ne_some.2 fun a ha => ?_
  obtain ⟨-, hp, hr, hd⟩ := (readyHead_eq_some d m a).1 ha
  rcases h _ hp with h | h
  · rw [h] at hd; cases hd
  · rw [hr] at h; cases h

/-- A decoded head that has not started is ready. -/
theorem readyHead_isSome {d : Dev} {m : Nat} {p : MatInstr} {y : Nat} (hp : (d.core m).mmq.head? = some p) (hd : p.desc = some y)
    (hn : p.res = none) : (d.readyHead m).isSome = true := by
  rw [(readyHead_eq_some d m (m, p, y)).2 ⟨rfl, hp, hn, hd⟩, Option.isSome_some]

/-- The ready heads of some cores, in their order. -/
def Dev.readyHeads (d : Dev) (ms : List Nat) : List (Nat × MatInstr × Nat) := ms.filterMap d.readyHead

theorem mem_readyHeads {d : Dev} {ms : List Nat} {h : Nat × MatInstr × Nat} (hh : h ∈ d.readyHeads ms) :
    h.1 ∈ ms ∧ (d.core h.1).mmq.head? = some h.2.1 ∧ h.2.1.res = none ∧ h.2.1.desc = some h.2.2 := by
  obtain ⟨m, hm, hs⟩ := List.mem_filterMap.1 hh
  obtain ⟨rfl, h⟩ := (readyHead_eq_some d m h).1 hs
  exact ⟨hm, h⟩

/-- One core that is not ready leaves fewer heads than cores. -/
theorem readyHeads_length_ne {d : Dev} {ms : List Nat} (h : ∃ m ∈ ms, d.readyHead m = none) : (d.readyHeads ms).length ≠ ms.length := by
  obtain ⟨m, hm, hn⟩ := h
  intro hl
  have hall := List.filterMap_length_eq_length.1 hl m hm
  rw [hn] at hall
  cases hall

/-- When every core is ready there is one head of each. -/
theorem readyHeads_cores {d : Dev} {ms : List Nat} (h : ∀ m ∈ ms, (d.readyHead m).isSome = true) : (d.readyHeads ms).map (·.1) = ms := by
  unfold Dev.readyHeads
  rw [List.map_filterMap]
  calc ms.filterMap (fun m => (d.readyHead m).map (·.1)) = ms.filterMap some := by
        refine List.filterMap_congr fun m hm => ?_
        obtain ⟨a, ha⟩ := Option.isSome_iff_exists.1 (h m hm)
        rw [ha, Option.map_some, ((readyHead_eq_some d m a).1 ha).1]
    _ = ms := List.filterMap_some

/-- Instructions at the heads of their cores' queues start, each with what it yields. -/
def Dev.startAll (d : Dev) (rs : List (Nat × MatInstr × MatRes)) : Dev :=
  rs.foldl (fun d r => d.onCore r.1 fun c => { c with mmq := setAt c.mmq 0 (r.2.1.started r.2.2) }) d

theorem startAll_rest (d : Dev) (rs : List (Nat × MatInstr × MatRes)) : { d.startAll rs with nave := d.nave } = d := by
  induction rs generalizing d with
  | nil => rfl
  | cons r rs ih =>
    unfold Dev.startAll at ih ⊢
    rw [List.foldl_cons]
    exact congrArg (fun e : Dev => { e with nave := d.nave })
      (ih (d.onCore r.1 fun c => { c with mmq := setAt c.mmq 0 (r.2.1.started r.2.2) }))

theorem startAll_core_ne (d : Dev) (rs : List (Nat × MatInstr × MatRes)) {m : Nat} (h : m ∉ rs.map (·.1)) :
    (d.startAll rs).core m = d.core m := by
  induction rs generalizing d with
  | nil => rfl
  | cons r rs ih =>
    simp only [List.map_cons, List.mem_cons, not_or] at h
    exact (ih _ h.2).trans (core_onCore_ne d _ h.1)

/-- Each core of the list, listed once, has its instruction started. -/
theorem startAll_core (d : Dev) (rs : List (Nat × MatInstr × MatRes)) (hd : (rs.map (·.1)).Nodup) {r : Nat × MatInstr × MatRes}
    (h : r ∈ rs) : (d.startAll rs).core r.1 = { d.core r.1 with mmq := setAt (d.core r.1).mmq 0 { r.2.1 with res := some r.2.2 } } := by
  induction rs generalizing d with
  | nil => cases h
  | cons a rs ih =>
    obtain ⟨ha, hd⟩ := List.nodup_cons.1 hd
    rcases List.mem_cons.1 h with rfl | h
    · exact (startAll_core_ne _ rs ha).trans (core_onCore_same d _ _)
    · refine (ih _ hd h).trans ?_
      have hne : r.1 ≠ a.1 := fun he => ha (List.mem_map.2 ⟨r, h, he⟩)
      rw [core_onCore_ne d _ hne]

theorem rangeFrom_nodup (a n : Nat) : (rangeFrom a n).Nodup := by
  rw [rangeFrom_eq_range']
  exact List.nodup_range'

/-- The start of the ready heads of some cores, each core named once and ready, changes the heads of these cores alone. -/
theorem startAll_readyHeads {d : Dev} {ms : List Nat} (g : Nat × MatInstr × Nat → MatRes) (hms : ms.Nodup)
    (hready : ∀ m ∈ ms, (d.readyHead m).isSome = true) :
    let d' := d.startAll ((d.readyHeads ms).map fun h => (h.1, h.2.1, g h))
    (∀ m ∈ ms, ∃ p r, (d.core m).mmq.head? = some p ∧
      d'.core m = { d.core m with mmq := setAt (d.core m).mmq 0 { p with res := some r } }) ∧
    ∀ m, m ∉ ms → d'.core m = d.core m := by
  have hcores : ((d.readyHeads ms).map fun h => (h.1, h.2.1, g h)).map (·.1) = ms := by
    rw [List.map_map]
    exact readyHeads_cores hready
  refine ⟨fun m hm => ?_, fun m hm => startAll_core_ne d _ (by rwa [hcores])⟩
  rw [← readyHeads_cores hready] at hm
  obtain ⟨h, hh, rfl⟩ := List.mem_map.1 hm
  obtain ⟨-, hp, -⟩ := mem_readyHeads hh
  exact ⟨h.2.1, g h, hp, startAll_core d _ (by rwa [hcores]) (List.mem_map.2 ⟨h, hh, rfl⟩)⟩

section
variable {d : Dev} {n : Nat} {q : MatInstr} {x : Nat} {ms : List Nat}
variable (hms : ms = rangeFrom (matFirst n x) (matCores x)) (hq : (d.core n).mmq.head? = some q) (hx : q.desc = some x)
variable (hgang : ∀ m ∈ ms, ∀ p y, (d.core m).mmq.head? = some p → p.desc = some y → mdGang y = mdGang x)
include hms hq hx hgang

omit hms hq hx in
/-- The ready heads of a sub-gang are of its GANG. -/
theorem readyHeads_gang : ∀ h ∈ d.readyHeads ms, mdGang h.2.2 = mdGang x := fun h hh => by
  obtain ⟨hm, hp, -, hd⟩ := mem_readyHeads hh
  exact hgang _ hm _ _ hp hd

/-- A sub-gang of which a core is not ready waits (R201). -/
theorem matStart_waits (h : ∃ m ∈ ms, d.readyHead m = none) : d.matStart n = d := by
  obtain ⟨l, hl⟩ := List.head?_eq_some_iff.1 hq
  subst hms
  have hsame := readyHeads_gang hgang
  unfold Dev.matStart
  simp only [hl, hx]
  split
  · rfl
  refine (if_neg fun hc => ?_).trans (if_pos ?_)
  · obtain ⟨h, hh, hne⟩ := List.any_eq_true.1 hc
    simp [hsame h hh] at hne
  · exact Bool.or_eq_true_iff.2 (.inl (decide_eq_true (readyHeads_length_ne h)))

/-- A sub-gang whose cores are all ready, of one GANG and in agreement, starts on every core (R201, R202). -/
theorem matStart_starts (hg : mdGang x ≠ 0) (hr : q.res = none) (he : (d.core n).exc = none)
    (hready : ∀ m ∈ ms, ∃ p y, (d.core m).mmq.head? = some p ∧ p.desc = some y ∧ p.res = none ∧ mdAgree p y = mdAgree q x) :
    ∃ g : Nat × MatInstr × Nat → MatRes, d.matStart n = d.startAll ((d.readyHeads ms).map fun h => (h.1, h.2.1, g h)) := by
  obtain ⟨l, hl⟩ := List.head?_eq_some_iff.1 hq
  have hsame := readyHeads_gang hgang
  have hlen : (d.readyHeads ms).length = ms.length := by
    rw [← List.length_map, readyHeads_cores fun m hm => ?_]
    obtain ⟨p, y, hp, hd, hn, -⟩ := hready m hm
    exact readyHead_isSome hp hd hn
  have hagree : ∀ h ∈ d.readyHeads ms, mdAgree h.2.1 h.2.2 = mdAgree q x := fun h hh => by
    obtain ⟨hm, hp, -, hd⟩ := mem_readyHeads hh
    obtain ⟨p, y, hp', hd', -, ha⟩ := hready _ hm
    obtain rfl := Option.some.inj (hp.symm.trans hp')
    rw [Option.some.inj (hd.symm.trans hd'), ha]
  subst hms
  unfold Dev.matStart
  simp only [hl, hx]
  refine ⟨_, (if_neg ?_).trans ((if_neg fun hc => ?_).trans ((if_neg fun hc => ?_).trans ((if_neg fun hc => ?_).trans rfl)))⟩
  · simp [hg, hr, he]
  · obtain ⟨h, hh, hne⟩ := List.any_eq_true.1 hc
    simp [hsame h hh] at hne
  · rcases Bool.or_eq_true_iff.1 hc with hc | hc
    · exact of_decide_eq_true hc hlen
    · obtain ⟨h, hh, hz⟩ := List.any_eq_true.1 hc
      simp [hsame h hh, hg] at hz
  · obtain ⟨h, hh, hne⟩ := List.any_eq_true.1 hc
    simp [hagree h hh] at hne

end

/-! ### Completion -/

/-- Above every key a write adds its entry at the end. -/
theorem mset_above {α : Type} (m : List (Nat × α)) (k : Nat) (v : α) (h : ∀ e ∈ m, e.1 < k) : mset m k v = m ++ [(k, v)] := by
  induction m with
  | nil => rfl
  | cons e m ih =>
    have he := h e (by simp)
    simp only [mset]
    rw [if_neg (by omega), if_neg (by omega), ih fun a ha => h a (by simp [ha])]
    rfl

/-- Of the summaries kept, the newest is held (R178). -/
theorem mget_newest {α : Type} (m : List (Nat × α)) (k : Nat) (v : α) (h : ∀ e ∈ m, e.1 < k) :
    mget ((mset m k v).drop ((mset m k v).length - 16)) k = some v := by
  rw [mset_above m k v h, List.drop_append_of_le_length (by simp), ← mset_above _ k v fun e he => h e (List.mem_of_mem_drop he),
    mget_mset_same]

/-- What the completion of an instruction makes of its core: the next instruction heads the queue, and the tile and the summary of
this one are held (R176, R178). -/
def Core.retire (c : Core) (q : MatInstr) (rest : List MatInstr) (x : Nat) (r : MatRes) : Core :=
  let fl := mset c.mmFlags q.token r.summary
  { c with mmq := rest, mmDone := q.token, tiles := dset Tile.empty c.tiles (mdTile x) r.tile, quietFor := 0,
           mmFlags := fl.drop (fl.length - 16) }

/-- The counts of an instruction's clocks, conflicts and saturated outputs (R172, R190). -/
def Dev.countMatrix (d : Dev) (n x : Nat) (r : MatRes) : Dev :=
  let s := mdSteps x
  ((((d.oadd O.CELL_ACTIVE_CLOCKS r.active).oadd O.CELL_GATED_CLOCKS (4096 * s - r.active)).oadd
    O.STEP_CONFLICTS r.conflicts).oadd O.SATURATED_OUTPUTS (b2n (bit r.summary 5))).count 0 n 2 (s + r.conflicts)

@[simp] theorem countMatrix_mem (d : Dev) (n x : Nat) (r : MatRes) : (d.countMatrix n x r).mem = d.mem := by simp [Dev.countMatrix]
@[simp] theorem countMatrix_l2 (d : Dev) (n x : Nat) (r : MatRes) : (d.countMatrix n x r).l2 = d.l2 := by simp [Dev.countMatrix]
@[simp] theorem countMatrix_core (d : Dev) (n x : Nat) (r : MatRes) (m : Nat) : (d.countMatrix n x r).core m = d.core m := by
  simp [Dev.countMatrix, Dev.core]

section
variable {d : Dev} {n : Nat} {q : MatInstr} {rest : List MatInstr} {x : Nat}
variable (hq : (d.core n).mmq = q :: rest) (hx : q.desc = some x) (he : (d.core n).exc = none)
variable (hg : mdGang x ≠ 0 → q.res.isSome = true)
include hq hx he hg

/-- An instruction completes once its rows are stored and its clocks are counted, which touches neither memory, L2 nor the matrix unit of
a core. -/
theorem matComplete_retires : ∃ (e : Dev) (r : MatRes), d.matComplete n .none = (e.onCore n fun c => c.retire q rest x r).wake n ∧
    e.mem = d.mem ∧ e.l2 = d.l2 ∧ ∀ m, (e.core m).matPart = (d.core m).matPart := by
  have hgo : ¬ ((d.core n).exc.isSome || (decide (mdGang x ≠ 0) && q.res.isNone)) = true := by
    rw [he]
    by_cases h0 : mdGang x = 0
    · simp [h0]
    · simpa [h0, Option.isSome_iff_ne_none] using hg h0
  let r := q.res.getD (d.matCompute n q x n x n x)
  have hrows : KeepsMat d (r.rows.foldl (fun d y => d.matRowPut n y) d) := KeepsMat.foldl _ (fun d y => KeepsMat.matRowPut d n y) _ d
  refine ⟨(r.rows.foldl (fun d y => d.matRowPut n y) d).countMatrix n x r, r, ?_, ?_, ?_, fun m => ?_⟩
  · unfold Dev.matComplete
    simp only [hq, hx]
    exact if_neg hgo
  · rw [countMatrix_mem, hrows.mem]
  · rw [countMatrix_l2, hrows.l2]
  · rw [countMatrix_core, hrows.part m]

/-- Completion takes the instruction off the queue under its token and holds its summary as one of at most 16 (R176, R178). -/
theorem matComplete_leaves : ∃ sum,
    ((d.matComplete n .none).core n).mmq = rest ∧ ((d.matComplete n .none).core n).mmDone = q.token ∧
    ((∀ f ∈ (d.core n).mmFlags, f.1 < q.token) → mget ((d.matComplete n .none).core n).mmFlags q.token = some sum) ∧
    ((d.matComplete n .none).core n).mmFlags.length ≤ 16 ∧ (d.matComplete n .none).mem = d.mem ∧ (d.matComplete n .none).l2 = d.l2 ∧
    ((d.matComplete n .none).core n).task = (d.core n).task := by
  obtain ⟨e, r, heq, hmem, hl2, hpart⟩ := matComplete_retires hq hx he hg
  have hw := KeepsMat.wake (e.onCore n fun c => c.retire q rest x r) n
  have hp := (hw.part n).trans (congrArg Core.matPart (core_onCore_same e n _))
  obtain ⟨-, -, -, hfl, -, htask⟩ := matPart_inj (hpart n)
  rw [heq]
  obtain ⟨hmmq, -, hdone, hflags, -, ht⟩ := matPart_inj hp
  refine ⟨r.summary, hmmq, hdone, fun hlt => ?_, ?_, hw.mem.trans hmem, hw.l2.trans hl2, ht.trans htask⟩
  · rw [hflags]
    exact mget_newest _ _ _ (by rwa [hfl])
  · rw [hflags]
    simp only [Core.retire, List.length_drop]
    omega

end

/-! ### The commands of the matrix unit -/

theorem matrixUnitDecodesStartsAndCompletes : MatrixUnitDecodesStartsAndCompletes := by
  refine ⟨fun s n t q hn ht he hq => ?_, fun s n q x hn hq hx hg hr => ?_, fun s n q rest x hn hq hx he hg => ?_⟩
  · have hex : exec (.mmaDecode n) s = .next { s with dev := s.dev.matDecode n } := runIf_next _ (decide_eq_true hn)
    rw [matDecode_eq ht he hq] at hex
    refine ⟨fun hp => ⟨_, hex, ?_⟩, fun hp hr ha hb => ⟨_, hex, ?_⟩,
      fun hp hr (hl : ¬ DescriptorFits s.dev t n q.image.1) => ⟨_, hex, ?_⟩,
      fun hp hr (hl : DescriptorFits s.dev t n q.image.1) => hex.trans ?_⟩
    · rw [if_pos hp]
      exact matExc_fails ht he q 6
    · rw [if_neg (by simp [hp]), if_pos ⟨ha, hb, hr⟩]
      exact matExc_fails ht he q 0x26
    · rw [if_neg (by simp [hp]), if_neg fun h => by simp [hr h.1 h.2.1] at h, if_pos hl]
      exact matExc_fails ht he q 0x28
    · rw [if_neg (by simp [hp]), if_neg (by simp [hr]), if_neg (not_not.2 hl)]
      rfl
  · intro ms hgang
    have hex : exec (.mmaGangStart n) s = .next { s with dev := s.dev.matStart n } := runIf_next _ (decide_eq_true hn)
    refine ⟨fun ⟨m, hm, h⟩ => ?_, fun hready hmem => ?_⟩
    · rw [hex, matStart_waits rfl hq hx hgang ⟨m, hm, readyHead_eq_none h⟩]
    · obtain ⟨g, hg'⟩ := matStart_starts rfl hq hx hgang hg hr (hready n hmem).1 fun m hm => (hready m hm).2
      obtain ⟨hstart, hrest⟩ := startAll_readyHeads g (rangeFrom_nodup _ _) fun m hm => by
        obtain ⟨-, p, y, hp, hd, hn, -⟩ := hready m hm
        exact readyHead_isSome hp hd hn
      exact ⟨_, hg' ▸ hex, startAll_rest s.dev _, hstart, hrest⟩
  · obtain ⟨sum, hmmq, hdone, hflags, hlen, hmem, hl2, ht⟩ := matComplete_leaves hq hx he hg
    exact ⟨_, sum, runIf_next _ (decide_eq_true hn), hmmq, hdone, fun _ => hflags, hlen, hmem, hl2, ht⟩

/-- Settles O17: what each of the three instructions does once it issues (`mma_issues`, `mwait_waits`, `mflags_writes`), and what the unit's
three commands make of its queue (`matDecode_eq`, `matStart_waits` and `matStart_starts`, `matComplete_leaves`). The descriptor decoded is
the image of LM kept at issue (assumption 23), and its causes are raised in the order of assumption 74. -/
theorem matrixInstructionsRunInOrder : Obligations.MatrixInstructionsRunInOrder :=
  ⟨matrixTokensAreIssuedInOrder, matrixUnitDecodesStartsAndCompletes⟩

end Sys2Proof.Machine
end

section
/-! Rounding and conversion of numbers (chapter 5): an exact result in units of a power of two is rounded to an integer, a format has no value
between the multiples next to it, and the result is the pattern of the one taken. -/

namespace Sys2Proof.Machine

open Sys2Proof.Claims

/-! ### Signed significands and the values of patterns -/

@[simp] theorem signedM_false (m : Nat) : signedM false m = m := rfl
@[simp] theorem signedM_true (m : Nat) : signedM true m = -(m : Int) := rfl
@[simp] theorem signedM_zero (neg : Bool) : signedM neg 0 = 0 := by cases neg <;> rfl
@[simp] theorem natAbs_signedM (neg : Bool) (m : Nat) : (signedM neg m).natAbs = m := by cases neg <;> simp

theorem abs_signedM (neg : Bool) (m : Nat) : |(signedM neg m : ℝ)| = m := by
  rw [← Int.cast_abs, Int.abs_eq_natAbs, natAbs_signedM, Int.cast_natCast]

/-- An integer is its sign and its magnitude. -/
theorem signedM_natAbs (v : Int) : signedM (decide (v < 0)) v.natAbs = v := by
  by_cases h : v < 0
  · rw [decide_eq_true h, signedM_true]
    omega
  · rw [decide_eq_false h, signedM_false]
    omega

/-- A pattern is finite where it decodes to a significand and an exponent. -/
theorem fpReal_eq_some_iff {f x : Nat} {v : ℝ} :
    fpReal f x = some v ↔ ∃ n m e, fpDecode f x = .fin n m e ∧ v = (signedM n m : ℝ) * 2 ^ e := by
  unfold fpReal
  split
  · next n m e h =>
    rw [h, Option.some.injEq]
    have hs : ((if n then -1 else 1) * (m : ℝ)) = (signedM n m : ℝ) := by cases n <;> simp [signedM]
    rw [hs]
    constructor
    · rintro rfl
      exact ⟨n, m, e, rfl, rfl⟩
    · rintro ⟨n', m', e', heq, rfl⟩
      cases heq
      rfl
  · next h => exact iff_of_false (by simp) fun ⟨n, m, e, hx, _⟩ => h n m e hx

/-- An integer rounds to itself. -/
theorem intRounds_self (rm : Nat) (z : Int) : IntRounds rm z z := by
  unfold IntRounds
  split <;> simp

/-- A natural quotient and remainder place the exact quotient between two integers. -/
theorem div_two_pow_bounds (m k : Nat) : ∃ u : ℝ, (m : ℝ) / 2 ^ k = (m / 2 ^ k : Nat) + u ∧ u * 2 ^ k = (m % 2 ^ k : Nat) ∧ 0 ≤ u ∧ u < 1 := by
  have hp : (0 : ℝ) < 2 ^ k := by positivity
  have hm : (m : ℝ) = 2 ^ k * (m / 2 ^ k : Nat) + (m % 2 ^ k : Nat) := by exact_mod_cast (Nat.div_add_mod m (2 ^ k)).symm
  have hlt : ((m % 2 ^ k : Nat) : ℝ) < 2 ^ k := by exact_mod_cast Nat.mod_lt m (Nat.two_pow_pos k)
  refine ⟨(m % 2 ^ k : Nat) / 2 ^ k, ?_, by field_simp, by positivity, (div_lt_one hp).2 hlt⟩
  nth_rw 1 [hm]
  field_simp

/-! ### Rounding to a multiple of a power of two -/

/-- A number already on the grid keeps its value. -/
theorem roundQ_of_le {q e : Int} (h : q ≤ e) (rm : Nat) (neg : Bool) (m : Nat) :
    (roundQ rm neg m e q).2 = false ∧ ((signedM neg (roundQ rm neg m e q).1 : Int) : ℝ) = signedM neg m * 2 ^ (e - q) := by
  obtain ⟨k, hk⟩ := Int.eq_ofNat_of_zero_le (sub_nonneg.2 h)
  have hr : roundQ rm neg m e q = (m * 2 ^ k, false) := by simp [roundQ, h, hk]
  rw [hr, hk]
  cases neg <;> simp

/-- The quotient `r`, with the fraction `u` of a unit left over, goes up to the next integer away from zero (R230). -/
def GoesUp (rm : Nat) (neg : Bool) (r : Nat) (u : ℝ) : Prop :=
  if rm = 0 then 1 / 2 < u ∨ u = 1 / 2 ∧ r % 2 = 1 else u ≠ 0 ∧ (rm = 2 ∧ neg = false ∨ rm = 3 ∧ neg = true)

theorem GoesUp.ne_zero {rm : Nat} {neg : Bool} {r : Nat} {u : ℝ} (h : GoesUp rm neg r u) : u ≠ 0 := by
  unfold GoesUp at h
  split at h
  · rintro rfl
    norm_num at h
  · exact h.1

/-- To nearest, the quotient or the next integer is taken, the even one on a tie (R230). -/
theorem nearest_rounds (r : Nat) {u : ℝ} {up : Bool} (h0 : 0 ≤ u) (h1 : u < 1) (neg : Bool)
    (hup : up = true ↔ GoesUp 0 neg r u) :
    IntRounds 0 (if neg then -(r + u) else r + u) (signedM neg (if up then r + 1 else r)) := by
  simp only [GoesUp, if_true] at hup
  have key : |((if up then r + 1 else r : Nat) : ℝ) - (r + u)| ≤ 1 / 2 ∧
      (|((if up then r + 1 else r : Nat) : ℝ) - (r + u)| = 1 / 2 → (if up then r + 1 else r) % 2 = 0) := by
    cases up with
    | false =>
      have hn : ¬ (1 / 2 < u ∨ u = 1 / 2 ∧ r % 2 = 1) := mt hup.2 Bool.false_ne_true
      have hd : |((r : Nat) : ℝ) - (r + u)| = u := by rw [sub_add_cancel_left, abs_neg, abs_of_nonneg h0]
      simp only [Bool.false_eq_true, if_false, hd]
      exact ⟨not_lt.1 fun h => hn (.inl h), fun h => Nat.mod_two_ne_one.1 fun h' => hn (.inr ⟨h, h'⟩)⟩
    | true =>
      have hd : |((r + 1 : Nat) : ℝ) - (r + u)| = 1 - u := by
        rw [Nat.cast_add_one, add_sub_add_left_eq_sub, abs_of_pos (sub_pos.2 h1)]
      simp only [if_true, hd]
      obtain h | ⟨h, hodd⟩ := hup.1 rfl
      · exact ⟨by linarith, fun h' => by linarith⟩
      · exact ⟨by linarith, fun _ => by omega⟩
  cases neg with
  | false => exact ⟨key.1, fun h => by have := key.2 h; rw [signedM_false]; omega⟩
  | true =>
    have hd : ∀ a b : ℝ, |-a - -b| = |a - b| := fun a b => by rw [neg_sub_neg, abs_sub_comm]
    simp only [IntRounds, signedM_true, Int.cast_neg, Int.cast_natCast, if_true, hd]
    exact ⟨key.1, fun h => by have := key.2 h; omega⟩

/-- In a direction, the quotient is taken, or the next integer where the remainder is not zero and the direction points away from zero
(R230). -/
theorem directed_rounds {rm : Nat} (h1 : 1 ≤ rm) (h3 : rm < 4) (r : Nat) {u : ℝ} (hu : 0 ≤ u) (hu1 : u < 1) {up : Bool}
    (neg : Bool) (hup : up = true ↔ GoesUp rm neg r u) :
    IntRounds rm (if neg then -(r + u) else r + u) (signedM neg (if up then r + 1 else r)) := by
  rw [GoesUp, if_neg (by omega)] at hup
  have hN : ((if up then r + 1 else r : Nat) : Int) =
      if rm = 2 ∧ neg = false ∨ rm = 3 ∧ neg = true then ⌈(r : ℝ) + u⌉ else ⌊(r : ℝ) + u⌋ := by
    have hfloor : ⌊(r : ℝ) + u⌋ = r := by rw [Int.floor_eq_iff]; constructor <;> push_cast <;> linarith
    by_cases away : rm = 2 ∧ neg = false ∨ rm = 3 ∧ neg = true
    · rw [if_pos away]
      by_cases hz : u = 0
      · rw [if_neg fun h => (hup.1 h).1 hz, hz]; simp
      · have := lt_of_le_of_ne hu (Ne.symm hz)
        rw [if_pos (hup.2 ⟨hz, away⟩), eq_comm, Int.ceil_eq_iff]
        constructor <;> push_cast <;> linarith
    · rw [if_neg away, if_neg fun h => away (hup.1 h).2, hfloor]
  have hr : (0 : ℝ) ≤ r + u := by positivity
  generalize (if up then r + 1 else r) = N at hN
  generalize (r : ℝ) + u = t at *
  interval_cases rm
  · cases neg with
    | false => simpa [IntRounds, hr] using hN
    | true =>
      obtain rfl | hpos := hr.eq_or_lt
      · simp_all [IntRounds]
      · simp_all [IntRounds, Int.ceil_neg]
  · cases neg <;> simp_all [IntRounds, Int.ceil_neg]
  · cases neg <;> simp_all [IntRounds, Int.floor_neg]

/-- A number off the grid: its quotient goes up where `GoesUp` says, and the result is inexact where the remainder is not zero. -/
theorem roundQ_of_lt {q e : Int} (h : e < q) {rm : Nat} (hrm : rm < 4) (neg : Bool) (m : Nat) :
    ∃ (r : Nat) (u : ℝ) (up : Bool), (signedM neg m : ℝ) * 2 ^ (e - q) = (if neg then -(r + u) else r + u) ∧ 0 ≤ u ∧ u < 1 ∧
      (up = true ↔ GoesUp rm neg r u) ∧ (roundQ rm neg m e q).1 = (if up then r + 1 else r) ∧
      ((roundQ rm neg m e q).2 = true ↔ u ≠ 0) := by
  classical
  obtain ⟨k, hk⟩ := Int.eq_ofNat_of_zero_le (sub_nonneg.2 h.le)
  obtain ⟨u, hdiv, hrem, hu0, hu1⟩ := div_two_pow_bounds m k
  have hp : (0 : ℝ) < 2 ^ k := by positivity
  have hz : m % 2 ^ k ≠ 0 ↔ u ≠ 0 := by rw [← Nat.cast_ne_zero (R := ℝ), ← hrem]; simp
  have hlt : 2 ^ k < 2 * (m % 2 ^ k) ↔ 1 / 2 < u := by
    rw [← Nat.cast_lt (α := ℝ)]; push_cast; rw [← hrem]; constructor <;> intro h <;> nlinarith
  have heq : 2 * (m % 2 ^ k) = 2 ^ k ↔ u = 1 / 2 := by
    rw [← Nat.cast_inj (R := ℝ)]; push_cast; rw [← hrem]
    constructor <;> intro h
    · nlinarith
    · rw [h]; ring
  refine ⟨m / 2 ^ k, u, decide (GoesUp rm neg (m / 2 ^ k) u), ?_, hu0, hu1, decide_eq_true_iff, ?_, ?_⟩
  · rw [← neg_sub, hk, ← hdiv]
    cases neg <;> simp [div_eq_mul_inv]
  · unfold roundQ
    rw [if_neg h.not_ge, hk]
    interval_cases rm <;> simp [GoesUp, hz, hlt, heq]
  · simp [roundQ, h.not_ge, hk, hz]

/-- Rounding to a multiple of 2^q is rounding the number in units of 2^q to an integer, and is inexact when that changes it (R229,
R230). -/
theorem roundQ_rounds {rm : Nat} (hrm : rm < 4) (neg : Bool) (m : Nat) (e q : Int) :
    IntRounds rm (signedM neg m * 2 ^ (e - q)) (signedM neg (roundQ rm neg m e q).1) ∧
      ((roundQ rm neg m e q).2 = true ↔ ((signedM neg (roundQ rm neg m e q).1 : Int) : ℝ) ≠ signedM neg m * 2 ^ (e - q)) := by
  obtain hq | hq := le_or_gt q e
  · obtain ⟨hexact, hval⟩ := roundQ_of_le hq rm neg m
    rw [← hval, hexact]
    exact ⟨intRounds_self _ _, by simp⟩
  obtain ⟨r, u, up, hval, hu0, hu1, hup, hr, hinexact⟩ := roundQ_of_lt hq hrm neg m
  rw [hval, hr, hinexact]
  constructor
  · obtain rfl | h1 := Nat.eq_zero_or_pos rm
    · exact nearest_rounds r hu0 hu1 neg hup
    · exact directed_rounds h1 hrm r hu0 hu1 neg hup
  · have hN : ((if up then r + 1 else r : Nat) : ℝ) ≠ r + u ↔ u ≠ 0 := by
      cases up with
      | false => simp
      | true => exact iff_of_true (by simp only [if_true]; push_cast; intro h; linarith) (hup.1 rfl).ne_zero
    rw [← hN]
    cases neg with
    | false => simp
    | true => rw [signedM_true, if_pos rfl, Int.cast_neg, Int.cast_natCast, ne_eq, ne_eq, neg_inj]

/-! ### Patterns of a floating-point format -/

/-- Fraction bits of a format (Table 5.1). -/
def fracBits (f : Nat) : Nat := (fmtShape f).2.1

/-- The exponent of the least nonzero value of a format: its values are multiples of 2 to it. -/
def leastExp (f : Nat) : Int := 1 - ((fmtShape f).2.2 : Int) - (fmtShape f).2.1

/-- The fields of Table 5.1: the sign above exponent and fraction, and the largest finite value below the infinities and, in E4M3, the
NaN. -/
theorem fmt_layout : ∀ f < 12, isIntFmt f = false → fmtWidth f = (fmtShape f).1 + fracBits f + 1 ∧
    fmtMax f < 2 ^ (fmtShape f).1 * 2 ^ fracBits f ∧ (f = 8 → fmtMax f < 15 * 2 ^ fracBits f + 7) ∧
    (f ≠ 8 → f ≠ 10 → fmtMax f < (2 ^ (fmtShape f).1 - 1) * 2 ^ fracBits f) := by
  decide

/-- A finite pattern is a significand of at most one bit above the fraction, on the grid of the least value. -/
theorem fpDecode_fin_bounds {f x m : Nat} {n : Bool} {e : Int} (h : fpDecode f x = .fin n m e) :
    m < 2 ^ (fracBits f + 1) ∧ leastExp f ≤ e := by
  obtain ⟨⟨eb, fb, bias⟩, hs⟩ : ∃ s, fmtShape f = s := ⟨_, rfl⟩
  have hfr : bits x 0 fb < 2 ^ fb := Nat.mod_lt _ (Nat.two_pow_pos _)
  simp only [fpDecode, hs] at h
  simp only [fracBits, leastExp, hs, pow_succ]
  split at h
  · cases h
  split at h
  · split at h <;> cases h
  split at h
  · cases h
    exact ⟨by omega, le_rfl⟩
  · cases h
    exact ⟨by omega, by omega⟩

/-- The fields of a pattern put together from its sign, exponent and fraction. -/
theorem bits_of_fields (neg : Bool) {eb fb k r : Nat} (hk : k < 2 ^ eb) (hr : r < 2 ^ fb) :
    let x := (if neg then 2 ^ (eb + fb) else 0) + (k * 2 ^ fb + r)
    bits x 0 fb = r ∧ bits x fb eb = k ∧ bit x (eb + fb) = neg := by
  intro x
  have hx : x = r + 2 ^ fb * (k + 2 ^ eb * b2n neg) := by cases neg <;> simp [x, b2n, pow_add] <;> ring
  have hdiv : x / 2 ^ fb = k + 2 ^ eb * b2n neg := by
    rw [hx, Nat.add_mul_div_left _ _ (Nat.two_pow_pos _), Nat.div_eq_of_lt hr, Nat.zero_add]
  refine ⟨?_, ?_, ?_⟩
  · rw [bits, pow_zero, Nat.div_one, hx, Nat.add_mul_mod_self_left, Nat.mod_eq_of_lt hr]
  · rw [bits, hdiv, Nat.add_mul_mod_self_left, Nat.mod_eq_of_lt hk]
  · rw [bit, add_comm eb, pow_add, ← Nat.div_div_eq_div_mul, hdiv, Nat.add_mul_div_left _ _ (Nat.two_pow_pos _),
      Nat.div_eq_of_lt hk]
    cases neg <;> rfl

/-- What a pattern of exponent field `k` and fraction `r`, not above the largest finite one, decodes to (R221). -/
theorem fpDecode_pattern {f : Nat} (hf : f < 12) (hfp : isIntFmt f = false) (neg : Bool) {k r : Nat} (hr : r < 2 ^ fracBits f)
    (hmax : k * 2 ^ fracBits f + r ≤ fmtMax f) : fpDecode f (signBit f neg + (k * 2 ^ fracBits f + r)) =
      if k = 0 then .fin neg r (leastExp f) else .fin neg (2 ^ fracBits f + r) ((k : Int) - 1 + leastExp f) := by
  obtain ⟨hw, hlt, h8, hinf⟩ := fmt_layout f hf hfp
  rw [signBit, hw, Nat.add_sub_cancel]
  obtain ⟨⟨eb, fb, bias⟩, hs⟩ : ∃ s, fmtShape f = s := ⟨_, rfl⟩
  simp only [fpDecode, leastExp, fracBits, hs] at *
  have hk : k < 2 ^ eb := lt_of_mul_lt_mul_right (by omega : k * 2 ^ fb < 2 ^ eb * 2 ^ fb) (Nat.zero_le _)
  obtain ⟨hfr, hex, hneg⟩ := bits_of_fields neg hk hr
  rw [hfr, hex, hneg, if_neg, if_neg]
  · split
    · rfl
    · congr 1
      ring
  · simp only [Bool.and_eq_true, decide_eq_true_eq]
    rintro ⟨⟨hn8, hn10⟩, rfl⟩
    have := hinf hn8 hn10
    omega
  · simp only [Bool.and_eq_true, decide_eq_true_eq]
    rintro ⟨⟨rfl, rfl⟩, rfl⟩
    have := h8 rfl
    omega

/-- A significand of at most one bit above the fraction, put after `k` binades, is the pattern of its value: a significand that rounding
carried to the next power of two lands in the next binade. -/
theorem fpReal_pattern {f : Nat} (hf : f < 12) (hfp : isIntFmt f = false) (neg : Bool) {k N : Nat} (hN : N ≤ 2 ^ (fracBits f + 1))
    (hk : k = 0 ∨ 2 ^ fracBits f ≤ N) (hmax : k * 2 ^ fracBits f + N ≤ fmtMax f) :
    fpReal f (signBit f neg + (k * 2 ^ fracBits f + N)) = some ((signedM neg N : ℝ) * 2 ^ ((k : Int) + leastExp f)) := by
  rw [pow_succ] at hN
  have hpos := Nat.two_pow_pos (fracBits f)
  rw [fpReal_eq_some_iff]
  obtain hlt | hge := lt_or_ge N (2 ^ fracBits f)
  · obtain rfl : k = 0 := hk.resolve_right hlt.not_ge
    rw [fpDecode_pattern hf hfp neg hlt hmax, if_pos rfl]
    exact ⟨_, _, _, rfl, by simp⟩
  obtain hlt | rfl := lt_or_eq_of_le hN
  · have hsplit : k * 2 ^ fracBits f + N = (k + 1) * 2 ^ fracBits f + (N - 2 ^ fracBits f) := by rw [add_mul, one_mul]; omega
    rw [hsplit] at hmax ⊢
    rw [fpDecode_pattern hf hfp neg (by omega) hmax, if_neg k.succ_ne_zero]
    refine ⟨_, _, _, rfl, ?_⟩
    rw [Nat.add_sub_cancel' hge, Nat.cast_add_one, add_sub_cancel_right]
  · have hsplit : k * 2 ^ fracBits f + 2 ^ fracBits f * 2 = (k + 2) * 2 ^ fracBits f + 0 := by ring
    rw [hsplit] at hmax ⊢
    rw [fpDecode_pattern hf hfp neg hpos hmax, if_neg (by omega)]
    refine ⟨_, _, _, rfl, ?_⟩
    have he : ((k + 2 : Nat) : Int) - 1 + leastExp f = ((k : Int) + leastExp f) + 1 := by push_cast; ring
    rw [he, zpow_add_one₀ two_ne_zero]
    cases neg <;> simp <;> ring

theorem one_binade_le_fmtMax : ∀ f < 12, isIntFmt f = false → 2 ^ fracBits f ≤ fmtMax f := by decide

/-- The largest finite value, as a normal significand and a number of binades. -/
theorem fpReal_fmtMax {f : Nat} (hf : f < 12) (hfp : isIntFmt f = false) : ∃ k M : Nat, fmtMax f = k * 2 ^ fracBits f + M ∧
    2 ^ fracBits f ≤ M ∧ M < 2 ^ (fracBits f + 1) ∧ fpReal f (fmtMax f) = some ((M : ℝ) * 2 ^ ((k : Int) + leastExp f)) := by
  have hpos := Nat.two_pow_pos (fracBits f)
  have hmod := Nat.mod_lt (fmtMax f) hpos
  obtain ⟨k, hk⟩ := Nat.exists_eq_succ_of_ne_zero (Nat.div_pos (one_binade_le_fmtMax f hf hfp) hpos).ne'
  have hmax : fmtMax f = k * 2 ^ fracBits f + (2 ^ fracBits f + fmtMax f % 2 ^ fracBits f) := by
    conv_lhs => rw [← Nat.div_add_mod (fmtMax f) (2 ^ fracBits f), hk]
    rw [Nat.succ_eq_add_one]
    ring
  refine ⟨k, _, hmax, Nat.le_add_right _ _, by rw [pow_succ]; omega, ?_⟩
  have h := fpReal_pattern hf hfp false (by rw [pow_succ]; omega) (.inr (Nat.le_add_right _ _)) hmax.ge
  rw [← hmax, signBit, if_neg Bool.false_ne_true, Nat.zero_add] at h
  rw [h, signedM_false, Int.cast_natCast]

theorem fpReal_fmtMax_eq_fpLargest {f : Nat} (hf : f < 12) (hfp : isIntFmt f = false) : fpReal f (fmtMax f) = some (fpLargest f) := by
  obtain ⟨k, M, -, -, -, h⟩ := fpReal_fmtMax hf hfp
  rw [fpLargest, h, Option.getD_some]

/-- Patterns are ordered as their values: one whose value is not beyond the largest finite value is not above its pattern. -/
theorem pattern_le_fmtMax {f : Nat} (hf : f < 12) (hfp : isIntFmt f = false) {k N : Nat} (hN : N ≤ 2 ^ (fracBits f + 1))
    (hk : k = 0 ∨ 2 ^ fracBits f ≤ N) (hle : (N : ℝ) * 2 ^ ((k : Int) + leastExp f) ≤ fpLargest f) :
    k * 2 ^ fracBits f + N ≤ fmtMax f := by
  obtain ⟨K, M, hmax, hM, hM', hlargest⟩ := fpReal_fmtMax hf hfp
  have hscaled : N * 2 ^ k ≤ M * 2 ^ K := by
    rw [fpLargest, hlargest, Option.getD_some, zpow_add₀ two_ne_zero, zpow_add₀ two_ne_zero, ← mul_assoc, ← mul_assoc,
      mul_le_mul_iff_left₀ (by positivity)] at hle
    exact_mod_cast hle
  rw [hmax]
  rw [pow_succ] at hN hM'
  obtain hlt | rfl | hgt := lt_trichotomy k K
  · have : (k + 1) * 2 ^ fracBits f ≤ K * 2 ^ fracBits f := Nat.mul_le_mul_right _ hlt
    rw [add_mul, one_mul] at this
    omega
  · have := Nat.le_of_mul_le_mul_right hscaled (Nat.two_pow_pos k)
    omega
  · exfalso
    have hN' : 2 ^ fracBits f ≤ N := hk.resolve_left (by omega)
    have : M * 2 ^ K < N * 2 ^ k := calc
      M * 2 ^ K < 2 ^ fracBits f * 2 * 2 ^ K := Nat.mul_lt_mul_of_pos_right hM' (Nat.two_pow_pos K)
      _ = 2 ^ fracBits f * 2 ^ (K + 1) := by ring
      _ ≤ N * 2 ^ k := Nat.mul_le_mul hN' (Nat.pow_le_pow_right two_pos hgt)
    omega

/-! ### The neighbours of an exact result -/

/-- Why no value `w` of a format stands strictly between the multiples of `s` next to `t * s`: it is a multiple of `s`, or its magnitude
does not exceed one that `t * s` reaches. -/
def OnGrid (s t w : ℝ) : Prop := (∃ j : Int, w = j * s) ∨ ∃ p : Nat, |w| ≤ p * s ∧ (p : ℝ) ≤ |t|

section
variable {s t w : ℝ}

theorem OnGrid.neg (h : OnGrid s t w) : OnGrid s (-t) (-w) := by
  obtain ⟨j, rfl⟩ | ⟨p, hw, hp⟩ := h
  · exact .inl ⟨-j, by push_cast; ring⟩
  · exact .inr ⟨p, by rwa [abs_neg], by rwa [abs_neg]⟩

theorem OnGrid.abs (hs : 0 < s) (h : OnGrid s t w) : OnGrid s |t| |w| := by
  obtain ⟨j, rfl⟩ | ⟨p, hw, hp⟩ := h
  · exact .inl ⟨|j|, by rw [abs_mul, abs_of_pos hs, Int.cast_abs]⟩
  · exact .inr ⟨p, by rwa [abs_abs], by rwa [abs_abs]⟩

/-- A value not above `t * s` is not above the multiple of `s` below it. -/
theorem OnGrid.le_floor (hs : 0 < s) (h : OnGrid s t w) (hle : w ≤ t * s) : w ≤ ⌊t⌋ * s := by
  obtain ⟨j, rfl⟩ | ⟨p, hw, hp⟩ := h
  · have := Int.le_floor.2 (le_of_mul_le_mul_right hle hs)
    gcongr
  obtain ht | ht := le_or_gt 0 t
  · rw [abs_of_nonneg ht] at hp
    have hpf : (p : ℝ) ≤ ⌊t⌋ := by exact_mod_cast Int.le_floor.2 (by exact_mod_cast hp : ((p : Int) : ℝ) ≤ t)
    calc w ≤ p * s := (le_abs_self w).trans hw
      _ ≤ ⌊t⌋ * s := by gcongr
  · rw [abs_of_neg ht] at hp
    have hge : -(p : ℝ) * s ≤ t * s := by linarith [neg_abs_le w]
    have hpt : t = ((-(p : Int) : Int) : ℝ) := by push_cast; linarith [le_of_mul_le_mul_right hge hs]
    rwa [hpt, Int.floor_intCast, ← hpt]

/-- A value not below `t * s` is not below the multiple of `s` above it. -/
theorem OnGrid.ceil_le (hs : 0 < s) (h : OnGrid s t w) (hle : t * s ≤ w) : ⌈t⌉ * s ≤ w := by
  have := h.neg.le_floor hs (by linarith)
  rw [Int.floor_neg, Int.cast_neg] at this
  linarith

/-- Between `t * s` and a value there is a multiple of `s`. -/
theorem OnGrid.exists_between (hs : 0 < s) (h : OnGrid s t w) : ∃ j : Int, |w - t * s| = |w - j * s| + |j - t| * s := by
  obtain hle | hle := le_total w (t * s)
  · have hw := h.le_floor hs hle
    refine ⟨⌊t⌋, ?_⟩
    rw [abs_of_nonpos (by linarith), abs_of_nonpos (by linarith), abs_of_nonpos (by linarith [Int.floor_le t])]
    ring
  · have hw := h.ceil_le hs hle
    refine ⟨⌈t⌉, ?_⟩
    rw [abs_of_nonneg (by linarith), abs_of_nonneg (by linarith), abs_of_nonneg (by linarith [Int.le_ceil t])]
    ring

end

/-- No integer is nearer than the one to which a number rounds, and where another is as near, that one is even. -/
theorem nearest_int {t : ℝ} {N : Int} (h : IntRounds 0 t N) (j : Int) :
    |(N : ℝ) - t| ≤ |(j : ℝ) - t| ∧ (|(j : ℝ) - t| = |(N : ℝ) - t| → j = N ∨ N % 2 = 0) := by
  obtain ⟨hhalf, heven⟩ := h
  obtain rfl | hne := eq_or_ne j N
  · exact ⟨le_rfl, fun _ => .inl rfl⟩
  have h1 : (1 : ℝ) ≤ |(j : ℝ) - N| := by exact_mod_cast Int.one_le_abs (sub_ne_zero.2 hne)
  have htri := abs_sub_le (j : ℝ) t N
  rw [abs_sub_comm t] at htri
  exact ⟨by linarith, fun heq => .inr (heven (by linarith))⟩

/-- Toward zero the magnitude is rounded down and the sign kept. -/
theorem toward_zero_int {t : ℝ} {N : Int} (h : IntRounds 1 t N) : |N| = ⌊|t|⌋ ∧ 0 ≤ (N : ℝ) * t := by
  simp only [IntRounds] at h
  split at h
  · next ht =>
    have hN : 0 ≤ ⌊t⌋ := Int.floor_nonneg.2 ht
    rw [h, abs_of_nonneg hN, abs_of_nonneg ht]
    exact ⟨rfl, mul_nonneg (by exact_mod_cast hN) ht⟩
  · next ht =>
    have ht' := (not_le.1 ht).le
    have hN : ⌈t⌉ ≤ 0 := Int.ceil_le.2 (by exact_mod_cast ht')
    rw [h, abs_of_nonpos hN, abs_of_nonpos ht', Int.floor_neg]
    exact ⟨rfl, mul_nonneg_of_nonpos_of_nonpos (by exact_mod_cast hN) ht'⟩

/-- Rounding in units of `s` to an integer is rounding to a format that has no value between the neighbours (R229, R230). -/
theorem roundsTo_of_grid {f rm r : Nat} {s t : ℝ} {N : Int} (hs : 0 < s) (hround : IntRounds rm t N) (hval : fpReal f r = some (N * s))
    (heven : N % 2 = 0 → r % 2 = 0) (hgrid : ∀ y w, fpReal f y = some w → OnGrid s t w) : RoundsTo f rm (t * s) r := by
  refine ⟨_, hval, ?_⟩
  match rm with
  | 0 =>
    intro y w _ hw
    have hz : |(N : ℝ) * s - t * s| = |(N : ℝ) - t| * s := by rw [← sub_mul, abs_mul, abs_of_pos hs]
    obtain ⟨j, hj⟩ := (hgrid y w hw).exists_between hs
    obtain ⟨hnear, htie⟩ := nearest_int hround j
    have hmul : |(N : ℝ) - t| * s ≤ |(j : ℝ) - t| * s := by gcongr
    have hpos := abs_nonneg (w - j * s)
    rw [hz, hj]
    refine ⟨by linarith, fun heq => ?_⟩
    have hw0 : w = j * s := sub_eq_zero.1 (abs_eq_zero.1 (by linarith))
    obtain rfl | hN := htie (mul_right_cancel₀ hs.ne' (by linarith))
    · exact .inl hw0
    · exact .inr (heven hN)
  | 1 =>
    obtain ⟨hmag, hsign⟩ := toward_zero_int hround
    have hz : |(N : ℝ) * s| = ⌊|t|⌋ * s := by rw [abs_mul, abs_of_pos hs, ← Int.cast_abs, hmag]
    have hq : |t * s| = |t| * s := by rw [abs_mul, abs_of_pos hs]
    rw [hz, hq]
    refine ⟨by gcongr; exact Int.floor_le _, ?_, fun y w _ hw hle => ((hgrid y w hw).abs hs).le_floor hs hle⟩
    calc 0 ≤ (N * t) * (s * s) := mul_nonneg hsign (mul_pos hs hs).le
      _ = N * s * (t * s) := by ring
  | 2 =>
    obtain rfl : N = ⌈t⌉ := hround
    exact ⟨by gcongr; exact Int.le_ceil t, fun y w _ hw hle => (hgrid y w hw).ceil_le hs hle⟩
  | _ + 3 =>
    obtain rfl : N = ⌊t⌋ := hround
    exact ⟨by gcongr; exact Int.floor_le t, fun y w _ hw hle => (hgrid y w hw).le_floor hs hle⟩

/-- An integer to which a number rounds is one of the two next to it. -/
theorem intRounds_floor_or_ceil {rm : Nat} {t : ℝ} {N : Int} (h : IntRounds rm t N) : N = ⌊t⌋ ∨ N = ⌈t⌉ := by
  match rm with
  | 0 =>
    have hhalf := abs_le.1 h.1
    obtain hle | hle := le_total (N : ℝ) t
    · exact .inl (eq_comm.1 (Int.floor_eq_iff.2 ⟨hle, by linarith⟩))
    · exact .inr (eq_comm.1 (Int.ceil_eq_iff.2 ⟨by linarith, hle⟩))
  | 1 =>
    simp only [IntRounds] at h
    split at h
    · exact .inl h
    · exact .inr h
  | 2 => exact .inr h
  | _ + 3 => exact .inl h

/-- Rounding to an integer does not cross an integer. -/
theorem intRounds_natAbs {rm : Nat} {t : ℝ} {N : Int} (h : IntRounds rm t N) (p : Nat) :
    (|t| ≤ p → N.natAbs ≤ p) ∧ ((p : ℝ) ≤ |t| → p ≤ N.natAbs) := by
  have hfc := Int.floor_le_ceil t
  constructor
  · intro hp
    have hlo : -(p : Int) ≤ ⌊t⌋ := Int.le_floor.2 (by push_cast; exact (abs_le.1 hp).1)
    have hhi : ⌈t⌉ ≤ p := Int.ceil_le.2 (by push_cast; exact (abs_le.1 hp).2)
    obtain rfl | rfl := intRounds_floor_or_ceil h <;> omega
  · intro hp
    obtain ht | ht := le_abs'.1 hp
    · have hhi : ⌈t⌉ ≤ -(p : Int) := Int.ceil_le.2 (by push_cast; exact ht)
      obtain rfl | rfl := intRounds_floor_or_ceil h <;> omega
    · have hlo : (p : Int) ≤ ⌊t⌋ := Int.le_floor.2 (by push_cast; exact ht)
      obtain rfl | rfl := intRounds_floor_or_ceil h <;> omega

/-! ### Rounding into a format -/

/-- The exponent of the grid on which `m · 2^e` is rounded: that of its last place, or of the least value of the format. -/
def gridExp (f m : Nat) (e : Int) : Int := max (e + Nat.log2 m - fracBits f) (leastExp f)

/-- Within the range of the format, the rounded significand is put after the binades below its grid (R229, R235). -/
theorem fpRound_eq {f m : Nat} (hm : m ≠ 0) (rm : Nat) (neg : Bool) (e : Int) :
    let r := roundQ rm neg m e (gridExp f m e)
    let b := (gridExp f m e - leastExp f).toNat * 2 ^ fracBits f + r.1
    b ≤ fmtMax f → ∃ tiny : Bool, fpRound f rm false false neg m e =
      ⟨signBit f neg + b, (if r.2 then fNX else 0) + (if r.2 && tiny then fUF else 0)⟩ := by
  obtain ⟨⟨eb, fb, bias⟩, hs⟩ : ∃ s, fmtShape f = s := ⟨_, rfl⟩
  have hq : gridExp f m e = max (e + Nat.log2 m) (1 - bias) - fb := by
    simp only [gridExp, fracBits, leastExp, hs, max_sub_sub_right]
  have hk : max (e + Nat.log2 m : Int) (1 - bias) - fb - leastExp f = max (e + Nat.log2 m : Int) (1 - bias) - fb + fb + bias - 1 := by
    simp only [leastExp, hs]; ring
  intro r b hb
  rw [← not_lt] at hb
  simp only [b, r, hk, hq, fracBits, hs] at hb ⊢
  simp only [fpRound, hs, if_neg hm, Bool.false_and, Bool.false_eq_true, if_false, if_neg hb]
  exact ⟨_, rfl⟩

/-- In units of its grid a nonzero number has at most one bit above the fraction, and has that bit unless the grid is that of the least
value. -/
theorem abs_grid_bounds {f m : Nat} (hm : m ≠ 0) (neg : Bool) (e : Int) :
    |(signedM neg m : ℝ) * 2 ^ (e - gridExp f m e)| ≤ (2 ^ (fracBits f + 1) : Nat) ∧
      (gridExp f m e = leastExp f ∨ ((2 ^ fracBits f : Nat) : ℝ) ≤ |(signedM neg m : ℝ) * 2 ^ (e - gridExp f m e)|) := by
  have hlo : ((2 : ℝ) ^ (Nat.log2 m : Int)) ≤ m := by exact_mod_cast Nat.log2_self_le hm
  have hhi : (m : ℝ) ≤ 2 ^ (Nat.log2 m + 1 : Int) := by exact_mod_cast (Nat.lt_log2_self (n := m)).le
  rw [abs_mul, abs_signedM, abs_of_pos (by positivity : (0 : ℝ) < 2 ^ (e - gridExp f m e))]
  constructor
  · calc (m : ℝ) * 2 ^ (e - gridExp f m e) ≤ 2 ^ (Nat.log2 m + 1 : Int) * 2 ^ ((fracBits f : Int) - Nat.log2 m) := by
          have hle : e - gridExp f m e ≤ fracBits f - Nat.log2 m := by
            have := le_max_left (e + Nat.log2 m - fracBits f) (leastExp f)
            unfold gridExp
            omega
          exact mul_le_mul hhi (zpow_le_zpow_right₀ one_le_two hle) (by positivity) (by positivity)
      _ = (2 ^ (fracBits f + 1) : Nat) := by
          rw [← zpow_add₀ two_ne_zero]; push_cast; rw [← zpow_natCast]; congr 1; push_cast; ring
  · obtain hmax | hmax := max_choice (e + Nat.log2 m - fracBits f) (leastExp f)
    · right
      calc ((2 ^ fracBits f : Nat) : ℝ) = 2 ^ (Nat.log2 m : Int) * 2 ^ (e - gridExp f m e) := by
            rw [← zpow_add₀ two_ne_zero, gridExp, hmax]; push_cast; rw [← zpow_natCast]; congr 1; ring
        _ ≤ m * 2 ^ (e - gridExp f m e) := by gcongr
    · exact .inl hmax

/-- Every finite value of a format is a multiple of a grid of the format, or nearer zero than a number of a full significand. -/
theorem onGrid_of_fpReal {f y : Nat} {w t : ℝ} {q : Int} (hw : fpReal f y = some w)
    (ht : q = leastExp f ∨ ((2 ^ fracBits f : Nat) : ℝ) ≤ |t|) : OnGrid (2 ^ q) t w := by
  obtain ⟨n, m, e, hdec, rfl⟩ := fpReal_eq_some_iff.1 hw
  obtain ⟨hm, he⟩ := fpDecode_fin_bounds hdec
  obtain hq | hq := le_or_gt q e
  · obtain ⟨k, hk⟩ := Int.eq_ofNat_of_zero_le (sub_nonneg.2 hq)
    refine .inl ⟨signedM n m * 2 ^ k, ?_⟩
    rw [show e = (k : Int) + q by omega, zpow_add₀ two_ne_zero, zpow_natCast]
    push_cast
    ring
  · refine .inr ⟨2 ^ fracBits f, ?_, ht.resolve_left (by omega)⟩
    rw [abs_mul, abs_signedM, abs_of_pos (by positivity : (0 : ℝ) < 2 ^ e)]
    calc (m : ℝ) * 2 ^ e ≤ (2 ^ (fracBits f + 1) : Nat) * 2 ^ (q - 1) := by
          gcongr
          · norm_num
          · omega
      _ = (2 ^ fracBits f : Nat) * 2 ^ q := by rw [zpow_sub_one₀ two_ne_zero]; push_cast; ring

/-- A number not beyond the largest finite value is not rounded beyond it, since that lies on the grid. -/
theorem ceil_grid_le_fpLargest {f : Nat} {t : ℝ} {q : Int} (hf : f < 12) (hfp : isIntFmt f = false)
    (ht : q = leastExp f ∨ ((2 ^ fracBits f : Nat) : ℝ) ≤ |t|) (hle : |t * 2 ^ q| ≤ fpLargest f) : ⌈|t|⌉ * 2 ^ q ≤ fpLargest f := by
  have hq : (0 : ℝ) < 2 ^ q := by positivity
  have hgrid := (onGrid_of_fpReal (fpReal_fmtMax_eq_fpLargest hf hfp) ht).abs hq
  rw [abs_of_nonneg ((abs_nonneg _).trans hle)] at hgrid
  rw [abs_mul, abs_of_pos hq] at hle
  exact hgrid.ceil_le hq hle

theorem sign_and_binade_even : ∀ f < 12, isIntFmt f = false → ∀ neg, signBit f neg % 2 = 0 ∧ 2 ^ fracBits f % 2 = 0 := by decide

/-- A sign and whole binades keep the parity of the last place. -/
theorem pattern_even {f : Nat} (hf : f < 12) (hfp : isIntFmt f = false) (neg : Bool) (k : Nat) {N : Nat} (hN : signedM neg N % 2 = 0) :
    (signBit f neg + (k * 2 ^ fracBits f + N)) % 2 = 0 := by
  obtain ⟨hsign, hfrac⟩ := sign_and_binade_even f hf hfp neg
  have hN' : N % 2 = 0 := by cases neg <;> simp at hN <;> omega
  have hk : k * 2 ^ fracBits f % 2 = 0 := by rw [Nat.mul_mod, hfrac, Nat.mul_zero]
  omega

/-- The flags of a rounding: NX where it is inexact, and UF only with NX (R235). -/
theorem round_flags : ∀ nx tiny : Bool, let fl := (if nx then fNX else 0) + (if nx && tiny then fUF else 0)
    bit fl 0 = nx ∧ (bit fl 1 = true → bit fl 0 = true) ∧ fl < 4 := by decide

/-- A nonzero number not beyond the largest finite value is rounded once (R229, R230, R235). -/
theorem fpRound_rounded {f rm m : Nat} {neg : Bool} {e : Int} (hf : f < 12) (hfp : isIntFmt f = false) (hrm : rm < 4)
    (hm : m ≠ 0) (hle : |(signedM neg m : ℝ) * 2 ^ e| ≤ fpLargest f) :
    Rounded f rm (signedM neg m * 2 ^ e) (fpRound f rm false false neg m e) := by
  obtain ⟨hround, hinexact⟩ := roundQ_rounds hrm neg m e (gridExp f m e)
  obtain ⟨hhi, hlo⟩ := abs_grid_bounds (f := f) hm neg e
  have hq : leastExp f ≤ gridExp f m e := le_max_right _ _
  have hs : (0 : ℝ) < 2 ^ gridExp f m e := by positivity
  have hscale : (signedM neg m : ℝ) * 2 ^ e = signedM neg m * 2 ^ (e - gridExp f m e) * 2 ^ gridExp f m e := by
    rw [mul_assoc, ← zpow_add₀ two_ne_zero, sub_add_cancel]
  obtain ⟨k, hk⟩ := Int.eq_ofNat_of_zero_le (sub_nonneg.2 hq)
  have hres := fpRound_eq (f := f) hm rm neg e
  have hkq : (k : Int) + leastExp f = gridExp f m e := by omega
  simp only [hk, Int.toNat_natCast] at hres
  rw [hscale] at hle ⊢
  generalize (signedM neg m : ℝ) * 2 ^ (e - gridExp f m e) = t at *
  generalize roundQ rm neg m e (gridExp f m e) = r at *
  have hmag := intRounds_natAbs hround
  rw [natAbs_signedM] at hmag
  have hNlo : k = 0 ∨ 2 ^ fracBits f ≤ r.1 := hlo.imp (fun h => by omega) (hmag _).2
  have hNhi : r.1 ≤ 2 ^ (fracBits f + 1) := (hmag _).1 hhi
  have hceil : (r.1 : ℝ) ≤ ⌈|t|⌉ := by
    rw [← natCast_ceil_eq_intCast_ceil (abs_nonneg t)]
    exact_mod_cast (hmag ⌈|t|⌉₊).1 (Nat.le_ceil _)
  have hNmax : (r.1 : ℝ) * 2 ^ ((k : Int) + leastExp f) ≤ fpLargest f := by
    rw [hkq]
    exact (mul_le_mul_of_nonneg_right hceil hs.le).trans (ceil_grid_le_fpLargest hf hfp hlo hle)
  have hbmax := pattern_le_fmtMax hf hfp hNhi hNlo hNmax
  have hval := fpReal_pattern hf hfp neg hNhi hNlo hbmax
  rw [hkq] at hval
  obtain ⟨tiny, hres⟩ := hres hbmax
  obtain ⟨hnx, huf, hlt⟩ := round_flags r.2 tiny
  rw [hres]
  refine ⟨roundsTo_of_grid hs hround hval (pattern_even hf hfp neg k) fun y w hw => onGrid_of_fpReal hw hlo, ?_, huf, hlt⟩
  exact (Bool.eq_iff_iff.1 hnx).trans (hinexact.trans (by rw [hval, ne_eq, ne_eq, Option.some.injEq, mul_left_inj' hs.ne']))

/-! ### Conversions -/

/-- An integer clamped into a format (R245, R247). -/
theorem intClamp_eq (f : Nat) (z : Int) (nx : Bool) : intClamp f z nx =
    ⟨ofSigned (fmtWidth f) (clampInto f z).1, if (clampInto f z).2 then fNV else if nx then fNX else 0⟩ := by
  unfold intClamp clampInto
  dsimp only
  split
  · rfl
  split <;> rfl

theorem ftzIn_false (f x : Nat) : ftzIn false f x = x := rfl

/-- A value that a format holds is rounded to itself, without a flag. -/
theorem rounded_self {f x : Nat} {q : ℝ} (rm : Nat) (h : fpReal f x = some q) : Rounded f rm q ⟨x, 0⟩ := by
  refine ⟨⟨q, h, ?_⟩, by simp [h, bit], by simp [bit], by norm_num⟩
  match rm with
  | 0 => exact fun y w _ _ => ⟨by simp, fun heq => .inl (by simpa [sub_eq_zero] using heq)⟩
  | 1 => exact ⟨le_rfl, mul_self_nonneg q, fun _ _ _ _ h => h⟩
  | 2 => exact ⟨le_rfl, fun _ _ _ _ h => h⟩
  | _ + 3 => exact ⟨le_rfl, fun _ _ _ _ h => h⟩

section
variable {src dst rm x : Nat} (hx : x < 2 ^ fmtWidth src)
include hx

/-- Between integer formats the value is clamped (R247). -/
theorem cvt_int_int (hsrc : isIntFmt src = true) (hdst : isIntFmt dst = true) : cvt src dst rm false false x =
    ⟨ofSigned (fmtWidth dst) (clampInto dst (intDecode src x)).1, if (clampInto dst (intDecode src x)).2 then fNV else 0⟩ := by
  simp [cvt, hsrc, hdst, Nat.mod_eq_of_lt hx, intClamp_eq]

/-- A NaN gives the integer 0 with NV (R245). -/
theorem cvt_nan_int (hsrc : isIntFmt src = false) (hdst : isIntFmt dst = true) (hnan : nanBits src x = true) :
    cvt src dst rm false false x = ⟨0, fNV⟩ := by
  simp only [cvt, hsrc, hdst, Nat.mod_eq_of_lt hx, ftzIn_false, cvtToInt]
  unfold nanBits at hnan
  cases hdec : fpDecode src x with
  | nan => rfl
  | inf => simp [hdec, FVal.isNan] at hnan
  | fin => simp [hdec, FVal.isNan] at hnan

/-- A finite number is rounded to an integer and clamped (R245). -/
theorem cvt_fp_int (hsrc : isIntFmt src = false) (hdst : isIntFmt dst = true) (hrm : rm < 4) {q : ℝ} (hq : fpReal src x = some q) :
    ∃ z, IntRounds rm q z ∧ cvt src dst rm false false x =
      ⟨ofSigned (fmtWidth dst) (clampInto dst z).1, if (clampInto dst z).2 then fNV else if (z : ℝ) = q then 0 else fNX⟩ := by
  obtain ⟨n, m, e, hdec, rfl⟩ := fpReal_eq_some_iff.1 hq
  obtain ⟨hround, hinexact⟩ := roundQ_rounds hrm n m e 0
  rw [sub_zero] at hround hinexact
  refine ⟨_, hround, ?_⟩
  simp only [cvt, hsrc, hdst, Nat.mod_eq_of_lt hx, ftzIn_false, cvtToInt, hdec, intClamp_eq, hinexact, ne_eq, ite_not]

/-- An integer is rounded once to floating point (R246). -/
theorem cvt_int_fp (hsrc : isIntFmt src = true) (hd : dst < 12) (hdst : isIntFmt dst = false) (hrm : rm < 4)
    (hne : intDecode src x ≠ 0) (hle : |(intDecode src x : ℝ)| ≤ fpLargest dst) :
    Rounded dst rm (intDecode src x) (cvt src dst rm false false x) := by
  have hv : (intDecode src x : ℝ) = (signedM (decide (intDecode src x < 0)) (intDecode src x).natAbs : ℝ) * 2 ^ (0 : Int) := by
    rw [signedM_natAbs, zpow_zero, mul_one]
  simp only [cvt, hsrc, hdst, Nat.mod_eq_of_lt hx]
  rw [hv] at hle ⊢
  exact fpRound_rounded hd hdst hrm (Int.natAbs_ne_zero.2 hne) hle

/-- A finite number is rounded once to another format, and kept in its own (R244, R248). -/
theorem cvt_fp_fp (hsrc : isIntFmt src = false) (hd : dst < 12) (hdst : isIntFmt dst = false) (hrm : rm < 4) {q : ℝ}
    (hq : fpReal src x = some q) (hne : q ≠ 0) (hle : |q| ≤ fpLargest dst) : Rounded dst rm q (cvt src dst rm false false x) := by
  obtain ⟨n, m, e, hdec, hval⟩ := fpReal_eq_some_iff.1 hq
  simp only [cvt, hsrc, hdst, Nat.mod_eq_of_lt hx, ftzIn_false, cvtFp, hdec]
  split
  · next heq =>
    subst heq
    rw [Nat.mod_eq_of_lt hx]
    exact rounded_self rm hq
  · have hm : m ≠ 0 := by
      rintro rfl
      exact hne (by simp [hval])
    subst hval
    exact fpRound_rounded hd hdst hrm hm hle

end

/-- Settles O6: between integer formats a conversion is one clamp (`cvt_int_int`), to an integer it is one rounding on the grid of the
integers (`roundQ_rounds`) and one clamp, and to floating point one rounding on the grid of the format, on which the format has no value
between the two neighbours of the exact result (`fpRound_rounded`). -/
theorem conversionsRoundAndClamp : Obligations.ConversionsRoundAndClamp := by
  intro src dst rm x _ hd hrm hx
  simp only [Bool.not_eq_true]
  exact ⟨fun hs ht => cvt_int_int hx hs ht, fun hs ht => ⟨cvt_nan_int hx hs ht, fun _ hq => cvt_fp_int hx hs ht hrm hq⟩,
    fun hs ht hle hne => cvt_int_fp hx hs hd ht hrm hne hle, fun hs ht _ hq hne hle => cvt_fp_fp hx hs hd ht hrm hq hne hle⟩

end Sys2Proof.Machine
end

section
/-! The host port: what an open BAR lets through, the fields of an entry of an MSI-X table, the sending of pending messages, and O30. -/

namespace Sys2Proof.Machine

open Sys2Proof.Claims

/-! ### Requests to an open BAR -/

theorem barWrite_open {d : Dev} {fn : Nat} (h : d.barGate fn = 0) (bar off len : Nat) (f : Dev → Dev) :
    d.barWrite fn bar off len f = f d := by
  simp only [Dev.barWrite, h]

theorem barRead_open {d : Dev} {fn : Nat} (h : d.barGate fn = 0) (bar off len : Nat) (f : Dev → Dev) :
    d.barRead fn bar off len f = f d := by
  simp only [Dev.barRead, h]

@[simp] theorem poisoned_clean (d : Dev) (h : TlpHeader) : d.poisoned h false = d := rfl

/-- A poisoned TLP is counted and reported through AER (Table 11.13), and nothing of it is used. -/
theorem poisoned_rest (d : Dev) (h : TlpHeader) (ep : Bool) :
    (d.poisoned h ep).prec = d.prec ∧ (d.poisoned h ep).dict = d.dict ∧ (d.poisoned h ep).mem = d.mem := by
  cases ep with
  | false => exact ⟨rfl, rfl, rfl⟩
  | true => simp [Dev.poisoned]

@[simp] theorem queue_oinc (d : Dev) (k j : Nat) : (d.oinc k).queue j = d.queue j := rfl

theorem oget_poisoned (d : Dev) (h : TlpHeader) (ep : Bool) (k : Nat) :
    (d.poisoned h ep).oget k = if ep = true ∧ k = O.HOST_POISON_RECEIVED then d.oget k + 1 else d.oget k := by
  cases ep with
  | false => simp
  | true =>
    rw [Dev.poisoned, if_pos rfl, oget_congr (Dev.aer_objs _ _ _ _), oget_oinc]
    by_cases hk : k = O.HOST_POISON_RECEIVED <;> simp [hk]

/-! ### Commands of the host whose BAR is open -/

theorem exec_doorbell_open {s : State} {owner q v : Nat} (ho : owner ≤ 256) (hq : q < 16) (hv : v < 2 ^ 32)
    (h : s.dev.barGate (fnOf owner) = 0) :
    exec (.doorbell owner q v false) s =
      .next { s with dev := (s.dev.onQueue (16 * owner + q) fun x => { x with latch := some v }).oinc O.DOORBELLS } := by
  change s.runIf _ _ = _
  rw [runIf_next _ (by simpa [ho, hq] using hv), Dev.doorbell, barWrite_open h]
  rfl

theorem exec_bar0Read_open {s : State} {fn off size : Nat} (hf : fn ≤ 256) (hs : 0 < size) (hs' : size ≤ 4096)
    (h : s.dev.barGate fn = 0) : exec (.barRead fn 0 off size) s = .next { s with dev := s.dev.bar0Read fn off size } := by
  change s.runIf _ _ = _
  rw [runIf_next _ (by simp [hf, hs, hs']), Dev.hostBarRead, barRead_open h]
  rfl

theorem exec_pfBar2Read_open {s : State} {off n : Nat} (ho : off < 2 ^ 39) (hn : 0 < n) (hn' : n ≤ 4096) (h : s.dev.barGate 0 = 0) :
    exec (.pfBar2Access false off [] n false) s = .next { s with dev := s.dev.bar2Read off n } := by
  change s.runIf _ _ = _
  rw [runIf_next _ (by simpa [hn, hn'] using ho), if_neg Bool.false_ne_true, barRead_open h]

theorem exec_pfBar2Write_open {s : State} {off : Nat} {bs : List Byte} (ep : Bool) (ho : off < 2 ^ 39) (hn : 0 < bs.length)
    (hn' : bs.length ≤ 4096) (h : s.dev.barGate 0 = 0) :
    exec (.pfBar2Access true off bs bs.length ep) s = .next { s with dev := s.dev.bar2Write off bs ep } := by
  change s.runIf _ _ = _
  rw [runIf_next _ (by simpa [hn, hn'] using ho), if_pos rfl, barWrite_open h]

/-- A write of BAR0 of a size that no register has. -/
theorem exec_bar0Discard_open {s : State} {fn off size : Nat} (ep : Bool) (hf : fn ≤ 256) (hs : 0 < size) (hs' : size ≤ 4096)
    (h : s.dev.barGate fn = 0) (h4 : size ≠ 4) (h8 : size ≠ 8) :
    exec (.bar0DiscardedWrite fn off size ep) s =
      .next { s with dev := (s.dev.poisoned ⟨fn, 0, 1, 0, off, size⟩ ep).oinc O.BAR_MISUSE } := by
  change s.runIf _ _ = _
  rw [runIf_next _ (by simp [hf, hs, hs']), Dev.bar0Discard, if_neg (by simp [inTable, inPba, h4, h8]), barWrite_open h]

/-! ### Entries of an MSI-X table -/

@[simp] theorem setBits_mod_field (x lo n v : Nat) : setBits x lo n (v % 2 ^ n) = setBits x lo n v := by
  simp [setBits]

theorem msixOf_setData (w v : Nat) : msixOf (setBits w 64 32 v) = { msixOf w with data := v % 2 ^ 32 } := by
  have haddr : bits (setBits w 64 32 v) 2 62 = bits w 2 62 := by unfold bits setBits; omega
  have hdata : bits (setBits w 64 32 v) 64 32 = v % 2 ^ 32 := by unfold bits setBits; omega
  have hmask : bit (setBits w 64 32 v) 96 = bit w 96 := by unfold bit setBits; congr 2; omega
  simp only [msixOf, haddr, hdata, hmask]

/-- The mask is bit 0 of the vector control, the last word of an entry. -/
theorem msixOf_setControl_masked (w v : Nat) : (msixOf (setBits w 96 32 v)).masked = decide (v % 2 = 1) := by
  have hmask : setBits w 96 32 v / 2 ^ 96 % 2 = v % 2 := by unfold setBits; omega
  simp only [msixOf, bit, hmask]

/-- The offset of a word of a vector's entry in BAR0. -/
def entryWordAt (fn vec off : Nat) : Nat := msixBase fn + 16 * vec + off

section
variable {fn vec off : Nat} (hvec : vec < vectorsOf fn) (hoff : off = 0 ∨ off = 4 ∨ off = 8 ∨ off = 12)
include hoff

theorem entryWord_split : (entryWordAt fn vec off - msixBase fn) / 16 = vec ∧ (entryWordAt fn vec off - msixBase fn) % 16 = off := by
  unfold entryWordAt; omega

include hvec

theorem inTable_entryWord : inTable fn (entryWordAt fn vec off) 4 = true := by
  have hbase : msixBase fn % 4 = 0 := by unfold msixBase; split <;> rfl
  unfold inTable entryWordAt
  simp only [Bool.and_eq_true, Bool.or_eq_true, decide_eq_true_eq, true_or, true_and]
  omega

theorem entryWord_inPage : msixBase fn ≤ entryWordAt fn vec off ∧ entryWordAt fn vec off < pbaBase fn + pbaSize fn := by
  by_cases h0 : fn = 0
  · simp only [vectorsOf, entryWordAt, msixBase, pbaBase, pbaSize, if_pos h0] at hvec ⊢
    omega
  · simp only [vectorsOf, entryWordAt, msixBase, pbaBase, pbaSize, if_neg h0] at hvec ⊢
    omega

theorem msixRead_entryWord (d : Dev) :
    d.msixRead fn (entryWordAt fn vec off) 4 = bits ((d.func fn).entry vec).word (8 * off) 32 := by
  obtain ⟨hdiv, hmod⟩ := entryWord_split hoff (fn := fn) (vec := vec)
  simp only [Dev.msixRead, inTable_entryWord hvec hoff, if_true, hdiv, hmod]

theorem msixWrite_entryWord (d : Dev) (v : Nat) : d.msixWrite fn (entryWordAt fn vec off) 4 v = d.msixPut fn vec off 4 v := by
  obtain ⟨hdiv, hmod⟩ := entryWord_split hoff (fn := fn) (vec := vec)
  simp only [Dev.msixWrite, inTable_entryWord hvec hoff, if_true, hdiv, hmod]

theorem exec_msixRead_open {s : State} (hf : fn ≤ 256) (h : s.dev.barGate fn = 0) (v : Nat) :
    exec (.msixTableAccess fn false (entryWordAt fn vec off) 4 v) s =
      .next { s with dev := s.dev.emit (completes fn 4 (bits ((s.dev.func fn).entry vec).word (8 * off) 32)) } := by
  change s.runIf _ _ = _
  rw [runIf_next _ (by simp [hf, entryWord_inPage hvec hoff]), if_neg Bool.false_ne_true, barRead_open h, inTable_entryWord hvec hoff,
    Bool.true_or, if_pos rfl, msixRead_entryWord hvec hoff]
  rfl

theorem exec_msixWrite_open {s : State} (hf : fn ≤ 256) (h : s.dev.barGate fn = 0) (v : Nat) :
    exec (.msixTableAccess fn true (entryWordAt fn vec off) 4 v) s = .next { s with dev := s.dev.msixPut fn vec off 4 v } := by
  change s.runIf _ _ = _
  rw [runIf_next _ (by simp [hf, entryWord_inPage hvec hoff]), if_pos rfl, barWrite_open h, msixWrite_entryWord hvec hoff]

end

theorem exec_msixUnmask_open {s : State} {fn vec : Nat} (hf : fn ≤ 256) (hvec : vec < vectorsOf fn) (h : s.dev.barGate fn = 0) :
    exec (.msixUnmask fn vec) s = .next { s with dev := s.dev.msixPut fn vec 12 4 0 } := by
  change s.runIf _ _ = _
  rw [runIf_next _ (by simp [hf, hvec]), barWrite_open h]

/-! ### Pending messages -/

/-- Sending messages changes no entry of a table. -/
theorem entry_msixFlush (d : Dev) (fn j u : Nat) : ((d.msixFlush fn).func j).entry u = (d.func j).entry u := by
  have hsent (e : Dev) (l : List Nat) : (l.foldl (fun (e : Dev) v => e.sendMsix fn v) e).func j = e.func j :=
    foldl_still (·.func j) (fun e v => e.sendMsix fn v) (fun _ _ => rfl) l e
  unfold Dev.msixFlush
  split
  · rfl
  · dsimp only
    rw [hsent, func_setFunc]
    split
    next h => rw [h]; rfl
    · rfl

/-- An entry after some bytes of a vector's entry are written. -/
theorem entry_msixPut (d : Dev) (fn vec off size v u : Nat) :
    ((d.msixPut fn vec off size v).func fn).entry u =
      if u = vec then msixOf (setBits ((d.func fn).entry vec).word (8 * off) (8 * size) v) else (d.func fn).entry u := by
  rw [Dev.msixPut, entry_msixFlush, func_setFunc, if_pos rfl, setBits_mod_field]
  exact dget_dset _ _ _ _ _

/-- The device with `t` as the MSI-X table of function `fn`. -/
def Dev.withTable (d : Dev) (fn : Nat) (t : List (Nat × MsixEntry)) : Dev := d.setFunc fn { d.func fn with table := t }

/-- Nothing of a table holds back a function's messages as a whole. -/
theorem msixOpen_withTable (d : Dev) (fn : Nat) (t : List (Nat × MsixEntry)) : (d.withTable fn t).msixOpen fn = d.msixOpen fn := by
  simp only [Dev.msixOpen, Dev.funcState, Dev.withTable, func_setFunc, if_pos]
  rfl

/-- One pending vector that is not masked is sent, and none is pending then (R530). -/
theorem msixFlush_single {d : Dev} {fn vec : Nat} (hopen : d.msixOpen fn = true) (hpba : (d.func fn).pba = [vec])
    (hmask : ((d.func fn).entry vec).masked = false) :
    d.msixFlush fn = (d.setFunc fn { d.func fn with pba := [] }).sendMsix fn vec := by
  simp [Dev.msixFlush, hopen, hpba, hmask]

/-- Clearing the mask bit of the only pending vector sends its message. -/
theorem msixPut_unmask_sends {d : Dev} {fn vec : Nat} (hopen : d.msixOpen fn = true) (hpba : (d.func fn).pba = [vec]) :
    ((d.msixPut fn vec 12 4 0).func fn).pba = [] ∧ ∃ a v, (d.msixPut fn vec 12 4 0).out = .msix fn vec a v :: d.out := by
  have hput : d.msixPut fn vec 12 4 0 =
      (d.withTable fn (dset ⟨0, 0, true⟩ (d.func fn).table vec (msixOf (setBits ((d.func fn).entry vec).word 96 32 0)))).msixFlush fn := rfl
  rw [hput, msixFlush_single (by rw [msixOpen_withTable, hopen])]
  · exact ⟨by simp [Dev.sendMsix, Dev.emit, Dev.func, Dev.setFunc], _, _, rfl⟩
  · rw [Dev.withTable, func_setFunc, if_pos rfl, hpba]
  · rw [Dev.withTable, func_setFunc, if_pos rfl, Func.entry, dget_dset_same, msixOf_setControl_masked]
    rfl

/-! ### The ring aperture -/

/-- The bytes of a write from `va` put where their pieces lie in device memory. -/
def Dev.ringWrite (d : Dev) (t va : Nat) (bs : List Byte) (ps : List (TRes × Nat × Nat)) : Dev :=
  ps.foldl (fun (d : Dev) p =>
    match p.1 with
    | .dev _ w x => d.winWrite 258 t w x ((bs.drop (p.2.1 - va)).take p.2.2) false
    | _ => d) d

/-- A write inside the ring of a queue, whose window and pages permit it, writes each of its pieces (R521). -/
theorem exec_vfBar2Write_open {s : State} {t off : Nat} {bs : List Byte} {d : Dev} {ps : List (TRes × Nat × Nat)} (ht : t < 256)
    (ho : off < 2 ^ 24) (hn : 0 < bs.length) (hn' : bs.length ≤ 4096) (h : s.dev.barGate (t + 1) = 0)
    (hring : off % 2 ^ 20 + bs.length ≤ 64 * (s.dev.queue (16 * t + off / 2 ^ 20)).pqSlots) (hap : off % 2 ^ 20 + bs.length ≤ 2 ^ 20)
    (hps : s.dev.ringPieces t ((s.dev.queue (16 * t + off / 2 ^ 20)).pqBase + off % 2 ^ 20) bs.length = (d, some ps)) :
    exec (.vfBar2Write t off bs false) s =
      .next { s with dev := d.ringWrite t ((s.dev.queue (16 * t + off / 2 ^ 20)).pqBase + off % 2 ^ 20) bs ps } := by
  change s.runIf _ _ = _
  rw [runIf_next _ (by simpa [ht, hn, hn'] using ho), Dev.apertureWrite, barWrite_open h]
  dsimp only [poisoned_clean]
  rw [if_neg (by simp only [Bool.false_or, Bool.or_eq_true, decide_eq_true_eq]; omega), hps]
  rfl

/-! ### The obligation -/

/-- The latch of the queue holds the value, whatever it held, and every other queue is as before (R524). -/
theorem doorbell_latches {s : State} {owner q v : Nat} (ho : owner ≤ 256) (hq : q < 16) (hv : v < 2 ^ 32)
    (h : s.dev.barGate (fnOf owner) = 0) : ∃ d', exec (.doorbell owner q v false) s = .next { s with dev := d' } ∧
      d'.queue (16 * owner + q) = { s.dev.queue (16 * owner + q) with latch := some v } ∧
      (∀ k, k ≠ 16 * owner + q → d'.queue k = s.dev.queue k) ∧ d'.oget O.DOORBELLS = s.dev.oget O.DOORBELLS + 1 := by
  refine ⟨_, exec_doorbell_open ho hq hv h, ?_, fun k hk => ?_, oget_oinc_same _ _⟩
  · rw [queue_oinc, queue_onQueue, if_pos rfl]
  · rw [queue_oinc, queue_onQueue, if_neg hk]

theorem bar0Read_addr (d : Dev) (fn : Nat) : d.bar0Read fn 0 4 = d.emit (completes fn 4 (d.port fn).addr) := rfl

theorem bar0Read_doorbell (d : Dev) (fn : Nat) : d.bar0Read fn 0x10000 4 = d.emit (completes fn 4 0) := rfl

/-- Settles O30: an open BAR hands the request to what it addresses (the lemmas `exec_…_open`), and each clause reads what that does to the
latch of a queue, the completion, memory, the entry of a table (`entry_msixPut`), the pending messages (`msixPut_unmask_sends`) or the
counters. -/
theorem hostAccessesReachTheirRegisters : Obligations.HostAccessesReachTheirRegisters := by
  refine ⟨fun s owner q v => doorbell_latches, ?_, ?_, ?_, ?_, ?_, ?_, ?_⟩
  · intro s fn hf h
    rw [exec_bar0Read_open hf (by decide) (by decide) h, exec_bar0Read_open hf (by decide) (by decide) h, bar0Read_addr, bar0Read_doorbell]
    exact ⟨rfl, rfl⟩
  · intro s off n d1 bs po ho hn hn' h hin hreach hread
    rw [exec_pfBar2Read_open ho hn hn' h]
    simp [Dev.bar2Read, hin, hreach, hread]
  · rintro s off bs _ ho hn hn' h hin hreach rfl
    rw [exec_pfBar2Write_open _ ho hn hn' h]
    simp [Dev.bar2Write, hin, hreach]
  · intro s fn vec off hf hvec hoff h
    refine ⟨exec_msixRead_open hvec hoff hf h 0, fun v _ => ⟨_, exec_msixWrite_open hvec hoff hf h v, ?_, ?_, fun u hu => ?_⟩⟩
    · rintro rfl
      rw [entry_msixPut, if_pos rfl]
      exact msixOf_setData _ _
    · rintro rfl
      rw [entry_msixPut, if_pos rfl]
      exact msixOf_setControl_masked _ _
    · rw [entry_msixPut, if_neg hu]
  · intro s fn vec hf hvec h
    refine ⟨_, exec_msixUnmask_open hf hvec h, ?_, msixPut_unmask_sends⟩
    rw [entry_msixPut, if_pos rfl]
    exact msixOf_setControl_masked _ _
  · intro s fn off size ep hf hs hs' h h4 h8
    obtain ⟨hprec, hdict, hmem⟩ := poisoned_rest s.dev ⟨fn, 0, 1, 0, off, size⟩ ep
    refine ⟨_, exec_bar0Discard_open ep hf hs hs' h h4 h8, ?_, hprec, hdict, hmem, fun hep => ?_⟩
    · rw [oget_oinc_same, oget_poisoned, if_neg (fun hk => absurd hk.2 (by decide))]
    · rw [oget_oinc_ne _ (by decide), oget_poisoned, if_pos ⟨hep, rfl⟩]
  · intro s t off bs d1 ps ht ho hn hn' h hring hap va hps _
    exact exec_vfBar2Write_open ht ho hn hn' h hring hap hps

end Sys2Proof.Machine
end

section
/-! What the sending of messages can do to the error logs and to the objects of error handling: MSI-X events, AER reports and NOTIFY messages,
with the router that carries them. -/

namespace Sys2Proof.Machine

/-! ### A log that only grows -/

/-- Of the first 15 entries of a log each still stands among the first 15, at most marked as preempted, and the log has not grown
past 16 entries (R666). -/
structure ErrLog.Kept (l l' : ErrLog) : Prop where
  bound : l'.entries.length ≤ max 16 l.entries.length
  stands : ∀ x ∈ l.entries.take 15, ∃ p, { x with preempted := p } ∈ l'.entries.take 15

namespace ErrLog.Kept

theorem refl (l : ErrLog) : Kept l l := ⟨by omega, fun x hx => ⟨x.preempted, hx⟩⟩

theorem trans {l m n : ErrLog} (h : Kept l m) (g : Kept m n) : Kept l n := by
  refine ⟨by have := h.bound; have := g.bound; omega, fun x hx => ?_⟩
  obtain ⟨p, hp⟩ := h.stands x hx
  exact g.stands { x with preempted := p } hp

/-- A full log loses its 16th entry or a later one. -/
theorem write (l : ErrLog) (e : LogEntry) : Kept l (l.write e) := by
  unfold ErrLog.write
  dsimp only
  split
  · next h =>
    refine ⟨by simp; omega, fun x hx => ⟨x.preempted, ?_⟩⟩
    rw [List.take_append]
    exact List.mem_append_left _ hx
  · next h =>
    refine ⟨by simp, fun x hx => ⟨x.preempted, ?_⟩⟩
    rw [List.take_append, List.take_take]
    exact List.mem_append_left _ (by simpa using hx)

end ErrLog.Kept

/-- The entry is written with the log's sequence number. -/
theorem mem_write (l : ErrLog) (e : LogEntry) : { e with seq := l.seq } ∈ (l.write e).entries := by
  unfold ErrLog.write
  dsimp only
  split <;> simp

/-- In a log with room it stands among the entries that stay. -/
theorem mem_write_take {l : ErrLog} (e : LogEntry) (h : l.entries.length < 15) : { e with seq := l.seq } ∈ (l.write e).entries.take 15 := by
  rw [List.take_of_length_le]
  · exact mem_write l e
  · rw [ErrLog.write, if_pos (by omega)]
    simpa using h

/-! ### Devices between which messages were sent -/

/-- Only the twenty links of the chip are ever UP. -/
theorem lt_of_up {d : Dev} {l : Nat} (h : d.up l = true) : l < 20 := by
  simp only [Dev.up, Bool.and_eq_true, decide_eq_true_eq] at h
  exact h.1

/-- The least key of the objects of error handling, index 0x8000 (Table 14.11): what counts messages lies below it. -/
def handlingKeys : Nat := 2 ^ 55

/-- Between two devices the logs of the tenants are the same and ERR_LOG_256 has only grown. -/
structure LogsKept (d d' : Dev) : Prop where
  tenants : ∀ i, i ≠ 256 → d'.errLog i = d.errLog i
  kernel : (d.errLog 256).Kept (d'.errLog 256)

/-- Between two devices only messages were sent: no handling was queued and no object of error handling has changed. -/
structure Messaging (d d' : Dev) : Prop extends LogsKept d d' where
  queue : d'.logs.queue = d.logs.queue
  objects : ∀ k, handlingKeys ≤ k → d'.oget k = d.oget k

theorem LogsKept.trans {d e f : Dev} (h : LogsKept d e) (g : LogsKept e f) : LogsKept d f :=
  ⟨fun i hi => (g.tenants i hi).trans (h.tenants i hi), h.kernel.trans g.kernel⟩

theorem LogsKept.of_logs {d e : Dev} (h : e.logs.logs = d.logs.logs) : LogsKept d e := by
  have hlog : ∀ i, e.errLog i = d.errLog i := fun i => by simp only [Dev.errLog, h]
  exact ⟨fun i _ => hlog i, by rw [hlog]; exact .refl _⟩

namespace Messaging

theorem trans {d e f : Dev} (h : Messaging d e) (g : Messaging e f) : Messaging d f :=
  ⟨h.toLogsKept.trans g.toLogsKept, g.queue.trans h.queue, fun k hk => (g.objects k hk).trans (h.objects k hk)⟩

theorem refl (d : Dev) : Messaging d d := ⟨.of_logs rfl, rfl, fun _ _ => rfl⟩

section
variable {a d : Dev} (h : Messaging a d)
include h

/-- A step that leaves the logs and the objects alone. -/
theorem same {e : Dev} (hl : e.logs = d.logs := by rfl) (ho : e.objs = d.objs := by rfl) : Messaging a e :=
  h.trans ⟨.of_logs (by rw [hl]), by rw [hl], fun k _ => oget_congr ho k⟩

theorem oset {k : Nat} (v : Nat) (hk : k < handlingKeys) : Messaging a (d.oset k v) :=
  h.trans ⟨.of_logs rfl, rfl, fun j hj => oget_oset_ne d v (by omega)⟩

theorem oinc {k : Nat} (hk : k < handlingKeys) : Messaging a (d.oinc k) := h.oset _ hk

theorem emit (o : Out) : Messaging a (d.emit o) := h.same

theorem count (b u w n : Nat) : Messaging a (d.count b u w n) := h.same

theorem onLink (l : Nat) (f : Link → Link) : Messaging a (d.onLink l f) := h.same

theorem ite {p : Prop} [Decidable p] {e : Dev} (g : Messaging a e) : Messaging a (if p then d else e) := by
  split
  · exact h
  · exact g

/-- A NOTE is written to ERR_LOG_256 alone. -/
theorem logNote (c t eng addr : Nat) : Messaging a (d.logNote c t eng addr) := by
  refine h.trans ⟨⟨fun i hi => ?_, ?_⟩, rfl, fun k _ => oget_congr rfl k⟩
  · rw [Dev.logNote, errLog_writeLog, if_neg hi]
  · rw [Dev.logNote, errLog_writeLog, if_pos rfl]
    exact .write _ _

theorem foldl {α : Type} {f : Dev → α → Dev} (hf : ∀ d x, Messaging a d → Messaging a (f d x)) (l : List α) : Messaging a (l.foldl f d) := by
  induction l generalizing d with
  | nil => exact h
  | cons x l ih => exact ih (hf d x h)

theorem msix (fn vec : Nat) : Messaging a (d.msix fn vec) := by
  unfold Dev.msix
  exact ite (h.oinc (by decide)) (ite h.same h.same)

theorem aer (fn e : Nat) (x : Option TlpHeader) : Messaging a (d.aer fn e x) := h.same (Dev.aer_logs ..) (Dev.aer_objs ..)

/-! ### The router -/

/-- A flit is counted in an object of its link, index 0x7100 and up. -/
theorem flitOut {l : Nat} (hl : l < 20) (type vc : Nat) (body : List Byte) : Messaging a (d.flitOut l type vc body) := by
  have hkey : O.TX_FLITS l < handlingKeys := by simp only [O.TX_FLITS, okey, handlingKeys]; omega
  refine emit (ite (count (count ?_ ..) ..) ?_) _
  all_goals exact ite ((h.onLink l _).oinc hkey) (h.onLink l _)

theorem creditBack (l vc ded shr : Nat) : Messaging a (d.creditBack l vc ded shr) := ite h (h.onLink ..)

theorem packetOut {l : Nat} (hl : l < 20) (q : QPacket) : Messaging a (d.packetOut l q) :=
  ((h.onLink l _).foldl (fun _ _ g => g.flitOut hl _ _ _) _).creditBack ..

theorem pump (l f : Nat) : Messaging a (d.pump l f) := by
  induction f generalizing d with
  | zero => exact h
  | succ f ih =>
    unfold Dev.pump
    split
    · exact h
    · next hup =>
      have hl : l < 20 := lt_of_up (d := d) (by cases hu : d.up l <;> simp [hu] at hup ⊢)
      split
      · exact h
      · exact ih (h.packetOut hl _)

theorem settle (l f : Nat) : Messaging a (d.settle l f) := by
  induction f generalizing d with
  | zero => exact h
  | succ f ih =>
    unfold Dev.settle
    split
    · exact h
    · next hup => exact ite h (ih (h.flitOut (lt_of_up (d := d) (by simpa using hup)) _ _ _))

theorem queueOn (l vc input inVc ded shr : Nat) (p : FPacket) : Messaging a (d.queueOn l vc input inVc ded shr p) :=
  ((h.onLink l _).pump l _).foldl (fun _ i g => g.settle i 16) _

theorem dropCount (c r port : Nat) : Messaging a (d.dropCount c r port) := by
  have hd : Messaging a (d.oinc O.ROUTE_DROPS) := h.oinc (by decide)
  exact ite (logNote hd.same ..) hd

theorem sendError (p : FPacket) (c r port : Nat) : Messaging a (d.sendError p c r port) := by
  unfold Dev.sendError
  have hd : Messaging a (d.oinc O.ERROR_PACKETS) := h.oinc (by decide)
  refine ite h (ite hd.same ?_)
  split
  · exact hd.queueOn ..
  · exact h.oinc (by decide)

theorem route (input inVc ded shr : Nat) (p : FPacket) : Messaging a (d.route input inVc ded shr p) := by
  unfold Dev.route
  refine ite (((h.logNote ..).creditBack ..).settle ..) (ite ((creditBack h.same ..).settle ..) ?_)
  split
  · exact (h.count ..).queueOn ..
  · exact (((h.dropCount ..).sendError ..).creditBack ..).settle ..

/-! ### Messages of the chip -/

theorem takeCount : Messaging a d.takeCount.1 := by
  unfold Dev.takeCount
  split
  · exact h.same
  · exact (h.oset _ (k := O.CANTOR_BOOT) (by decide)).same

theorem inbox (m : CantorMsg) : Messaging a (d.inbox m) := ite (msix h.same ..) (h.oinc (by decide))

theorem hostMessage (m : CantorMsg) : Messaging a (d.hostMessage m) := by
  refine ite (h.inbox m) (ite (h.oinc (by decide)) (ite (inbox (oset ?_ _ (by decide)) m) (h.inbox m)))
  exact h.same

theorem trayAnswer (n : Nat) (m : CantorMsg) : Messaging a (d.trayAnswer n m) := by
  unfold Dev.trayAnswer
  split
  · exact h
  · refine ite h ?_
    dsimp only
    have hslot := fun f : Slot → Slot => ite (p := m.part = m.lastPart) (h.same (e := d.onSlot n f)) h
    split
    · exact (hslot _).emit _
    · exact (hslot _).same
    · exact ite (hslot _).same (hslot _).same
    · exact hslot _

theorem toTray (m : CantorMsg) : Messaging a (d.toTray m) := by
  have hd := h.emit (.cantor m)
  exact ite hd (ite (hd.trayAnswer ..) (ite hd.same hd))

theorem sendCantor (m : CantorMsg) : Messaging a (d.sendCantor m) := by
  have hd := h.takeCount.oinc (k := O.CANTOR_TX_MSGS) (by decide)
  exact ite h (ite (hd.hostMessage _) (ite (hd.toTray _) (hd.route ..)))

theorem notifySend (n : NotifyArg) (v key : Nat) : Messaging a (d.notifySend n v key) := by
  have hd := fun x => h.same (e := { d with dict := x })
  exact ite (hd _) (((hd _).sendCantor _).oinc (by decide))

theorem notifyOne (n : NotifyArg) (i : Nat) : Messaging a (d.notifyOne n i) := by
  unfold Dev.notifyOne
  refine ite h ?_
  dsimp only
  split
  · exact ite (oinc h.same (by decide)) (h.notifySend ..)
  · exact h.notifySend ..

theorem notify (n : NotifyArg) : Messaging a (d.notify n) := h.foldl (fun _ i g => g.notifyOne n i) _

end

end Messaging

end Sys2Proof.Machine
end

section
/-! The raising of an error in its parts (R665 to R676): what it logs, what it sends, what it counts, the handling it queues and the failure
of the device; and O52. -/

namespace Sys2Proof.Machine

open Sys2Proof.Claims

/-! ### The failure of the device -/

/-- A log with the entries of the teardowns in progress marked PREEMPTED. -/
def Dev.markLog (d : Dev) (l : ErrLog) : ErrLog :=
  { l with entries := l.entries.map fun e =>
      if e.teardown && d.logs.teardowns.any (fun t => t.tenant = e.owner) then { e with preempted := true } else e }

/-- The device that enters DEVICE_FAILED, before it reports so: ERR_LOG_256 marked, and the status and the cause set (R672, R676). -/
def Dev.stopped (d : Dev) (c t : Nat) : Dev :=
  Dev.oset (Dev.oset
    { d with logs := { d.logs with logs := d.logs.logs.map fun (p : Nat × ErrLog) => if p.1 = 256 then (p.1, d.markLog p.2) else p } }
    O.DEVICE_STATUS 1) O.DEVICE_CAUSE (c * 256 + t)

theorem deviceFail_failed {d : Dev} (h : d.failed = true) (c t : Nat) : d.deviceFail c t = d := by rw [Dev.deviceFail, if_pos h]

theorem deviceFail_running {d : Dev} (h : d.failed = false) (c t : Nat) :
    d.deviceFail c t = ((d.stopped c t).aer 0 0x16 none).notify ⟨7, c, t, 3, 0x8001, 0⟩ := by
  rw [Dev.deviceFail, if_neg (by simp [h])]
  rfl

/-- The report of the failure is messages. -/
theorem deviceFail_messaging {d : Dev} (h : d.failed = false) (c t : Nat) : Messaging (d.stopped c t) (d.deviceFail c t) := by
  rw [deviceFail_running h]
  exact ((Messaging.refl _).aer ..).notify _

/-- A map changed at its listed values, key by key. -/
theorem mget_map {α : Type} (f : Nat × α → Nat × α) (hf : ∀ p, (f p).1 = p.1) (m : List (Nat × α)) (k : Nat) :
    mget (m.map f) k = (mget m k).map fun v => (f (k, v)).2 := by
  induction m with
  | nil => rfl
  | cons p m ih =>
    obtain ⟨j, v⟩ := p
    have hj := hf (j, v)
    rw [List.map_cons, ← Prod.mk.eta (p := f (j, v)), hj]
    simp only [mget, ih]
    split
    · next h => subst h; rfl
    · rfl

theorem errLog_stopped (d : Dev) (c t i : Nat) :
    (d.stopped c t).errLog i = if i = 256 then d.markLog (d.errLog 256) else d.errLog i := by
  change (mget (d.logs.logs.map _) i).getD ErrLog.empty = _
  rw [mget_map _ (fun p => by split <;> rfl)]
  unfold Dev.errLog dget
  split
  · next h =>
    subst h
    cases mget d.logs.logs 256 <;> rfl
  · next h => cases mget d.logs.logs i <;> simp

/-- The marks change no more than their field of an entry. -/
theorem markLog_kept (d : Dev) (l : ErrLog) : l.Kept (d.markLog l) := by
  refine ⟨by simp [Dev.markLog], fun x hx => ?_⟩
  simp only [Dev.markLog, ← List.map_take, List.mem_map]
  by_cases hm : (x.teardown && d.logs.teardowns.any fun t => t.tenant = x.owner) = true
  · exact ⟨true, x, hx, if_pos hm⟩
  · exact ⟨x.preempted, x, hx, if_neg hm⟩

theorem stopped_kept (d : Dev) (c t : Nat) : LogsKept d (d.stopped c t) := by
  refine ⟨fun i hi => by rw [errLog_stopped, if_neg hi], ?_⟩
  rw [errLog_stopped, if_pos rfl]
  exact markLog_kept d _

/-- The failing of the device marks entries and sends messages. -/
theorem deviceFail_kept (d : Dev) (c t : Nat) : LogsKept d (d.deviceFail c t) := by
  cases h : d.failed with
  | true => rw [deviceFail_failed h]; exact .of_logs rfl
  | false => exact (stopped_kept d c t).trans (deviceFail_messaging h c t).toLogsKept

@[simp] theorem queue_deviceFail (d : Dev) (c t : Nat) : (d.deviceFail c t).logs.queue = d.logs.queue := by
  cases h : d.failed with
  | true => rw [deviceFail_failed h]
  | false => exact (deviceFail_messaging h c t).queue

/-- A device that runs fails with this cause; one that has failed keeps its own. -/
theorem oget_deviceFail (d : Dev) (c t : Nat) {k : Nat} (hk : handlingKeys ≤ k) : (d.deviceFail c t).oget k =
    if d.failed = true then d.oget k else if k = O.DEVICE_CAUSE then c * 256 + t else if k = O.DEVICE_STATUS then 1 else d.oget k := by
  cases h : d.failed with
  | true => rw [deviceFail_failed h, if_pos rfl]
  | false =>
    rw [(deviceFail_messaging h c t).objects k hk, Dev.stopped, oget_oset, oget_oset]
    rfl

theorem oget_deviceFail_ne (d : Dev) (c t : Nat) {k : Nat} (hk : handlingKeys ≤ k) (hc : k ≠ O.DEVICE_CAUSE) (hs : k ≠ O.DEVICE_STATUS) :
    (d.deviceFail c t).oget k = d.oget k := by
  rw [oget_deviceFail d c t hk, if_neg hc, if_neg hs, ite_self]

theorem status_deviceFail (d : Dev) (c t : Nat) : (d.deviceFail c t).oget O.DEVICE_STATUS = 1 := by
  rw [oget_deviceFail _ _ _ (by decide)]
  split
  · next h => simpa [Dev.failed] using h
  · rfl

theorem cause_deviceFail {d : Dev} (h : d.failed = false) (c t : Nat) : (d.deviceFail c t).oget O.DEVICE_CAUSE = c * 256 + t := by
  rw [oget_deviceFail _ _ _ (by decide), h]
  rfl

/-! ### The parts of an error's raising -/

namespace Err

/-- The error is folded into the teardown of its tenant (R671). -/
def folds (d : Dev) (e : Err) : Bool := e.sev = .contained && e.owner < 256 && d.tearing e.owner

/-- The error finds 64 handlings waiting (R673). -/
def escalates (d : Dev) (e : Err) : Bool := e.sev = .contained && e.owner < 256 && !e.folds d && decide (64 ≤ d.logs.queue.length)

/-- The error queues a teardown (R669). -/
def starts (d : Dev) (e : Err) : Bool := e.sev = .contained && e.owner < 256 && !e.folds d && !e.escalates d

/-- The severity the error is handled with. -/
def handled (d : Dev) (e : Err) : Sev := if e.escalates d then .device else e.sev

/-- The error has the log of a present tenant (R665). -/
def owned (d : Dev) (e : Err) : Bool := e.owner < 256 && d.oget (O.TENANT_STATE e.owner) ≠ 0

/-- The entry of the error (Table 14.6). -/
def entry (d : Dev) (e : Err) : LogEntry :=
  ⟨d.time, e.node, e.graph, e.queue, e.owner, e.eng, e.addr, e.info, 0, e.folds d, e.escalates d, false, e.starts d, e.handled d, e.detail,
    e.cause⟩

/-- The handling of the error. -/
def handling (e : Err) : Handling := ⟨.contained, e.owner, e.cause, e.detail, 0, false, false⟩

end Err

/-- The log entries of an error are written (R665). -/
def Dev.raiseLogs (d : Dev) (e : Err) : Dev := Dev.writeLog (if e.owned d then d.writeLog e.owner (e.entry d) else d) 256 (e.entry d)

/-- Its vectors are raised and the controllers notified (R668, R868); `d` is the device that raised it. -/
def Dev.raiseTells (x d : Dev) (e : Err) : Dev :=
  let x := if e.owned d && !e.folds d then x.msix (e.owner + 1) 16 else x
  let x := if 2 ≤ (e.handled d).code && !e.folds d then x.msix 0 1 else x
  if 2 ≤ (e.handled d).code && !e.folds d then x.notify ⟨1, e.cause, e.detail, (e.handled d).code, 0x8010, 4⟩ else x

/-- It is counted. -/
def Dev.raiseCounts (x d : Dev) (e : Err) : Dev :=
  let x := if e.folds d then x.oinc O.FOLDED_ERRORS else x
  let x := if e.cause = 0x30 then x.oinc O.HOST_ACCESS_ERRORS else x
  if e.escalates d then x.oinc O.ESCALATIONS else x

/-- Its handling is queued. -/
def Dev.raiseQueues (x d : Dev) (e : Err) : Dev :=
  if e.starts d then { x with logs := { x.logs with queue := x.logs.queue ++ [e.handling] } } else x

/-- What raising an error has made of the device when it may fail. -/
def Dev.raised (d : Dev) (e : Err) : Dev := (((d.raiseLogs e).raiseTells d e).raiseCounts d e).raiseQueues d e

theorem raise_eq (d : Dev) (e : Err) :
    d.raise e = if e.handled d = .device then (d.raised e).deviceFail e.cause e.detail else d.raised e := rfl

/-! ### The conditions on which it turns -/

section
variable {d : Dev} {e : Err}

theorem folds_iff : e.folds d = true ↔ e.sev = .contained ∧ e.owner < 256 ∧ d.tearing e.owner = true := by
  simp [Err.folds, and_assoc]

theorem escalates_iff :
    e.escalates d = true ↔ e.sev = .contained ∧ e.owner < 256 ∧ d.tearing e.owner = false ∧ 64 ≤ d.logs.queue.length := by
  unfold Err.escalates Err.folds
  by_cases hs : e.sev = .contained <;> by_cases ho : e.owner < 256 <;> simp [hs, ho]

theorem starts_iff :
    e.starts d = true ↔ e.sev = .contained ∧ e.owner < 256 ∧ d.tearing e.owner = false ∧ d.logs.queue.length < 64 := by
  unfold Err.starts Err.escalates Err.folds
  by_cases hs : e.sev = .contained <;> by_cases ho : e.owner < 256 <;> cases ht : d.tearing e.owner <;> simp [hs, ho]

theorem handled_device_iff : e.handled d = .device ↔
    e.sev = .device ∨ (e.sev = .contained ∧ e.owner < 256 ∧ d.tearing e.owner = false ∧ 64 ≤ d.logs.queue.length) := by
  rw [← escalates_iff, Err.handled]
  split
  · next h => simp [h]
  · next h => simp [h]

theorem owned_iff : e.owned d = true ↔ e.owner < 256 ∧ d.oget (O.TENANT_STATE e.owner) ≠ 0 := by
  simp [Err.owned]

end

/-! ### What each part does -/

theorem raiseLogs_kernel (d : Dev) (e : Err) : (d.raiseLogs e).errLog 256 = (d.errLog 256).write (e.entry d) := by
  rw [Dev.raiseLogs, errLog_writeLog, if_pos rfl]
  split
  · next h => rw [errLog_writeLog, if_neg (by have := (owned_iff.1 h).1; omega)]
  · rfl

theorem raiseLogs_tenant {d : Dev} {e : Err} (h : e.owned d = true) :
    (d.raiseLogs e).errLog e.owner = (d.errLog e.owner).write (e.entry d) := by
  have ho := (owned_iff.1 h).1
  rw [Dev.raiseLogs, if_pos h, errLog_writeLog, if_neg (by omega), errLog_writeLog, if_pos rfl]

theorem raiseLogs_objs (d : Dev) (e : Err) : (d.raiseLogs e).objs = d.objs := by
  unfold Dev.raiseLogs
  split <;> rfl

theorem raiseLogs_queue (d : Dev) (e : Err) : (d.raiseLogs e).logs.queue = d.logs.queue := by
  unfold Dev.raiseLogs
  split <;> rfl

theorem raiseTells_messaging (x d : Dev) (e : Err) : Messaging x (x.raiseTells d e) := by
  have h := Messaging.refl x
  have h1 := (h.msix (e.owner + 1) 16).ite (p := (e.owned d && !e.folds d) = true) h
  have h2 := (h1.msix 0 1).ite (p := (decide (2 ≤ (e.handled d).code) && !e.folds d) = true) h1
  exact (h2.notify _).ite h2

theorem raiseCounts_logs (x d : Dev) (e : Err) : (x.raiseCounts d e).logs = x.logs := by
  unfold Dev.raiseCounts
  dsimp only
  split <;> split <;> split <;> rfl

theorem oget_oincIf (p : Prop) [Decidable p] (x : Dev) (j k : Nat) :
    (if p then x.oinc j else x).oget k = x.oget k + if k = j ∧ p then 1 else 0 := by
  by_cases hp : p <;> by_cases hk : k = j <;> simp [hp, hk, oget_oinc]

/-- Of the objects of error handling two counters count the error. -/
theorem oget_raiseCounts (x d : Dev) (e : Err) {k : Nat} (hk : handlingKeys ≤ k) : (x.raiseCounts d e).oget k =
    x.oget k + (if k = O.FOLDED_ERRORS ∧ e.folds d = true then 1 else 0) + if k = O.ESCALATIONS ∧ e.escalates d = true then 1 else 0 := by
  have hhost : k ≠ O.HOST_ACCESS_ERRORS := by rintro rfl; exact absurd hk (by decide)
  rw [Dev.raiseCounts, oget_oincIf, oget_oincIf, oget_oincIf, if_neg (fun h : k = O.HOST_ACCESS_ERRORS ∧ _ => hhost h.1), Nat.add_zero]

theorem raiseQueues_errLog (x d : Dev) (e : Err) : (x.raiseQueues d e).logs.logs = x.logs.logs := by
  unfold Dev.raiseQueues
  split <;> rfl

theorem raiseQueues_objs (x d : Dev) (e : Err) : (x.raiseQueues d e).objs = x.objs := by
  unfold Dev.raiseQueues
  split <;> rfl

theorem raiseQueues_queue (x d : Dev) (e : Err) :
    (x.raiseQueues d e).logs.queue = if e.starts d = true then x.logs.queue ++ [e.handling] else x.logs.queue := by
  unfold Dev.raiseQueues
  split <;> rfl

/-! ### What the raising does -/

theorem raised_kept (d : Dev) (e : Err) : LogsKept (d.raiseLogs e) (d.raised e) :=
  (raiseTells_messaging _ d e).toLogsKept.trans (.of_logs (by rw [Dev.raised, raiseQueues_errLog, raiseCounts_logs]))

theorem queue_raised (d : Dev) (e : Err) :
    (d.raised e).logs.queue = if e.starts d = true then d.logs.queue ++ [e.handling] else d.logs.queue := by
  rw [Dev.raised, raiseQueues_queue, raiseCounts_logs, (raiseTells_messaging _ d e).queue, raiseLogs_queue]

theorem oget_raised (d : Dev) (e : Err) {k : Nat} (hk : handlingKeys ≤ k) : (d.raised e).oget k =
    d.oget k + (if k = O.FOLDED_ERRORS ∧ e.folds d = true then 1 else 0) + if k = O.ESCALATIONS ∧ e.escalates d = true then 1 else 0 := by
  rw [Dev.raised, oget_congr (raiseQueues_objs _ d e), oget_raiseCounts _ d e hk, (raiseTells_messaging _ d e).objects k hk,
    oget_congr (raiseLogs_objs d e)]

theorem oget_raised_status (d : Dev) (e : Err) : (d.raised e).oget O.DEVICE_STATUS = d.oget O.DEVICE_STATUS := by
  rw [oget_raised d e (by decide), if_neg (fun h => absurd h.1 (by decide)), if_neg (fun h => absurd h.1 (by decide)), Nat.add_zero]

/-- After the entries of an error are written its raising only adds to ERR_LOG_256. -/
theorem raise_kept (d : Dev) (e : Err) : LogsKept (d.raiseLogs e) (d.raise e) := by
  rw [raise_eq]
  split
  · exact (raised_kept d e).trans (deviceFail_kept ..)
  · exact raised_kept d e

theorem queue_raise (d : Dev) (e : Err) :
    (d.raise e).logs.queue = if e.starts d = true then d.logs.queue ++ [e.handling] else d.logs.queue := by
  rw [raise_eq, ← queue_raised d e]
  split
  · exact queue_deviceFail ..
  · rfl

theorem folded_raise (d : Dev) (e : Err) :
    (d.raise e).oget O.FOLDED_ERRORS = d.oget O.FOLDED_ERRORS + if e.folds d = true then 1 else 0 := by
  have hraised : (d.raised e).oget O.FOLDED_ERRORS = d.oget O.FOLDED_ERRORS + if e.folds d = true then 1 else 0 := by
    rw [oget_raised d e (by decide), if_neg (fun h : O.FOLDED_ERRORS = O.ESCALATIONS ∧ _ => absurd h.1 (by decide)), Nat.add_zero]
    simp only [true_and]
  rw [raise_eq, ← hraised]
  split
  · exact oget_deviceFail_ne _ _ _ (by decide) (by decide) (by decide)
  · rfl

theorem fails_raise {d : Dev} {e : Err} (h : e.handled d = .device) :
    (d.raise e).oget O.DEVICE_STATUS = 1 ∧ (d.failed = false → (d.raise e).oget O.DEVICE_CAUSE = e.cause * 256 + e.detail) := by
  rw [raise_eq, if_pos h]
  refine ⟨status_deviceFail .., fun hf => cause_deviceFail ?_ _ _⟩
  rw [← hf, Dev.failed, Dev.failed, oget_raised_status]

theorem status_raise {d : Dev} {e : Err} (h : e.handled d ≠ .device) : (d.raise e).oget O.DEVICE_STATUS = d.oget O.DEVICE_STATUS := by
  rw [raise_eq, if_neg h, oget_raised_status]

/-! ### Entries that a reader of ERR_LOG_256 finds -/

/-- An entry written to ERR_LOG_256 while it held fewer than 15 is found there later. -/
theorem LogsKept.finds {d x y : Dev} {e : LogEntry} (h : LogsKept x y) (hw : x.errLog 256 = (d.errLog 256).write e)
    (hlen : (d.errLog 256).entries.length < 15) : ∃ p, { e with seq := (d.errLog 256).seq, preempted := p } ∈ (y.errLog 256).entries := by
  obtain ⟨p, hp⟩ := h.kernel.stands _ (hw ▸ mem_write_take e hlen)
  exact ⟨p, List.mem_of_mem_take hp⟩

theorem raise_kernel_bound (d : Dev) (e : Err) : ((d.raise e).errLog 256).entries.length ≤ max 16 (d.errLog 256).entries.length :=
  ((ErrLog.Kept.write (d.errLog 256) (e.entry d)).trans (raiseLogs_kernel d e ▸ (raise_kept d e).kernel)).bound

theorem raise_tenant_entry {d : Dev} {e : Err} (h : e.owned d = true) :
    { e.entry d with seq := (d.errLog e.owner).seq } ∈ ((d.raise e).errLog e.owner).entries := by
  have ho := (owned_iff.1 h).1
  rw [(raise_kept d e).tenants e.owner (by omega), raiseLogs_tenant h]
  exact mem_write _ _

/-! ### Escalation -/

/-- The entry of an error in the error-handling hardware (R674). -/
def escalatedEntry (d : Dev) (c : Nat) : LogEntry :=
  ⟨d.time, 0, 0, 0, 0x1FF, 0x3000, 0, 0, 0, false, true, false, false, .device, 0, c⟩

/-- The device that has logged such an error where it can. -/
def Dev.escalateLogs (d : Dev) (c : Nat) (logged : Bool) : Dev := if logged then d.writeLog 256 (escalatedEntry d c) else d

/-- The device that has told of it and counted it, before it fails. -/
def Dev.escalated (d : Dev) (c : Nat) (logged : Bool) : Dev :=
  (((d.escalateLogs c logged).msix 0 1).notify ⟨1, c, 0, Sev.device.code, 0x8010, 4⟩).oinc O.ESCALATIONS

theorem escalate_eq (d : Dev) (c : Nat) (logged : Bool) : d.escalate c logged = (d.escalated c logged).deviceFail c 0 := rfl

theorem escalateLogs_objs (d : Dev) (c : Nat) (logged : Bool) : (d.escalateLogs c logged).objs = d.objs := by
  cases logged <;> rfl

theorem escalateLogs_queue (d : Dev) (c : Nat) (logged : Bool) : (d.escalateLogs c logged).logs.queue = d.logs.queue := by
  cases logged <;> rfl

theorem escalateTells_messaging (d : Dev) (c : Nat) (logged : Bool) : Messaging (d.escalateLogs c logged)
    (((d.escalateLogs c logged).msix 0 1).notify ⟨1, c, 0, Sev.device.code, 0x8010, 4⟩) :=
  ((Messaging.refl _).msix 0 1).notify _

theorem oget_escalated (d : Dev) (c : Nat) (logged : Bool) {k : Nat} (hk : handlingKeys ≤ k) :
    (d.escalated c logged).oget k = d.oget k + if k = O.ESCALATIONS then 1 else 0 := by
  have htells := (escalateTells_messaging d c logged).objects
  rw [Dev.escalated, oget_oinc, htells k hk, htells _ (by decide), oget_congr (escalateLogs_objs d c logged),
    oget_congr (escalateLogs_objs d c logged)]
  split
  · next h => rw [h]
  · rfl

theorem escalate_kept (d : Dev) (c : Nat) (logged : Bool) : LogsKept (d.escalateLogs c logged) (d.escalate c logged) :=
  ((escalateTells_messaging d c logged).toLogsKept.trans (.of_logs (e := d.escalated c logged) rfl)).trans (deviceFail_kept ..)

theorem queue_escalate (d : Dev) (c : Nat) (logged : Bool) : (d.escalate c logged).logs.queue = d.logs.queue := by
  rw [escalate_eq, queue_deviceFail, ← escalateLogs_queue d c logged]
  exact (escalateTells_messaging d c logged).queue

theorem failed_escalated (d : Dev) (c : Nat) (logged : Bool) : (d.escalated c logged).failed = d.failed := by
  rw [Dev.failed, Dev.failed, oget_escalated _ _ _ (by decide), if_neg (by decide), Nat.add_zero]

theorem escalations_escalate (d : Dev) (c : Nat) (logged : Bool) : (d.escalate c logged).oget O.ESCALATIONS = d.oget O.ESCALATIONS + 1 := by
  have hcount : (d.escalated c logged).oget O.ESCALATIONS = d.oget O.ESCALATIONS + 1 := by
    rw [oget_escalated _ _ _ (by decide), if_pos rfl]
  rw [escalate_eq, oget_deviceFail_ne _ _ _ (by decide) (by decide) (by decide), hcount]

theorem cause_escalate {d : Dev} (h : d.failed = false) (c : Nat) (logged : Bool) :
    (d.escalate c logged).oget O.DEVICE_CAUSE = c * 256 := by
  rw [escalate_eq, cause_deviceFail ((failed_escalated d c logged).trans h), Nat.add_zero]

theorem still_escalate (d : Dev) (c : Nat) (logged : Bool) : (d.escalate c logged).still = d.still := by
  rw [escalate_eq, still_deviceFail, Dev.escalated, still_oinc, still_notify, still_msix]
  cases logged <;> rfl

/-- An error in the error-handling hardware is an escalated DEVICE error (R674, R675). -/
theorem escalate_acts (d : Dev) (c : Nat) (logged : Bool) :
    let f := d.escalate c logged
    f.oget O.DEVICE_STATUS = 1 ∧ f.oget O.ESCALATIONS = d.oget O.ESCALATIONS + 1 ∧ f.mem = d.mem ∧ f.nave = d.nave ∧ f.logs.queue = d.logs.queue ∧
      (d.failed = false → f.oget O.DEVICE_CAUSE = c * 256) ∧
      (logged = true → (d.errLog 256).entries.length < 8 → ∃ x ∈ (f.errLog 256).entries, x.cause = c ∧ x.escalated = true ∧ x.sev = .device) := by
  obtain ⟨-, -, hmem, -, hnave, -⟩ := still_eq (still_escalate d c logged)
  refine ⟨status_deviceFail .., escalations_escalate .., hmem, hnave, queue_escalate .., fun hf => cause_escalate hf .., ?_⟩
  rintro rfl hlen
  have hw : (d.escalateLogs c true).errLog 256 = (d.errLog 256).write (escalatedEntry d c) := by
    rw [Dev.escalateLogs, if_pos rfl, errLog_writeLog, if_pos rfl]
  obtain ⟨p, hp⟩ := (escalate_kept d c true).finds hw (by omega)
  exact ⟨_, hp, rfl, rfl, rfl⟩

/-! ### O52 -/

/-- Settles O52: an error's raising is the parts of `raise_eq`. What follows the writing of its entries only adds to ERR_LOG_256
(`raise_kept`), so that the entry of a log with room stays (`LogsKept.finds`) and a tenant's log is as it was written; the sending of messages
touches neither the queue of handlings nor the objects of error handling (`Messaging`). -/
theorem errorsAreLoggedAndHandled : Obligations.ErrorsAreLoggedAndHandled := by
  intro d e
  obtain ⟨htime, -, hmem, hl2, hnave, hprec, htr, -⟩ := still_eq (still_raise d e)
  refine ⟨⟨hmem, hl2, hnave, hprec, htr, htime⟩, fun hlen => ?_, fun ho hs => ?_, raise_kernel_bound d e, escalate_acts d, fun h => ?_, fun h => ?_, ?_,
    fun h => fails_raise (handled_device_iff.2 h), fun h => status_raise (mt handled_device_iff.1 h)⟩
  · obtain ⟨p, hp⟩ := (raise_kept d e).finds (raiseLogs_kernel d e) (by omega)
    exact ⟨_, hp, rfl, rfl, rfl, rfl, rfl, rfl, rfl⟩
  · exact ⟨_, raise_tenant_entry (owned_iff.2 ⟨ho, hs⟩), rfl, rfl⟩
  · rw [queue_raise, if_pos (starts_iff.2 h)]
    rfl
  · rw [queue_raise, if_neg (mt starts_iff.1 h)]
  · rw [folded_raise]
    simp only [folds_iff]

end Sys2Proof.Machine
end
